-- ==== Sys2Proof/Word.lean ====
section
/-! DEFINITION. The word types of the model and their plainest arithmetic: registers and descriptors are 32-bit words (R7),
frames are bytes. -/
namespace Sys2Proof

/-- A byte of a frame, of memory or of a descriptor. -/
abbrev Byte := BitVec 8

/-- A register or descriptor word (R7). -/
abbrev Word := BitVec 32

/-- A string of bytes, first byte first. -/
abbrev Bytes := List Byte

/-- The n bits of a natural number that start at bit lo. -/
def bits (v lo n : Nat) : Nat := (v >>> lo) % 2 ^ n

/-- Bit i of a natural number. -/
def bit (v i : Nat) : Bool := v.testBit i

/-- v with its n bits from lo replaced by the low n bits of x. -/
def putBits (v lo n x : Nat) : Nat := v - (bits v lo n) <<< lo + (x % 2 ^ n) <<< lo

/-- 1 for true, 0 for false. -/
def b2n (b : Bool) : Nat := if b then 1 else 0

end Sys2Proof
end

