-- ==== Sys2Proof/Machine/Regs.lean ====
section
/-! DEFINITION. The registers of the ZK4816: their names, instance counts, words, field types (Table 0-3, R9) and reset
values, transcribed from the register tables of spec/ (each register's rule stands beside it); the counters; the tables of
two versions (R269). A register nothing has written since reset reads as its reset value. -/
namespace Sys2Proof.Machine

/-- The registers, by the name the spec gives them. -/
inductive Reg where
  | PORT_QUAD_CFG  -- R42
  | PORT_CFG  -- R43
  | PORT_STATUS  -- R44
  | PORT_PFC  -- R58
  | PARSE_DISPATCH  -- R79
  | PARSE_CTL  -- R110
  | PARSE_ENTRY  -- R111
  | PARSE_WCS  -- R112
  | PARSE_PAT_VAL  -- R99
  | PARSE_PAT_MASK  -- R99
  | PARSE_PAT_CTL  -- R99
  | PARSE_LKP_DEF  -- R126
  | PORT_VLAN  -- R127
  | PARSE_OUTCOME_CTL  -- R144
  | EXM_LTBL  -- R156
  | EXM_SEED  -- R156
  | EXM_LTBL_CTL  -- R156
  | EXM_LTBL_STAT  -- R157
  | EXM_GEN  -- R163
  | EXM_LKP_CTL  -- R195
  | EXM_LEARN_CFG  -- R196
  | EXM_LEARN_COUNT  -- R196
  | EXM_FLAP_CFG  -- R205
  | TCAM_PROFILE  -- R224
  | TCAM_FH_CFG  -- R234
  | TCAM_THR_STAT  -- R260
  | VLAN_FLOOD  -- R244
  | QCI_FILTER  -- R245
  | QCI_METER  -- R246
  | QCI_FILTER_STAT  -- R246
  | QCI_GATE_CTL  -- R249
  | QCI_GATE_ENTRY  -- R249
  | QCI_GATE_STAT  -- R249
  | POL_CFG  -- R253
  | POL_STAT  -- R253
  | PORT_RW  -- R278
  | RW_SPDU_NUM  -- R282
  | MSEC_CTL  -- R289
  | MSEC_REPLAY_WIN  -- R289
  | AUTH_VCFG  -- R296
  | BUF_POOL_CFG  -- R309
  | BUF_CTL  -- R309
  | BUF_REQ_CFG  -- R309
  | ADM_CLASS  -- R331
  | ADM_EGR  -- R331
  | ADM_ING  -- R331
  | ADM_SHARED  -- R331
  | ADM_OCC  -- R331
  | ADM_ING_OCC  -- R331
  | ADM_SHARED_OCC  -- R331
  | ADM_CAP  -- R341
  | ADM_DROPCAP  -- R341
  | CAP_RING  -- R343
  | BUF_POOL_STAT  -- R347
  | SCHED_CLASS_MAP  -- R355
  | SCHED_PFC_MAP  -- R355
  | SCHED_QSEL  -- R355
  | SCHED_LINK  -- R357
  | SCHED_NODE  -- R357
  | SCHED_PORT  -- R357
  | QSHAPE  -- R367
  | QSHAPE_STAT  -- R367
  | SCHED_SHAPE  -- R367
  | SCHED_SHAPE_STAT  -- R367
  | GCL_CTL  -- R373
  | GCL_ENTRY  -- R374
  | GCL_STAT  -- R376
  | QDEPTH  -- R390
  | QTEL_CFG  -- R391
  | QTEL_MAX  -- R393
  | QTEL_RING  -- R394
  | PRED_PAIR  -- R401
  | PRED_SEQ  -- R407
  | PRED_RCVY  -- R423
  | PRED_LANE_STAT  -- R430
  | PRED_BYP_CTL  -- R434
  | TIME_CAL  -- R447
  | TIME_BOARD_DLY  -- R447
  | TIME_CTL  -- R449
  | TIME_RATE  -- R449
  | TIME_STEP  -- R449
  | TIME_STATUS  -- R449
  | TIME_NOW  -- R449
  | TIME_DOM  -- R456
  | TIME_PORT  -- R456
  | TIME_PPS_CFG  -- R461
  | TIME_PPS_OFS  -- R461
  | TIME_IRIG_CFG  -- R461
  | TIME_PPS_IN_TS  -- R461
  | GPIO_IN_CFG  -- R466
  | TIME_GRID_CFG  -- R471
  | TIME_GRID_NOW  -- R471
  | PHX_STREAM  -- R488
  | PHX_STREAM_STAT  -- R501
  | PHX_HARM  -- R507
  | PHX_HARM_OUT  -- R508
  | PHX_PMU  -- R511
  | PHX_PMU_LIST  -- R511
  | PHX_REC  -- R518
  | EVT_SUB  -- R533
  | EVT_COND  -- R536
  | EVT_COND_STAT  -- R542
  | EVT_ACT  -- R547
  | EVT_GPUB  -- R552
  | EVT_GPUB_DATA  -- R552
  | EVT_FSW  -- R565
  | EVT_FSW_STAT  -- R565
  | GPIO_OUT_CFG  -- R561
  | FAB_CTL  -- R586
  | FAB_STATE  -- R586
  | FAB_ROUTE  -- R586
  | FAB_EPOCH  -- R586
  | FAB_LINK_CFG  -- R581
  | FAB_LINK_STAT  -- R581
  | FAB_VOQ_LIM  -- R594
  | FAB_CG  -- R598
  | FAB_OWN_WIN  -- R605
  | SEC_STATE  -- R670
  | SEC_BOOT  -- R670
  | HOST_ID  -- R675
  | HOST_READY  -- R677
  | MBX_RING  -- R680
  | HDMA_TX  -- R704
  | HDMA_RX  -- R704
  | PWR_STAT  -- R726
  | PWR_BUDGET  -- R733
  | PWR_SHED  -- R738
  | PWR_HOLD_CFG  -- R738
  | PWR_RESET_REQ  -- R746
  | PWR_LAST_RESET  -- R749
  | FLT_CTL  -- R762
  | FAULT_WORD  -- R762
  | FLT_FIRST  -- R762
  | FLT_LINE_CFG  -- R762
  | FLT_ESC  -- R762
  | FLT_SAFE_CAUSE  -- R762
  | FLT_WDOG  -- R770
  | IRQ_SRC  -- R784
  | IRQ_TGT  -- R784
  | IRQ_GROUP  -- R784
  | IRQ_PEND  -- R784
  | IRQ_ACT  -- R784
  | DRAM_SC_CFG  -- R805
  | DRAM_STAT  -- R814
  | PERF_CFG  -- R818
  | PERF_CTR  -- R818
  | PERF_PRESET  -- R818
  | PERF_RING  -- R823
  deriving DecidableEq, Repr

/-- The number a register has in the register store (its place in the list above). -/
def Reg.code : Reg → Nat
  | .PORT_QUAD_CFG => 0
  | .PORT_CFG => 1
  | .PORT_STATUS => 2
  | .PORT_PFC => 3
  | .PARSE_DISPATCH => 4
  | .PARSE_CTL => 5
  | .PARSE_ENTRY => 6
  | .PARSE_WCS => 7
  | .PARSE_PAT_VAL => 8
  | .PARSE_PAT_MASK => 9
  | .PARSE_PAT_CTL => 10
  | .PARSE_LKP_DEF => 11
  | .PORT_VLAN => 12
  | .PARSE_OUTCOME_CTL => 13
  | .EXM_LTBL => 14
  | .EXM_SEED => 15
  | .EXM_LTBL_CTL => 16
  | .EXM_LTBL_STAT => 17
  | .EXM_GEN => 18
  | .EXM_LKP_CTL => 19
  | .EXM_LEARN_CFG => 20
  | .EXM_LEARN_COUNT => 21
  | .EXM_FLAP_CFG => 22
  | .TCAM_PROFILE => 23
  | .TCAM_FH_CFG => 24
  | .TCAM_THR_STAT => 25
  | .VLAN_FLOOD => 26
  | .QCI_FILTER => 27
  | .QCI_METER => 28
  | .QCI_FILTER_STAT => 29
  | .QCI_GATE_CTL => 30
  | .QCI_GATE_ENTRY => 31
  | .QCI_GATE_STAT => 32
  | .POL_CFG => 33
  | .POL_STAT => 34
  | .PORT_RW => 35
  | .RW_SPDU_NUM => 36
  | .MSEC_CTL => 37
  | .MSEC_REPLAY_WIN => 38
  | .AUTH_VCFG => 39
  | .BUF_POOL_CFG => 40
  | .BUF_CTL => 41
  | .BUF_REQ_CFG => 42
  | .ADM_CLASS => 43
  | .ADM_EGR => 44
  | .ADM_ING => 45
  | .ADM_SHARED => 46
  | .ADM_OCC => 47
  | .ADM_ING_OCC => 48
  | .ADM_SHARED_OCC => 49
  | .ADM_CAP => 50
  | .ADM_DROPCAP => 51
  | .CAP_RING => 52
  | .BUF_POOL_STAT => 53
  | .SCHED_CLASS_MAP => 54
  | .SCHED_PFC_MAP => 55
  | .SCHED_QSEL => 56
  | .SCHED_LINK => 57
  | .SCHED_NODE => 58
  | .SCHED_PORT => 59
  | .QSHAPE => 60
  | .QSHAPE_STAT => 61
  | .SCHED_SHAPE => 62
  | .SCHED_SHAPE_STAT => 63
  | .GCL_CTL => 64
  | .GCL_ENTRY => 65
  | .GCL_STAT => 66
  | .QDEPTH => 67
  | .QTEL_CFG => 68
  | .QTEL_MAX => 69
  | .QTEL_RING => 70
  | .PRED_PAIR => 71
  | .PRED_SEQ => 72
  | .PRED_RCVY => 73
  | .PRED_LANE_STAT => 74
  | .PRED_BYP_CTL => 75
  | .TIME_CAL => 76
  | .TIME_BOARD_DLY => 77
  | .TIME_CTL => 78
  | .TIME_RATE => 79
  | .TIME_STEP => 80
  | .TIME_STATUS => 81
  | .TIME_NOW => 82
  | .TIME_DOM => 83
  | .TIME_PORT => 84
  | .TIME_PPS_CFG => 85
  | .TIME_PPS_OFS => 86
  | .TIME_IRIG_CFG => 87
  | .TIME_PPS_IN_TS => 88
  | .GPIO_IN_CFG => 89
  | .TIME_GRID_CFG => 90
  | .TIME_GRID_NOW => 91
  | .PHX_STREAM => 92
  | .PHX_STREAM_STAT => 93
  | .PHX_HARM => 94
  | .PHX_HARM_OUT => 95
  | .PHX_PMU => 96
  | .PHX_PMU_LIST => 97
  | .PHX_REC => 98
  | .EVT_SUB => 99
  | .EVT_COND => 100
  | .EVT_COND_STAT => 101
  | .EVT_ACT => 102
  | .EVT_GPUB => 103
  | .EVT_GPUB_DATA => 104
  | .EVT_FSW => 105
  | .EVT_FSW_STAT => 106
  | .GPIO_OUT_CFG => 107
  | .FAB_CTL => 108
  | .FAB_STATE => 109
  | .FAB_ROUTE => 110
  | .FAB_EPOCH => 111
  | .FAB_LINK_CFG => 112
  | .FAB_LINK_STAT => 113
  | .FAB_VOQ_LIM => 114
  | .FAB_CG => 115
  | .FAB_OWN_WIN => 116
  | .SEC_STATE => 117
  | .SEC_BOOT => 118
  | .HOST_ID => 119
  | .HOST_READY => 120
  | .MBX_RING => 121
  | .HDMA_TX => 122
  | .HDMA_RX => 123
  | .PWR_STAT => 124
  | .PWR_BUDGET => 125
  | .PWR_SHED => 126
  | .PWR_HOLD_CFG => 127
  | .PWR_RESET_REQ => 128
  | .PWR_LAST_RESET => 129
  | .FLT_CTL => 130
  | .FAULT_WORD => 131
  | .FLT_FIRST => 132
  | .FLT_LINE_CFG => 133
  | .FLT_ESC => 134
  | .FLT_SAFE_CAUSE => 135
  | .FLT_WDOG => 136
  | .IRQ_SRC => 137
  | .IRQ_TGT => 138
  | .IRQ_GROUP => 139
  | .IRQ_PEND => 140
  | .IRQ_ACT => 141
  | .DRAM_SC_CFG => 142
  | .DRAM_STAT => 143
  | .PERF_CFG => 144
  | .PERF_CTR => 145
  | .PERF_PRESET => 146
  | .PERF_RING => 147

/-- Every register, by code. -/
def Reg.all : List Reg :=
  [.PORT_QUAD_CFG, .PORT_CFG, .PORT_STATUS, .PORT_PFC, .PARSE_DISPATCH, .PARSE_CTL, .PARSE_ENTRY, .PARSE_WCS,
    .PARSE_PAT_VAL, .PARSE_PAT_MASK, .PARSE_PAT_CTL, .PARSE_LKP_DEF, .PORT_VLAN, .PARSE_OUTCOME_CTL, .EXM_LTBL,
    .EXM_SEED, .EXM_LTBL_CTL, .EXM_LTBL_STAT, .EXM_GEN, .EXM_LKP_CTL, .EXM_LEARN_CFG, .EXM_LEARN_COUNT, .EXM_FLAP_CFG,
    .TCAM_PROFILE, .TCAM_FH_CFG] ++
  [.TCAM_THR_STAT, .VLAN_FLOOD, .QCI_FILTER, .QCI_METER, .QCI_FILTER_STAT, .QCI_GATE_CTL, .QCI_GATE_ENTRY,
    .QCI_GATE_STAT, .POL_CFG, .POL_STAT, .PORT_RW, .RW_SPDU_NUM, .MSEC_CTL, .MSEC_REPLAY_WIN, .AUTH_VCFG, .BUF_POOL_CFG,
    .BUF_CTL, .BUF_REQ_CFG, .ADM_CLASS, .ADM_EGR, .ADM_ING, .ADM_SHARED, .ADM_OCC, .ADM_ING_OCC, .ADM_SHARED_OCC] ++
  [.ADM_CAP, .ADM_DROPCAP, .CAP_RING, .BUF_POOL_STAT, .SCHED_CLASS_MAP, .SCHED_PFC_MAP, .SCHED_QSEL, .SCHED_LINK,
    .SCHED_NODE, .SCHED_PORT, .QSHAPE, .QSHAPE_STAT, .SCHED_SHAPE, .SCHED_SHAPE_STAT, .GCL_CTL, .GCL_ENTRY, .GCL_STAT,
    .QDEPTH, .QTEL_CFG, .QTEL_MAX, .QTEL_RING, .PRED_PAIR, .PRED_SEQ, .PRED_RCVY, .PRED_LANE_STAT] ++
  [.PRED_BYP_CTL, .TIME_CAL, .TIME_BOARD_DLY, .TIME_CTL, .TIME_RATE, .TIME_STEP, .TIME_STATUS, .TIME_NOW, .TIME_DOM,
    .TIME_PORT, .TIME_PPS_CFG, .TIME_PPS_OFS, .TIME_IRIG_CFG, .TIME_PPS_IN_TS, .GPIO_IN_CFG, .TIME_GRID_CFG,
    .TIME_GRID_NOW, .PHX_STREAM, .PHX_STREAM_STAT, .PHX_HARM, .PHX_HARM_OUT, .PHX_PMU, .PHX_PMU_LIST, .PHX_REC,
    .EVT_SUB] ++
  [.EVT_COND, .EVT_COND_STAT, .EVT_ACT, .EVT_GPUB, .EVT_GPUB_DATA, .EVT_FSW, .EVT_FSW_STAT, .GPIO_OUT_CFG, .FAB_CTL,
    .FAB_STATE, .FAB_ROUTE, .FAB_EPOCH, .FAB_LINK_CFG, .FAB_LINK_STAT, .FAB_VOQ_LIM, .FAB_CG, .FAB_OWN_WIN, .SEC_STATE,
    .SEC_BOOT, .HOST_ID, .HOST_READY, .MBX_RING, .HDMA_TX, .HDMA_RX, .PWR_STAT] ++
  [.PWR_BUDGET, .PWR_SHED, .PWR_HOLD_CFG, .PWR_RESET_REQ, .PWR_LAST_RESET, .FLT_CTL, .FAULT_WORD, .FLT_FIRST,
    .FLT_LINE_CFG, .FLT_ESC, .FLT_SAFE_CAUSE, .FLT_WDOG, .IRQ_SRC, .IRQ_TGT, .IRQ_GROUP, .IRQ_PEND, .IRQ_ACT,
    .DRAM_SC_CFG, .DRAM_STAT, .PERF_CFG, .PERF_CTR, .PERF_PRESET, .PERF_RING]

/-- The register of a code. -/
def Reg.ofCode (n : Nat) : Option Reg := Reg.all[n]?

/-- How many instances a register has: the product of the index ranges its rule gives, outermost first. -/
def Reg.count : Reg → Nat
  | .PORT_QUAD_CFG => 8
  | .PORT_CFG => 40
  | .PORT_STATUS => 40
  | .PORT_PFC => 256
  | .PARSE_DISPATCH => 2048
  | .PARSE_CTL => 4
  | .PARSE_ENTRY => 352
  | .PARSE_WCS => 65536
  | .PARSE_PAT_VAL => 512
  | .PARSE_PAT_MASK => 512
  | .PARSE_PAT_CTL => 512
  | .PARSE_LKP_DEF => 528
  | .PORT_VLAN => 44
  | .PARSE_OUTCOME_CTL => 4
  | .EXM_LTBL => 512
  | .EXM_SEED => 512
  | .EXM_LTBL_CTL => 256
  | .EXM_LTBL_STAT => 256
  | .EXM_GEN => 1
  | .EXM_LKP_CTL => 4
  | .EXM_LEARN_CFG => 44
  | .EXM_LEARN_COUNT => 44
  | .EXM_FLAP_CFG => 1
  | .TCAM_PROFILE => 1024
  | .TCAM_FH_CFG => 4
  | .TCAM_THR_STAT => 1
  | .VLAN_FLOOD => 4096
  | .QCI_FILTER => 4096
  | .QCI_METER => 4096
  | .QCI_FILTER_STAT => 4096
  | .QCI_GATE_CTL => 1024
  | .QCI_GATE_ENTRY => 131072
  | .QCI_GATE_STAT => 1024
  | .POL_CFG => 262144
  | .POL_STAT => 262144
  | .PORT_RW => 40
  | .RW_SPDU_NUM => 4096
  | .MSEC_CTL => 32
  | .MSEC_REPLAY_WIN => 32
  | .AUTH_VCFG => 44
  | .BUF_POOL_CFG => 4
  | .BUF_CTL => 1
  | .BUF_REQ_CFG => 46
  | .ADM_CLASS => 16
  | .ADM_EGR => 704
  | .ADM_ING => 256
  | .ADM_SHARED => 1
  | .ADM_OCC => 704
  | .ADM_ING_OCC => 256
  | .ADM_SHARED_OCC => 1
  | .ADM_CAP => 704
  | .ADM_DROPCAP => 1
  | .CAP_RING => 64
  | .BUF_POOL_STAT => 4
  | .SCHED_CLASS_MAP => 44
  | .SCHED_PFC_MAP => 256
  | .SCHED_QSEL => 704
  | .SCHED_LINK => 3145728
  | .SCHED_NODE => 196608
  | .SCHED_PORT => 64
  | .QSHAPE => 1048576
  | .QSHAPE_STAT => 1048576
  | .SCHED_SHAPE => 196608
  | .SCHED_SHAPE_STAT => 196608
  | .GCL_CTL => 640
  | .GCL_ENTRY => 1310720
  | .GCL_STAT => 640
  | .QDEPTH => 1048576
  | .QTEL_CFG => 1048576
  | .QTEL_MAX => 1048576
  | .QTEL_RING => 1
  | .PRED_PAIR => 16
  | .PRED_SEQ => 4096
  | .PRED_RCVY => 4096
  | .PRED_LANE_STAT => 16
  | .PRED_BYP_CTL => 1
  | .TIME_CAL => 440
  | .TIME_BOARD_DLY => 40
  | .TIME_CTL => 1
  | .TIME_RATE => 1
  | .TIME_STEP => 1
  | .TIME_STATUS => 1
  | .TIME_NOW => 1
  | .TIME_DOM => 4
  | .TIME_PORT => 40
  | .TIME_PPS_CFG => 1
  | .TIME_PPS_OFS => 1
  | .TIME_IRIG_CFG => 1
  | .TIME_PPS_IN_TS => 1
  | .GPIO_IN_CFG => 32
  | .TIME_GRID_CFG => 1
  | .TIME_GRID_NOW => 1
  | .PHX_STREAM => 4096
  | .PHX_STREAM_STAT => 4096
  | .PHX_HARM => 512
  | .PHX_HARM_OUT => 512
  | .PHX_PMU => 64
  | .PHX_PMU_LIST => 2048
  | .PHX_REC => 64
  | .EVT_SUB => 1024
  | .EVT_COND => 2048
  | .EVT_COND_STAT => 2048
  | .EVT_ACT => 1024
  | .EVT_GPUB => 256
  | .EVT_GPUB_DATA => 256
  | .EVT_FSW => 512
  | .EVT_FSW_STAT => 64
  | .GPIO_OUT_CFG => 32
  | .FAB_CTL => 1
  | .FAB_STATE => 1
  | .FAB_ROUTE => 512
  | .FAB_EPOCH => 1
  | .FAB_LINK_CFG => 8
  | .FAB_LINK_STAT => 8
  | .FAB_VOQ_LIM => 16
  | .FAB_CG => 640
  | .FAB_OWN_WIN => 1
  | .SEC_STATE => 1
  | .SEC_BOOT => 1
  | .HOST_ID => 1
  | .HOST_READY => 1
  | .MBX_RING => 16
  | .HDMA_TX => 8
  | .HDMA_RX => 8
  | .PWR_STAT => 1
  | .PWR_BUDGET => 3
  | .PWR_SHED => 4
  | .PWR_HOLD_CFG => 1
  | .PWR_RESET_REQ => 1
  | .PWR_LAST_RESET => 1
  | .FLT_CTL => 1
  | .FAULT_WORD => 1
  | .FLT_FIRST => 1
  | .FLT_LINE_CFG => 64
  | .FLT_ESC => 1
  | .FLT_SAFE_CAUSE => 1
  | .FLT_WDOG => 1
  | .IRQ_SRC => 1024
  | .IRQ_TGT => 5
  | .IRQ_GROUP => 64
  | .IRQ_PEND => 32
  | .IRQ_ACT => 32
  | .DRAM_SC_CFG => 4
  | .DRAM_STAT => 2
  | .PERF_CFG => 64
  | .PERF_CTR => 64
  | .PERF_PRESET => 64
  | .PERF_RING => 1

/-- How many 32-bit words one instance has. -/
def Reg.words : Reg → Nat
  | .PORT_QUAD_CFG => 1
  | .PORT_CFG => 1
  | .PORT_STATUS => 1
  | .PORT_PFC => 1
  | .PARSE_DISPATCH => 1
  | .PARSE_CTL => 1
  | .PARSE_ENTRY => 1
  | .PARSE_WCS => 4
  | .PARSE_PAT_VAL => 4
  | .PARSE_PAT_MASK => 4
  | .PARSE_PAT_CTL => 1
  | .PARSE_LKP_DEF => 1
  | .PORT_VLAN => 1
  | .PARSE_OUTCOME_CTL => 1
  | .EXM_LTBL => 1
  | .EXM_SEED => 1
  | .EXM_LTBL_CTL => 1
  | .EXM_LTBL_STAT => 1
  | .EXM_GEN => 1
  | .EXM_LKP_CTL => 1
  | .EXM_LEARN_CFG => 1
  | .EXM_LEARN_COUNT => 1
  | .EXM_FLAP_CFG => 1
  | .TCAM_PROFILE => 1
  | .TCAM_FH_CFG => 1
  | .TCAM_THR_STAT => 1
  | .VLAN_FLOOD => 1
  | .QCI_FILTER => 1
  | .QCI_METER => 1
  | .QCI_FILTER_STAT => 1
  | .QCI_GATE_CTL => 5
  | .QCI_GATE_ENTRY => 2
  | .QCI_GATE_STAT => 1
  | .POL_CFG => 6
  | .POL_STAT => 1
  | .PORT_RW => 1
  | .RW_SPDU_NUM => 1
  | .MSEC_CTL => 1
  | .MSEC_REPLAY_WIN => 1
  | .AUTH_VCFG => 1
  | .BUF_POOL_CFG => 1
  | .BUF_CTL => 1
  | .BUF_REQ_CFG => 1
  | .ADM_CLASS => 1
  | .ADM_EGR => 3
  | .ADM_ING => 2
  | .ADM_SHARED => 1
  | .ADM_OCC => 1
  | .ADM_ING_OCC => 1
  | .ADM_SHARED_OCC => 1
  | .ADM_CAP => 1
  | .ADM_DROPCAP => 1
  | .CAP_RING => 5
  | .BUF_POOL_STAT => 1
  | .SCHED_CLASS_MAP => 1
  | .SCHED_PFC_MAP => 1
  | .SCHED_QSEL => 1
  | .SCHED_LINK => 1
  | .SCHED_NODE => 1
  | .SCHED_PORT => 1
  | .QSHAPE => 2
  | .QSHAPE_STAT => 1
  | .SCHED_SHAPE => 2
  | .SCHED_SHAPE_STAT => 1
  | .GCL_CTL => 5
  | .GCL_ENTRY => 2
  | .GCL_STAT => 1
  | .QDEPTH => 1
  | .QTEL_CFG => 1
  | .QTEL_MAX => 2
  | .QTEL_RING => 5
  | .PRED_PAIR => 3
  | .PRED_SEQ => 1
  | .PRED_RCVY => 1
  | .PRED_LANE_STAT => 1
  | .PRED_BYP_CTL => 1
  | .TIME_CAL => 2
  | .TIME_BOARD_DLY => 1
  | .TIME_CTL => 1
  | .TIME_RATE => 1
  | .TIME_STEP => 2
  | .TIME_STATUS => 1
  | .TIME_NOW => 5
  | .TIME_DOM => 2
  | .TIME_PORT => 2
  | .TIME_PPS_CFG => 1
  | .TIME_PPS_OFS => 1
  | .TIME_IRIG_CFG => 1
  | .TIME_PPS_IN_TS => 5
  | .GPIO_IN_CFG => 1
  | .TIME_GRID_CFG => 2
  | .TIME_GRID_NOW => 6
  | .PHX_STREAM => 7
  | .PHX_STREAM_STAT => 1
  | .PHX_HARM => 1
  | .PHX_HARM_OUT => 52
  | .PHX_PMU => 5
  | .PHX_PMU_LIST => 1
  | .PHX_REC => 7
  | .EVT_SUB => 1
  | .EVT_COND => 5
  | .EVT_COND_STAT => 1
  | .EVT_ACT => 4
  | .EVT_GPUB => 35
  | .EVT_GPUB_DATA => 128
  | .EVT_FSW => 10
  | .EVT_FSW_STAT => 1
  | .GPIO_OUT_CFG => 1
  | .FAB_CTL => 1
  | .FAB_STATE => 1
  | .FAB_ROUTE => 1
  | .FAB_EPOCH => 18
  | .FAB_LINK_CFG => 1
  | .FAB_LINK_STAT => 1
  | .FAB_VOQ_LIM => 3
  | .FAB_CG => 1
  | .FAB_OWN_WIN => 1
  | .SEC_STATE => 1
  | .SEC_BOOT => 1
  | .HOST_ID => 1
  | .HOST_READY => 1
  | .MBX_RING => 7
  | .HDMA_TX => 4
  | .HDMA_RX => 4
  | .PWR_STAT => 1
  | .PWR_BUDGET => 1
  | .PWR_SHED => 1
  | .PWR_HOLD_CFG => 1
  | .PWR_RESET_REQ => 1
  | .PWR_LAST_RESET => 1
  | .FLT_CTL => 1
  | .FAULT_WORD => 2
  | .FLT_FIRST => 3
  | .FLT_LINE_CFG => 1
  | .FLT_ESC => 1
  | .FLT_SAFE_CAUSE => 1
  | .FLT_WDOG => 1
  | .IRQ_SRC => 1
  | .IRQ_TGT => 4
  | .IRQ_GROUP => 1
  | .IRQ_PEND => 1
  | .IRQ_ACT => 1
  | .DRAM_SC_CFG => 1
  | .DRAM_STAT => 1
  | .PERF_CFG => 1
  | .PERF_CTR => 2
  | .PERF_PRESET => 2
  | .PERF_RING => 5

/-- The bits of one register word by type (Table 0-3); a bit in none of them is reserved (R8). -/
structure Masks where
  rw  : Nat := 0
  cmt : Nat := 0
  ro  : Nat := 0
  w1c : Nat := 0
  rc  : Nat := 0
  rws : Nat := 0
  wo  : Nat := 0
  deriving DecidableEq, Repr

/-- The bits of any type. -/
def Masks.all (m : Masks) : Nat := m.rw ||| m.cmt ||| m.ro ||| m.w1c ||| m.rc ||| m.rws ||| m.wo

/-- Bits reserved in some instances of a register only: SERIAL_MODE on the lane ports (Table 2-4). -/
def Reg.reservedAt (r : Reg) (i : Nat) : Nat :=
  match r with
  | .PORT_CFG => if i < 32 then 0x80 else 0
  | _ => 0

/-- Field types of word k of a register. -/
def Reg.masks (r : Reg) (k : Nat) : Masks :=
  match r with
  | .PORT_QUAD_CFG => { cmt := 0xf7, rw := 0xff00 }
  | .PORT_CFG => { cmt := 0x7fffffbf }
  | .PORT_STATUS => { ro := 0xff }
  | .PORT_PFC => { cmt := 0xffffffff }
  | .PARSE_DISPATCH => { rw := 0x1fbf }
  | .PARSE_CTL => { cmt := 0x3, ro := 0x30000 }
  | .PARSE_ENTRY => { rw := 0x80001fff }
  | .PARSE_WCS => { rw := 0xffffffff }
  | .PARSE_PAT_VAL => { rw := 0xffffffff }
  | .PARSE_PAT_MASK => { rw := 0xffffffff }
  | .PARSE_PAT_CTL => { rw := 0x3f }
  | .PARSE_LKP_DEF => { cmt := 0xffffffff }
  | .PORT_VLAN => { cmt := 0xfff }
  | .PARSE_OUTCOME_CTL => { cmt := 0xffff000f }
  | .EXM_LTBL => { rw := 0x7fffffff }
  | .EXM_SEED => { rw := 0xffffffff }
  | .EXM_LTBL_CTL => { cmt := 0x3fffffff, ro := 0x40000000 }
  | .EXM_LTBL_STAT => { ro := 0xffffffff }
  | .EXM_GEN => { ro := 0xffffffff }
  | .EXM_LKP_CTL => { cmt := 0x7 }
  | .EXM_LEARN_CFG => { cmt := 0x7ffff }
  | .EXM_LEARN_COUNT => { ro := 0x1ffff }
  | .EXM_FLAP_CFG => { cmt := 0xffff }
  | .TCAM_PROFILE => { cmt := 0xf }
  | .TCAM_FH_CFG => { rw := 0xffffffff }
  | .TCAM_THR_STAT => { ro := 0x3 }
  | .VLAN_FLOOD => { cmt := 0x7fff }
  | .QCI_FILTER => { cmt := 0xfffffff }
  | .QCI_METER => { cmt := 0x3ffff }
  | .QCI_FILTER_STAT => { w1c := 0x1 }
  | .QCI_GATE_CTL => if k == 0 then { cmt := 0x7fff } else if k == 3 then { cmt := 0xffff } else { cmt := 0xffffffff }
  | .QCI_GATE_ENTRY => if k == 0 then { rw := 0x3f } else { rw := 0xffffffff }
  | .QCI_GATE_STAT => { ro := 0x7ff }
  | .POL_CFG => if k == 0 then { cmt := 0x1fff } else if k == 1 then { cmt := 0xffffffff } else if k == 2 then { cmt := 0xffffffff } else if k == 5 then { cmt := 0x1fffff } else { cmt := 0xffffff }
  | .POL_STAT => { w1c := 0x1 }
  | .PORT_RW => { cmt := 0x3fffffff }
  | .RW_SPDU_NUM => { rw := 0xffffffff }
  | .MSEC_CTL => { cmt := 0x1fff }
  | .MSEC_REPLAY_WIN => { cmt := 0xffffffff }
  | .AUTH_VCFG => { cmt := 0x1f }
  | .BUF_POOL_CFG => { rw := 0x7ffff }
  | .BUF_CTL => { rw := 0x3 }
  | .BUF_REQ_CFG => { rw := 0x1 }
  | .ADM_CLASS => { cmt := 0x7ffffff }
  | .ADM_EGR => { cmt := 0x7ffff }
  | .ADM_ING => { cmt := 0x7ffff }
  | .ADM_SHARED => { cmt := 0x7ffff }
  | .ADM_OCC => { ro := 0x7ffff }
  | .ADM_ING_OCC => { ro := 0x7ffff }
  | .ADM_SHARED_OCC => { ro := 0x7ffff }
  | .ADM_CAP => { cmt := 0x7f }
  | .ADM_DROPCAP => { cmt := 0x7f }
  | .CAP_RING => if k == 0 then { cmt := 0x1fffffff } else if k == 1 then { cmt := 0xffffff } else if k == 3 then { ro := 0x3ffffff } else if k == 4 then { rw := 0x3ffffff } else { cmt := 0xffff0f03 }
  | .BUF_POOL_STAT => { ro := 0x7ffff, rc := 0xfff80000 }
  | .SCHED_CLASS_MAP => { cmt := 0xffffffff }
  | .SCHED_PFC_MAP => { cmt := 0xffff }
  | .SCHED_QSEL => { cmt := 0x7ffffff }
  | .SCHED_LINK => { cmt := 0x1fffffff }
  | .SCHED_NODE => { cmt := 0xffff }
  | .SCHED_PORT => { cmt := 0x1ff }
  | .QSHAPE => if k == 0 then { cmt := 0xffffffff } else { cmt := 0x1ffffff }
  | .QSHAPE_STAT => { ro := 0x1ffffff }
  | .SCHED_SHAPE => if k == 0 then { cmt := 0xffffffff } else { cmt := 0x1ffffff }
  | .SCHED_SHAPE_STAT => { ro := 0x1ffffff }
  | .GCL_CTL => if k == 0 then { cmt := 0x7fff } else if k == 3 then { cmt := 0xffff } else { cmt := 0xffffffff }
  | .GCL_ENTRY => if k == 1 then { rw := 0xffffffff } else { rw := 0x1 }
  | .GCL_STAT => { ro := 0x7fff }
  | .QDEPTH => { ro := 0xffffffff }
  | .QTEL_CFG => { cmt := 0xf }
  | .QTEL_MAX => if k == 0 then { rc := 0x7ffff } else { rc := 0xffffffff }
  | .QTEL_RING => if k == 0 then { cmt := 0x1fffffff } else if k == 1 then { cmt := 0xffffff } else if k == 3 then { ro := 0x3ffffff } else if k == 4 then { rw := 0x3ffffff } else { cmt := 0xffff0f03 }
  | .PRED_PAIR => if k == 0 then { cmt := 0x3ffffff } else if k == 1 then { cmt := 0xffffff } else { cmt := 0xffffffff }
  | .PRED_SEQ => { ro := 0xffff }
  | .PRED_RCVY => { cmt := 0xffff01ff }
  | .PRED_LANE_STAT => { w1c := 0x3, rw := 0x4 }
  | .PRED_BYP_CTL => { rw := 0x3, ro := 0x30 }
  | .TIME_CAL => { rw := 0xffffff }
  | .TIME_BOARD_DLY => { rw := 0xffffffff }
  | .TIME_CTL => { cmt := 0x1fffef, ro := 0x10 }
  | .TIME_RATE => { rw := 0xffffffff }
  | .TIME_STEP => { wo := 0xffffffff }
  | .TIME_STATUS => { ro := 0xffff001f }
  | .TIME_NOW => { ro := 0xffffffff }
  | .TIME_DOM => if k == 0 then { cmt := 0xfff } else { rw := 0xffffffff }
  | .TIME_PORT => if k == 1 then { cmt := 0x1f } else { rw := 0xffffffff }
  | .TIME_PPS_CFG => { cmt := 0xffffffff }
  | .TIME_PPS_OFS => { cmt := 0xffffffff }
  | .TIME_IRIG_CFG => { cmt := 0x3f }
  | .TIME_PPS_IN_TS => { ro := 0xffffffff }
  | .GPIO_IN_CFG => { cmt := 0x7ffff }
  | .TIME_GRID_CFG => if k == 1 then { cmt := 0xffffffff } else { cmt := 0x3fffffff }
  | .TIME_GRID_NOW => if k == 3 then { ro := 0x3 } else { ro := 0xffffffff }
  | .PHX_STREAM => if k == 2 then { cmt := 0x3ffffff } else if k == 5 then { cmt := 0x33333333 } else { cmt := 0xffffffff }
  | .PHX_STREAM_STAT => { ro := 0xffff007f }
  | .PHX_HARM => { cmt := 0xffff }
  | .PHX_HARM_OUT => { ro := 0xffffffff }
  | .PHX_PMU => if k == 0 then { cmt := 0xffffff1f } else if k == 1 then { cmt := 0x3ffff } else if k == 3 then { cmt := 0xffff } else { cmt := 0xffffffff }
  | .PHX_PMU_LIST => { cmt := 0xfffff }
  | .PHX_REC => if k == 0 then { cmt := 0x1fffffff } else if k == 1 then { cmt := 0xffffff } else if k == 2 then { cmt := 0x7 } else if k == 3 then { cmt := 0xffffffff } else if k == 5 then { ro := 0x3ffffff } else if k == 6 then { ro := 0x1f } else { cmt := 0xffff }
  | .EVT_SUB => { cmt := 0xffff0007 }
  | .EVT_COND => if k == 0 then { cmt := 0x3fff } else { cmt := 0xffffffff }
  | .EVT_COND_STAT => { ro := 0x1f }
  | .EVT_ACT => if k == 0 then { cmt := 0x3ffff } else if k == 3 then { cmt := 0xffffff } else { cmt := 0xffffffff }
  | .EVT_GPUB => ([({ cmt := 0xffffffff } : Masks),
      ({ cmt := 0xffffffff } : Masks),
      ({ cmt := 0xff } : Masks),
      ({ cmt := 0xffffffff } : Masks),
      ({ cmt := 0xffffffff } : Masks),
      ({ cmt := 0xffffffff } : Masks),
      ({ cmt := 0xffffffff } : Masks),
      ({ cmt := 0x1ff01ff } : Masks),
      ({ cmt := 0x1ff01ff } : Masks),
      ({ cmt := 0xfffff } : Masks),
      ({ cmt := 0xffffff } : Masks),
      ({ cmt := 0x47ff0fff } : Masks),
      ({ cmt := 0xffffffff } : Masks),
      ({ cmt := 0xffffffff } : Masks),
      ({ cmt := 0x47ff0fff } : Masks),
      ({ cmt := 0xffffffff } : Masks),
      ({ cmt := 0xffffffff } : Masks),
      ({ cmt := 0x47ff0fff } : Masks),
      ({ cmt := 0xffffffff } : Masks),
      ({ cmt := 0xffffffff } : Masks),
      ({ cmt := 0x47ff0fff } : Masks),
      ({ cmt := 0xffffffff } : Masks),
      ({ cmt := 0xffffffff } : Masks),
      ({ cmt := 0x47ff0fff } : Masks),
      ({ cmt := 0xffffffff } : Masks),
      ({ cmt := 0xffffffff } : Masks),
      ({ cmt := 0x47ff0fff } : Masks),
      ({ cmt := 0xffffffff } : Masks),
      ({ cmt := 0xffffffff } : Masks),
      ({ cmt := 0x47ff0fff } : Masks),
      ({ cmt := 0xffffffff } : Masks),
      ({ cmt := 0xffffffff } : Masks),
      ({ cmt := 0x47ff0fff } : Masks),
      ({ cmt := 0xffffffff } : Masks),
      ({ cmt := 0xffffffff } : Masks)].getD k {})
  | .EVT_GPUB_DATA => { cmt := 0xffffffff }
  | .EVT_FSW => if k == 5 then { cmt := 0x1ff } else if k == 7 then { cmt := 0xff } else if k == 9 then { cmt := 0xff } else { cmt := 0xffffffff }
  | .EVT_FSW_STAT => { ro := 0x1 }
  | .GPIO_OUT_CFG => { cmt := 0xf }
  | .FAB_CTL => { cmt := 0x1fffffff }
  | .FAB_STATE => { ro := 0xffffffff }
  | .FAB_ROUTE => { rw := 0xff, ro := 0x1f00 }
  | .FAB_EPOCH => { ro := 0xffffffff }
  | .FAB_LINK_CFG => { cmt := 0xffffffff }
  | .FAB_LINK_STAT => { ro := 0xffffffff }
  | .FAB_VOQ_LIM => { cmt := 0x7ffff }
  | .FAB_CG => { cmt := 0x7ffff }
  | .FAB_OWN_WIN => { cmt := 0xffff }
  | .SEC_STATE => { ro := 0xffff7fff }
  | .SEC_BOOT => { rws := 0x1, ro := 0xfe }
  | .HOST_ID => { ro := 0xffffffff }
  | .HOST_READY => { ro := 0xff033fff }
  | .MBX_RING => if k == 4 then { rw := 0x1ff } else if k == 5 then { ro := 0xffffffff } else if k == 6 then { ro := 0xf } else { rw := 0xffffffff }
  | .HDMA_TX => if k == 2 then { rw := 0x7fffff } else if k == 3 then { ro := 0xffff } else { rw := 0xffffffff }
  | .HDMA_RX => if k == 2 then { rw := 0x7fffff } else if k == 3 then { ro := 0xffff } else { rw := 0xffffffff }
  | .PWR_STAT => { ro := 0xffff077f }
  | .PWR_BUDGET => { cmt := 0xfffffff }
  | .PWR_SHED => { cmt := 0x7fff }
  | .PWR_HOLD_CFG => { cmt := 0x3ffffff }
  | .PWR_RESET_REQ => { wo := 0x7 }
  | .PWR_LAST_RESET => { ro := 0xf }
  | .FLT_CTL => { ro := 0x1 }
  | .FAULT_WORD => { w1c := 0xffffffff }
  | .FLT_FIRST => if k == 0 then { rws := 0x7f } else { rws := 0xffffffff }
  | .FLT_LINE_CFG => { rw := 0x7fff }
  | .FLT_ESC => { rws := 0x3ff }
  | .FLT_SAFE_CAUSE => { rws := 0x3fff }
  | .FLT_WDOG => { rw := 0xffff, wo := 0xffff0000 }
  | .IRQ_SRC => { rw := 0x1ffffff }
  | .IRQ_TGT => if k == 0 then { rw := 0xffff7f } else if k == 1 then { ro := 0x800003ff } else if k == 3 then { ro := 0xff1 } else { wo := 0x3ff }
  | .IRQ_GROUP => { rw := 0xffffff }
  | .IRQ_PEND => { ro := 0xffffffff }
  | .IRQ_ACT => { ro := 0xffffffff }
  | .DRAM_SC_CFG => { rw := 0xffff }
  | .DRAM_STAT => { ro := 0x7 }
  | .PERF_CFG => { rw := 0x7ffffff }
  | .PERF_CTR => if k == 0 then { rw := 0xffffffff } else { rw := 0xffff }
  | .PERF_PRESET => if k == 0 then { rw := 0xffffffff } else { rw := 0xffff }
  | .PERF_RING => if k == 0 then { cmt := 0x1fffffff } else if k == 1 then { cmt := 0xffffff } else if k == 3 then { ro := 0x3ffffff } else if k == 4 then { rw := 0x3ffffff } else { cmt := 0xffff0f03 }

/-- Reset value of IRQ_SRC[s] (Tables 18-8 and 18-9). -/
def irqSrcReset (i : Nat) : Nat :=
  let sense := if i == 50 || (64 ≤ i && i ≤ 127) || (168 ≤ i && i ≤ 183) || i == 204 || (208 ≤ i && i ≤ 239) then 0
    else if 128 ≤ i && i ≤ 167 then 4 else 2
  if i < 32 then 15 + 16 * 2 + 128 + 2048 else 16 * sense + 4 * 256

/-- Reset value of word k of instance i (the Reset columns; a word not named resets to 0). -/
def Reg.resetNat (r : Reg) (i k : Nat) : Nat :=
  match r with
  | .PORT_CFG => if k == 0 then 0x5f20000 else 0
  | .PORT_VLAN => if k == 0 then 0x1 else 0
  | .QCI_GATE_CTL => if k == 0 then 0x8 else 0
  | .BUF_POOL_CFG => if k == 0 then [65536, 16384, 8192, 1024].getD i 0 else 0
  | .BUF_CTL => if k == 0 then 0x2 else 0
  | .SCHED_CLASS_MAP => if k == 0 then 0x76543210 else 0
  | .SCHED_PFC_MAP => if k == 0 then 2 ^ (i % 8) else 0
  | .SCHED_QSEL => if k == 0 then i else 0
  | .SCHED_LINK => if k == 0 then 0x70000 else 0
  | .SCHED_NODE => if k == 0 then 0x400 else 0
  | .SCHED_PORT => if k == 0 then 0x14 else 0
  | .GCL_CTL => if k == 0 then 0x10 else 0
  | .PRED_PAIR => if k == 2 then 0xa0190 else 0
  | .TIME_CTL => if k == 0 then 0x780 else 0
  | .TIME_GRID_CFG => if k == 0 then 0x5358000 else 0
  | .TIME_GRID_NOW => if k == 3 then 0x2 else 0
  | .PHX_STREAM => if k == 2 then 0x111ac00 else if k == 3 then 0xfa0 else if k == 4 then 0x3e8 else if k == 5 then 0x11112222 else 0
  | .FAB_CTL => if k == 0 then 0x14 else 0
  | .FAB_OWN_WIN => if k == 0 then 0x3e8 else 0
  | .HOST_ID => if k == 0 then 0x4816 else 0
  | .MBX_RING => if k == 4 then 0x44 else 0
  | .HDMA_TX => if k == 2 then 0x4 else 0
  | .HDMA_RX => if k == 2 then 0x4 else 0
  | .PWR_SHED => if k == 0 then (i + 1) + 8 * ([840, 800, 760, 700].getD i 0) else 0
  | .PWR_HOLD_CFG => if k == 0 then 0xa00c0 else 0
  | .FLT_CTL => if k == 0 then 0x1 else 0
  | .FLT_LINE_CFG => if k == 0 then 0x7d0 else 0
  | .IRQ_SRC => if k == 0 then irqSrcReset i else 0
  | .IRQ_GROUP => if k == 0 then 0x101 else 0
  | .DRAM_SC_CFG => if k == 0 then [125, 500, 2000, 8000].getD i 0 else 0
  | .PERF_CFG => if k == 0 then 0x7800 else 0
  | _ => 0

/-- A field of a register: the register, the word, its lowest bit and its width. -/
structure Fld where
  reg  : Reg
  word : Nat
  lo   : Nat
  n    : Nat
  deriving DecidableEq, Repr

def F.PORT_QUAD_CFG.MODE : Fld := ⟨.PORT_QUAD_CFG, 0, 0, 3⟩
def F.PORT_QUAD_CFG.LANE_25G : Fld := ⟨.PORT_QUAD_CFG, 0, 4, 4⟩
def F.PORT_QUAD_CFG.TX_INVERT : Fld := ⟨.PORT_QUAD_CFG, 0, 8, 4⟩
def F.PORT_QUAD_CFG.RX_INVERT : Fld := ⟨.PORT_QUAD_CFG, 0, 12, 4⟩
def F.PORT_CFG.ENABLE : Fld := ⟨.PORT_CFG, 0, 0, 1⟩
def F.PORT_CFG.FEC : Fld := ⟨.PORT_CFG, 0, 1, 2⟩
def F.PORT_CFG.EEE_EN : Fld := ⟨.PORT_CFG, 0, 3, 1⟩
def F.PORT_CFG.CT_EN : Fld := ⟨.PORT_CFG, 0, 4, 1⟩
def F.PORT_CFG.LINKDOWN_FLUSH : Fld := ⟨.PORT_CFG, 0, 5, 1⟩
def F.PORT_CFG.SERIAL_MODE : Fld := ⟨.PORT_CFG, 0, 7, 1⟩
def F.PORT_CFG.PFC_PRI : Fld := ⟨.PORT_CFG, 0, 8, 8⟩
def F.PORT_CFG.MAX_FRAME : Fld := ⟨.PORT_CFG, 0, 16, 15⟩
def F.PORT_STATUS.LINK_UP : Fld := ⟨.PORT_STATUS, 0, 0, 1⟩
def F.PORT_STATUS.LINK_FAULT : Fld := ⟨.PORT_STATUS, 0, 1, 1⟩
def F.PORT_STATUS.FEC_INVALID : Fld := ⟨.PORT_STATUS, 0, 2, 1⟩
def F.PORT_STATUS.LPI_TX : Fld := ⟨.PORT_STATUS, 0, 3, 1⟩
def F.PORT_STATUS.LPI_RX : Fld := ⟨.PORT_STATUS, 0, 4, 1⟩
def F.PORT_STATUS.RATE : Fld := ⟨.PORT_STATUS, 0, 5, 3⟩
def F.PORT_PFC.HEADROOM : Fld := ⟨.PORT_PFC, 0, 0, 16⟩
def F.PORT_PFC.PEER_RESP : Fld := ⟨.PORT_PFC, 0, 16, 16⟩
def F.PARSE_DISPATCH.OPER : Fld := ⟨.PARSE_DISPATCH, 0, 0, 6⟩
def F.PARSE_DISPATCH.VALID : Fld := ⟨.PARSE_DISPATCH, 0, 7, 1⟩
def F.PARSE_DISPATCH.SF : Fld := ⟨.PARSE_DISPATCH, 0, 8, 1⟩
def F.PARSE_DISPATCH.SX : Fld := ⟨.PARSE_DISPATCH, 0, 9, 1⟩
def F.PARSE_DISPATCH.LE : Fld := ⟨.PARSE_DISPATCH, 0, 10, 1⟩
def F.PARSE_DISPATCH.NA : Fld := ⟨.PARSE_DISPATCH, 0, 11, 1⟩
def F.PARSE_DISPATCH.ABS : Fld := ⟨.PARSE_DISPATCH, 0, 12, 1⟩
def F.PARSE_CTL.ACTIVE_BANK : Fld := ⟨.PARSE_CTL, 0, 0, 1⟩
def F.PARSE_CTL.TRAP_COPY : Fld := ⟨.PARSE_CTL, 0, 1, 1⟩
def F.PARSE_CTL.BANK_BUSY : Fld := ⟨.PARSE_CTL, 0, 16, 2⟩
def F.PARSE_ENTRY.ADDR : Fld := ⟨.PARSE_ENTRY, 0, 0, 13⟩
def F.PARSE_ENTRY.USED : Fld := ⟨.PARSE_ENTRY, 0, 31, 1⟩
def F.PARSE_PAT_CTL.LEN_M1 : Fld := ⟨.PARSE_PAT_CTL, 0, 0, 4⟩
def F.PARSE_PAT_CTL.ANCHOR : Fld := ⟨.PARSE_PAT_CTL, 0, 4, 1⟩
def F.PARSE_PAT_CTL.ENABLE : Fld := ⟨.PARSE_PAT_CTL, 0, 5, 1⟩
def F.PARSE_LKP_DEF.VALUE : Fld := ⟨.PARSE_LKP_DEF, 0, 0, 32⟩
def F.PORT_VLAN.PVID : Fld := ⟨.PORT_VLAN, 0, 0, 12⟩
def F.PARSE_OUTCOME_CTL.DEPTH_ACTION : Fld := ⟨.PARSE_OUTCOME_CTL, 0, 0, 2⟩
def F.PARSE_OUTCOME_CTL.DEPTH_COPY : Fld := ⟨.PARSE_OUTCOME_CTL, 0, 2, 1⟩
def F.PARSE_OUTCOME_CTL.MAL_COPY : Fld := ⟨.PARSE_OUTCOME_CTL, 0, 3, 1⟩
def F.PARSE_OUTCOME_CTL.COPY_LIMIT : Fld := ⟨.PARSE_OUTCOME_CTL, 0, 16, 16⟩
def F.EXM_LTBL.BASE : Fld := ⟨.EXM_LTBL, 0, 0, 18⟩
def F.EXM_LTBL.LOG2 : Fld := ⟨.EXM_LTBL, 0, 18, 5⟩
def F.EXM_LTBL.KEY_W : Fld := ⟨.EXM_LTBL, 0, 23, 8⟩
def F.EXM_SEED.SEED : Fld := ⟨.EXM_SEED, 0, 0, 32⟩
def F.EXM_LTBL_CTL.KIND : Fld := ⟨.EXM_LTBL_CTL, 0, 0, 3⟩
def F.EXM_LTBL_CTL.ACTIVE : Fld := ⟨.EXM_LTBL_CTL, 0, 3, 1⟩
def F.EXM_LTBL_CTL.OVF_MAX : Fld := ⟨.EXM_LTBL_CTL, 0, 4, 14⟩
def F.EXM_LTBL_CTL.AGE_TIME : Fld := ⟨.EXM_LTBL_CTL, 0, 18, 12⟩
def F.EXM_LTBL_CTL.REHASH_BUSY : Fld := ⟨.EXM_LTBL_CTL, 0, 30, 1⟩
def F.EXM_LTBL_STAT.SWITCH_GEN : Fld := ⟨.EXM_LTBL_STAT, 0, 0, 16⟩
def F.EXM_LTBL_STAT.SWITCH_COUNT : Fld := ⟨.EXM_LTBL_STAT, 0, 16, 16⟩
def F.EXM_GEN.CUR : Fld := ⟨.EXM_GEN, 0, 0, 16⟩
def F.EXM_GEN.OLD : Fld := ⟨.EXM_GEN, 0, 16, 16⟩
def F.EXM_LKP_CTL.SA_SLOT : Fld := ⟨.EXM_LKP_CTL, 0, 0, 2⟩
def F.EXM_LKP_CTL.SA_EN : Fld := ⟨.EXM_LKP_CTL, 0, 2, 1⟩
def F.EXM_LEARN_CFG.LIMIT : Fld := ⟨.EXM_LEARN_CFG, 0, 0, 16⟩
def F.EXM_LEARN_CFG.POLICY : Fld := ⟨.EXM_LEARN_CFG, 0, 16, 1⟩
def F.EXM_LEARN_CFG.LEARN_EN : Fld := ⟨.EXM_LEARN_CFG, 0, 17, 1⟩
def F.EXM_LEARN_CFG.PIN_DISCARD : Fld := ⟨.EXM_LEARN_CFG, 0, 18, 1⟩
def F.EXM_LEARN_COUNT.COUNT : Fld := ⟨.EXM_LEARN_COUNT, 0, 0, 17⟩
def F.EXM_FLAP_CFG.PIN_HOLD : Fld := ⟨.EXM_FLAP_CFG, 0, 0, 16⟩
def F.TCAM_PROFILE.VALID : Fld := ⟨.TCAM_PROFILE, 0, 0, 1⟩
def F.TCAM_PROFILE.INS_PORT : Fld := ⟨.TCAM_PROFILE, 0, 1, 1⟩
def F.TCAM_PROFILE.INS_VID : Fld := ⟨.TCAM_PROFILE, 0, 2, 1⟩
def F.TCAM_PROFILE.INS_PCP : Fld := ⟨.TCAM_PROFILE, 0, 3, 1⟩
def F.TCAM_FH_CFG.THRESH : Fld := ⟨.TCAM_FH_CFG, 0, 0, 16⟩
def F.TCAM_FH_CFG.WINDOW : Fld := ⟨.TCAM_FH_CFG, 0, 16, 16⟩
def F.TCAM_THR_STAT.LEVEL : Fld := ⟨.TCAM_THR_STAT, 0, 0, 2⟩
def F.VLAN_FLOOD.GROUP : Fld := ⟨.VLAN_FLOOD, 0, 0, 14⟩
def F.VLAN_FLOOD.VALID : Fld := ⟨.VLAN_FLOOD, 0, 14, 1⟩
def F.QCI_FILTER.MAX_SDU : Fld := ⟨.QCI_FILTER, 0, 0, 14⟩
def F.QCI_FILTER.GATE : Fld := ⟨.QCI_FILTER, 0, 14, 10⟩
def F.QCI_FILTER.GATE_EN : Fld := ⟨.QCI_FILTER, 0, 24, 1⟩
def F.QCI_FILTER.BLOCK_OVERSIZE : Fld := ⟨.QCI_FILTER, 0, 25, 1⟩
def F.QCI_FILTER.BLOCK_CLOSED : Fld := ⟨.QCI_FILTER, 0, 26, 1⟩
def F.QCI_FILTER.METER_VALID : Fld := ⟨.QCI_FILTER, 0, 27, 1⟩
def F.QCI_METER.METER : Fld := ⟨.QCI_METER, 0, 0, 18⟩
def F.QCI_FILTER_STAT.BLOCKED : Fld := ⟨.QCI_FILTER_STAT, 0, 0, 1⟩
def F.QCI_GATE_CTL.ENABLE : Fld := ⟨.QCI_GATE_CTL, 0, 0, 1⟩
def F.QCI_GATE_CTL.TIMEBASE : Fld := ⟨.QCI_GATE_CTL, 0, 1, 1⟩
def F.QCI_GATE_CTL.LIST : Fld := ⟨.QCI_GATE_CTL, 0, 2, 1⟩
def F.QCI_GATE_CTL.PRE_OPEN : Fld := ⟨.QCI_GATE_CTL, 0, 3, 1⟩
def F.QCI_GATE_CTL.LEN_M1 : Fld := ⟨.QCI_GATE_CTL, 0, 4, 6⟩
def F.QCI_GATE_CTL.PRE_IPV : Fld := ⟨.QCI_GATE_CTL, 0, 10, 4⟩
def F.QCI_GATE_CTL.PRE_IPV_VALID : Fld := ⟨.QCI_GATE_CTL, 0, 14, 1⟩
def F.QCI_GATE_CTL.BASE_LO : Fld := ⟨.QCI_GATE_CTL, 1, 0, 32⟩
def F.QCI_GATE_CTL.BASE_SEC_LO : Fld := ⟨.QCI_GATE_CTL, 2, 0, 32⟩
def F.QCI_GATE_CTL.BASE_SEC_HI : Fld := ⟨.QCI_GATE_CTL, 3, 0, 16⟩
def F.QCI_GATE_CTL.CYCLE_NS : Fld := ⟨.QCI_GATE_CTL, 4, 0, 32⟩
def F.QCI_GATE_ENTRY.OPEN : Fld := ⟨.QCI_GATE_ENTRY, 0, 0, 1⟩
def F.QCI_GATE_ENTRY.IPV : Fld := ⟨.QCI_GATE_ENTRY, 0, 1, 4⟩
def F.QCI_GATE_ENTRY.IPV_VALID : Fld := ⟨.QCI_GATE_ENTRY, 0, 5, 1⟩
def F.QCI_GATE_ENTRY.INTERVAL : Fld := ⟨.QCI_GATE_ENTRY, 1, 0, 32⟩
def F.QCI_GATE_STAT.OPEN : Fld := ⟨.QCI_GATE_STAT, 0, 0, 1⟩
def F.QCI_GATE_STAT.PENDING : Fld := ⟨.QCI_GATE_STAT, 0, 1, 1⟩
def F.QCI_GATE_STAT.RUNNING_LIST : Fld := ⟨.QCI_GATE_STAT, 0, 2, 1⟩
def F.QCI_GATE_STAT.ENTRY : Fld := ⟨.QCI_GATE_STAT, 0, 3, 6⟩
def F.QCI_GATE_STAT.GRID : Fld := ⟨.QCI_GATE_STAT, 0, 9, 2⟩
def F.POL_CFG.MODE : Fld := ⟨.POL_CFG, 0, 0, 2⟩
def F.POL_CFG.COLOR_AWARE : Fld := ⟨.POL_CFG, 0, 2, 1⟩
def F.POL_CFG.DROP_RED : Fld := ⟨.POL_CFG, 0, 3, 1⟩
def F.POL_CFG.DROP_YELLOW : Fld := ⟨.POL_CFG, 0, 4, 1⟩
def F.POL_CFG.MARK_DEI : Fld := ⟨.POL_CFG, 0, 5, 1⟩
def F.POL_CFG.LEN_ADJ : Fld := ⟨.POL_CFG, 0, 6, 6⟩
def F.POL_CFG.RED_LATCH_EN : Fld := ⟨.POL_CFG, 0, 12, 1⟩
def F.POL_CFG.CIR : Fld := ⟨.POL_CFG, 1, 0, 32⟩
def F.POL_CFG.EIR_PIR : Fld := ⟨.POL_CFG, 2, 0, 32⟩
def F.POL_CFG.CBS : Fld := ⟨.POL_CFG, 3, 0, 24⟩
def F.POL_CFG.EBS_PBS : Fld := ⟨.POL_CFG, 4, 0, 24⟩
def F.POL_CFG.COUNTER_BASE : Fld := ⟨.POL_CFG, 5, 0, 20⟩
def F.POL_CFG.COUNT_EN : Fld := ⟨.POL_CFG, 5, 20, 1⟩
def F.POL_STAT.RED_LATCHED : Fld := ⟨.POL_STAT, 0, 0, 1⟩
def F.PORT_RW.LIST : Fld := ⟨.PORT_RW, 0, 0, 16⟩
def F.PORT_RW.LIST_EN : Fld := ⟨.PORT_RW, 0, 16, 1⟩
def F.PORT_RW.UNTAG_EN : Fld := ⟨.PORT_RW, 0, 17, 1⟩
def F.PORT_RW.UNTAG_VID : Fld := ⟨.PORT_RW, 0, 18, 12⟩
def F.RW_SPDU_NUM.NUM : Fld := ⟨.RW_SPDU_NUM, 0, 0, 32⟩
def F.MSEC_CTL.TX_EN : Fld := ⟨.MSEC_CTL, 0, 0, 1⟩
def F.MSEC_CTL.RX_EN : Fld := ⟨.MSEC_CTL, 0, 1, 1⟩
def F.MSEC_CTL.TX_AN : Fld := ⟨.MSEC_CTL, 0, 2, 2⟩
def F.MSEC_CTL.SCI_EN : Fld := ⟨.MSEC_CTL, 0, 4, 1⟩
def F.MSEC_CTL.PTP_CLEAR : Fld := ⟨.MSEC_CTL, 0, 5, 1⟩
def F.MSEC_CTL.REPLAY_EN : Fld := ⟨.MSEC_CTL, 0, 6, 1⟩
def F.MSEC_CTL.PN_EXP : Fld := ⟨.MSEC_CTL, 0, 7, 6⟩
def F.MSEC_REPLAY_WIN.WINDOW : Fld := ⟨.MSEC_REPLAY_WIN, 0, 0, 32⟩
def F.AUTH_VCFG.VERIFY : Fld := ⟨.AUTH_VCFG, 0, 0, 1⟩
def F.AUTH_VCFG.REQUIRE : Fld := ⟨.AUTH_VCFG, 0, 1, 1⟩
def F.AUTH_VCFG.ACTION : Fld := ⟨.AUTH_VCFG, 0, 2, 2⟩
def F.AUTH_VCFG.OVERLOAD : Fld := ⟨.AUTH_VCFG, 0, 4, 1⟩
def F.BUF_POOL_CFG.COUNT : Fld := ⟨.BUF_POOL_CFG, 0, 0, 19⟩
def F.BUF_CTL.LOCK : Fld := ⟨.BUF_CTL, 0, 0, 1⟩
def F.BUF_CTL.OWNER_CHECK : Fld := ⟨.BUF_CTL, 0, 1, 1⟩
def F.BUF_REQ_CFG.SPILL : Fld := ⟨.BUF_REQ_CFG, 0, 0, 1⟩
def F.ADM_CLASS.AGE_LIMIT : Fld := ⟨.ADM_CLASS, 0, 0, 24⟩
def F.ADM_CLASS.CT_ALLOW : Fld := ⟨.ADM_CLASS, 0, 24, 1⟩
def F.ADM_CLASS.ATOMIC : Fld := ⟨.ADM_CLASS, 0, 25, 1⟩
def F.ADM_CLASS.RESERVE : Fld := ⟨.ADM_CLASS, 0, 26, 1⟩
def F.ADM_EGR.GREEN_LIM : Fld := ⟨.ADM_EGR, 0, 0, 19⟩
def F.ADM_EGR.YELLOW_LIM : Fld := ⟨.ADM_EGR, 1, 0, 19⟩
def F.ADM_EGR.RED_LIM : Fld := ⟨.ADM_EGR, 2, 0, 19⟩
def F.ADM_ING.XOFF : Fld := ⟨.ADM_ING, 0, 0, 19⟩
def F.ADM_ING.XON : Fld := ⟨.ADM_ING, 1, 0, 19⟩
def F.ADM_SHARED.SHARED_LIM : Fld := ⟨.ADM_SHARED, 0, 0, 19⟩
def F.ADM_OCC.OCC : Fld := ⟨.ADM_OCC, 0, 0, 19⟩
def F.ADM_ING_OCC.OCC : Fld := ⟨.ADM_ING_OCC, 0, 0, 19⟩
def F.ADM_SHARED_OCC.OCC : Fld := ⟨.ADM_SHARED_OCC, 0, 0, 19⟩
def F.ADM_CAP.RING : Fld := ⟨.ADM_CAP, 0, 0, 6⟩
def F.ADM_CAP.VALID : Fld := ⟨.ADM_CAP, 0, 6, 1⟩
def F.ADM_DROPCAP.RING : Fld := ⟨.ADM_DROPCAP, 0, 0, 6⟩
def F.ADM_DROPCAP.VALID : Fld := ⟨.ADM_DROPCAP, 0, 6, 1⟩
def F.CAP_RING.BASE : Fld := ⟨.CAP_RING, 0, 0, 29⟩
def F.CAP_RING.SIZE : Fld := ⟨.CAP_RING, 1, 0, 24⟩
def F.CAP_RING.ENABLE : Fld := ⟨.CAP_RING, 2, 0, 1⟩
def F.CAP_RING.WRAP : Fld := ⟨.CAP_RING, 2, 1, 1⟩
def F.CAP_RING.SAMPLE : Fld := ⟨.CAP_RING, 2, 8, 4⟩
def F.CAP_RING.RATE : Fld := ⟨.CAP_RING, 2, 16, 16⟩
def F.CAP_RING.WR_IDX : Fld := ⟨.CAP_RING, 3, 0, 26⟩
def F.CAP_RING.RD_IDX : Fld := ⟨.CAP_RING, 4, 0, 26⟩
def F.BUF_POOL_STAT.FREE : Fld := ⟨.BUF_POOL_STAT, 0, 0, 19⟩
def F.BUF_POOL_STAT.LOW : Fld := ⟨.BUF_POOL_STAT, 0, 19, 13⟩
def F.SCHED_CLASS_MAP.CLASS0 : Fld := ⟨.SCHED_CLASS_MAP, 0, 0, 4⟩
def F.SCHED_CLASS_MAP.CLASS1 : Fld := ⟨.SCHED_CLASS_MAP, 0, 4, 4⟩
def F.SCHED_CLASS_MAP.CLASS2 : Fld := ⟨.SCHED_CLASS_MAP, 0, 8, 4⟩
def F.SCHED_CLASS_MAP.CLASS3 : Fld := ⟨.SCHED_CLASS_MAP, 0, 12, 4⟩
def F.SCHED_CLASS_MAP.CLASS4 : Fld := ⟨.SCHED_CLASS_MAP, 0, 16, 4⟩
def F.SCHED_CLASS_MAP.CLASS5 : Fld := ⟨.SCHED_CLASS_MAP, 0, 20, 4⟩
def F.SCHED_CLASS_MAP.CLASS6 : Fld := ⟨.SCHED_CLASS_MAP, 0, 24, 4⟩
def F.SCHED_CLASS_MAP.CLASS7 : Fld := ⟨.SCHED_CLASS_MAP, 0, 28, 4⟩
def F.SCHED_PFC_MAP.CLASSES : Fld := ⟨.SCHED_PFC_MAP, 0, 0, 16⟩
def F.SCHED_QSEL.BASE : Fld := ⟨.SCHED_QSEL, 0, 0, 20⟩
def F.SCHED_QSEL.SPREAD : Fld := ⟨.SCHED_QSEL, 0, 20, 4⟩
def F.SCHED_QSEL.SRC : Fld := ⟨.SCHED_QSEL, 0, 24, 3⟩
def F.SCHED_LINK.PARENT : Fld := ⟨.SCHED_LINK, 0, 0, 16⟩
def F.SCHED_LINK.SLOT : Fld := ⟨.SCHED_LINK, 0, 16, 3⟩
def F.SCHED_LINK.WEIGHT : Fld := ⟨.SCHED_LINK, 0, 19, 10⟩
def F.SCHED_NODE.QUANTUM : Fld := ⟨.SCHED_NODE, 0, 0, 16⟩
def F.SCHED_PORT.OVH : Fld := ⟨.SCHED_PORT, 0, 0, 6⟩
def F.SCHED_PORT.DEF_PRIO : Fld := ⟨.SCHED_PORT, 0, 6, 3⟩
def F.QSHAPE.RATE : Fld := ⟨.QSHAPE, 0, 0, 32⟩
def F.QSHAPE.BURST : Fld := ⟨.QSHAPE, 1, 0, 24⟩
def F.QSHAPE.EN : Fld := ⟨.QSHAPE, 1, 24, 1⟩
def F.QSHAPE_STAT.TOKENS : Fld := ⟨.QSHAPE_STAT, 0, 0, 25⟩
def F.SCHED_SHAPE.RATE : Fld := ⟨.SCHED_SHAPE, 0, 0, 32⟩
def F.SCHED_SHAPE.BURST : Fld := ⟨.SCHED_SHAPE, 1, 0, 24⟩
def F.SCHED_SHAPE.EN : Fld := ⟨.SCHED_SHAPE, 1, 24, 1⟩
def F.SCHED_SHAPE_STAT.TOKENS : Fld := ⟨.SCHED_SHAPE_STAT, 0, 0, 25⟩
def F.GCL_CTL.ENABLE : Fld := ⟨.GCL_CTL, 0, 0, 1⟩
def F.GCL_CTL.TIMEBASE : Fld := ⟨.GCL_CTL, 0, 1, 1⟩
def F.GCL_CTL.LIST : Fld := ⟨.GCL_CTL, 0, 2, 1⟩
def F.GCL_CTL.GUARD : Fld := ⟨.GCL_CTL, 0, 3, 1⟩
def F.GCL_CTL.PRE_OPEN : Fld := ⟨.GCL_CTL, 0, 4, 1⟩
def F.GCL_CTL.LEN_M1 : Fld := ⟨.GCL_CTL, 0, 5, 10⟩
def F.GCL_CTL.BASE_LO : Fld := ⟨.GCL_CTL, 1, 0, 32⟩
def F.GCL_CTL.BASE_SEC_LO : Fld := ⟨.GCL_CTL, 2, 0, 32⟩
def F.GCL_CTL.BASE_SEC_HI : Fld := ⟨.GCL_CTL, 3, 0, 16⟩
def F.GCL_CTL.CYCLE_NS : Fld := ⟨.GCL_CTL, 4, 0, 32⟩
def F.GCL_ENTRY.OPEN : Fld := ⟨.GCL_ENTRY, 0, 0, 1⟩
def F.GCL_ENTRY.INTERVAL : Fld := ⟨.GCL_ENTRY, 1, 0, 32⟩
def F.GCL_STAT.OPEN : Fld := ⟨.GCL_STAT, 0, 0, 1⟩
def F.GCL_STAT.PENDING : Fld := ⟨.GCL_STAT, 0, 1, 1⟩
def F.GCL_STAT.RUNNING_LIST : Fld := ⟨.GCL_STAT, 0, 2, 1⟩
def F.GCL_STAT.ENTRY : Fld := ⟨.GCL_STAT, 0, 3, 10⟩
def F.GCL_STAT.GRID : Fld := ⟨.GCL_STAT, 0, 13, 2⟩
def F.QDEPTH.BLOCKS : Fld := ⟨.QDEPTH, 0, 0, 19⟩
def F.QDEPTH.COPIES : Fld := ⟨.QDEPTH, 0, 19, 13⟩
def F.QTEL_CFG.EXP : Fld := ⟨.QTEL_CFG, 0, 0, 4⟩
def F.QTEL_MAX.DEPTH_MAX : Fld := ⟨.QTEL_MAX, 0, 0, 19⟩
def F.QTEL_MAX.SOJOURN_MAX : Fld := ⟨.QTEL_MAX, 1, 0, 32⟩
def F.QTEL_RING.BASE : Fld := ⟨.QTEL_RING, 0, 0, 29⟩
def F.QTEL_RING.SIZE : Fld := ⟨.QTEL_RING, 1, 0, 24⟩
def F.QTEL_RING.ENABLE : Fld := ⟨.QTEL_RING, 2, 0, 1⟩
def F.QTEL_RING.WRAP : Fld := ⟨.QTEL_RING, 2, 1, 1⟩
def F.QTEL_RING.SAMPLE : Fld := ⟨.QTEL_RING, 2, 8, 4⟩
def F.QTEL_RING.RATE : Fld := ⟨.QTEL_RING, 2, 16, 16⟩
def F.QTEL_RING.WR_IDX : Fld := ⟨.QTEL_RING, 3, 0, 26⟩
def F.QTEL_RING.RD_IDX : Fld := ⟨.QTEL_RING, 4, 0, 26⟩
def F.PRED_PAIR.PORT_A : Fld := ⟨.PRED_PAIR, 0, 0, 6⟩
def F.PRED_PAIR.PORT_B : Fld := ⟨.PRED_PAIR, 0, 6, 6⟩
def F.PRED_PAIR.ROLE : Fld := ⟨.PRED_PAIR, 0, 12, 2⟩
def F.PRED_PAIR.HSR_MODE : Fld := ⟨.PRED_PAIR, 0, 14, 1⟩
def F.PRED_PAIR.CMP_EN : Fld := ⟨.PRED_PAIR, 0, 15, 1⟩
def F.PRED_PAIR.BYP : Fld := ⟨.PRED_PAIR, 0, 16, 2⟩
def F.PRED_PAIR.QUAD_PEER : Fld := ⟨.PRED_PAIR, 0, 18, 4⟩
def F.PRED_PAIR.QUAD_EN : Fld := ⟨.PRED_PAIR, 0, 22, 1⟩
def F.PRED_PAIR.NET_ID : Fld := ⟨.PRED_PAIR, 0, 23, 3⟩
def F.PRED_PAIR.SEQ_BASE : Fld := ⟨.PRED_PAIR, 1, 0, 12⟩
def F.PRED_PAIR.SEQ_SPREAD : Fld := ⟨.PRED_PAIR, 1, 12, 4⟩
def F.PRED_PAIR.DD_TABLE : Fld := ⟨.PRED_PAIR, 1, 16, 8⟩
def F.PRED_PAIR.FORGET_MS : Fld := ⟨.PRED_PAIR, 2, 0, 16⟩
def F.PRED_PAIR.CMP_WAIT_US : Fld := ⟨.PRED_PAIR, 2, 16, 16⟩
def F.PRED_SEQ.VALUE : Fld := ⟨.PRED_SEQ, 0, 0, 16⟩
def F.PRED_RCVY.EN : Fld := ⟨.PRED_RCVY, 0, 0, 1⟩
def F.PRED_RCVY.HLEN_M1 : Fld := ⟨.PRED_RCVY, 0, 1, 7⟩
def F.PRED_RCVY.UNTAGGED_PASS : Fld := ⟨.PRED_RCVY, 0, 8, 1⟩
def F.PRED_RCVY.RESET_MS : Fld := ⟨.PRED_RCVY, 0, 16, 16⟩
def F.PRED_LANE_STAT.SUSPECT_A : Fld := ⟨.PRED_LANE_STAT, 0, 0, 1⟩
def F.PRED_LANE_STAT.SUSPECT_B : Fld := ⟨.PRED_LANE_STAT, 0, 1, 1⟩
def F.PRED_LANE_STAT.DIV_COPY : Fld := ⟨.PRED_LANE_STAT, 0, 2, 1⟩
def F.PRED_BYP_CTL.FORCE_OFF_A : Fld := ⟨.PRED_BYP_CTL, 0, 0, 1⟩
def F.PRED_BYP_CTL.FORCE_OFF_B : Fld := ⟨.PRED_BYP_CTL, 0, 1, 1⟩
def F.PRED_BYP_CTL.DRIVER : Fld := ⟨.PRED_BYP_CTL, 0, 4, 2⟩
def F.TIME_CAL.RX_DLY : Fld := ⟨.TIME_CAL, 0, 0, 24⟩
def F.TIME_CAL.TX_DLY : Fld := ⟨.TIME_CAL, 1, 0, 24⟩
def F.TIME_BOARD_DLY.RX_PS : Fld := ⟨.TIME_BOARD_DLY, 0, 0, 16⟩
def F.TIME_BOARD_DLY.TX_PS : Fld := ⟨.TIME_BOARD_DLY, 0, 16, 16⟩
def F.TIME_CTL.SRC : Fld := ⟨.TIME_CTL, 0, 0, 2⟩
def F.TIME_CTL.SRC_DOM : Fld := ⟨.TIME_CTL, 0, 2, 2⟩
def F.TIME_CTL.REF25 : Fld := ⟨.TIME_CTL, 0, 4, 1⟩
def F.TIME_CTL.HOLD_S : Fld := ⟨.TIME_CTL, 0, 5, 16⟩
def F.TIME_RATE.ADJ : Fld := ⟨.TIME_RATE, 0, 0, 32⟩
def F.TIME_STEP.NS : Fld := ⟨.TIME_STEP, 0, 0, 32⟩
def F.TIME_STEP.SEC : Fld := ⟨.TIME_STEP, 1, 0, 32⟩
def F.TIME_STATUS.STATE : Fld := ⟨.TIME_STATUS, 0, 0, 2⟩
def F.TIME_STATUS.TRACEABLE : Fld := ⟨.TIME_STATUS, 0, 2, 1⟩
def F.TIME_STATUS.REF25_LOST : Fld := ⟨.TIME_STATUS, 0, 3, 1⟩
def F.TIME_STATUS.PPS_MISS : Fld := ⟨.TIME_STATUS, 0, 4, 1⟩
def F.TIME_STATUS.STEP_COUNT : Fld := ⟨.TIME_STATUS, 0, 16, 16⟩
def F.TIME_DOM.DOMAIN_NUM : Fld := ⟨.TIME_DOM, 0, 0, 8⟩
def F.TIME_DOM.EN : Fld := ⟨.TIME_DOM, 0, 8, 1⟩
def F.TIME_DOM.P2P : Fld := ⟨.TIME_DOM, 0, 9, 1⟩
def F.TIME_DOM.ONE_STEP : Fld := ⟨.TIME_DOM, 0, 10, 1⟩
def F.TIME_DOM.RATIO_EN : Fld := ⟨.TIME_DOM, 0, 11, 1⟩
def F.TIME_DOM.RATIO : Fld := ⟨.TIME_DOM, 1, 0, 32⟩
def F.TIME_PORT.LINK_DELAY : Fld := ⟨.TIME_PORT, 0, 0, 32⟩
def F.TIME_PORT.DOM_EN : Fld := ⟨.TIME_PORT, 1, 0, 4⟩
def F.TIME_PORT.ROLE : Fld := ⟨.TIME_PORT, 1, 4, 1⟩
def F.TIME_PPS_CFG.IN_EN : Fld := ⟨.TIME_PPS_CFG, 0, 0, 1⟩
def F.TIME_PPS_CFG.IN_FALL : Fld := ⟨.TIME_PPS_CFG, 0, 1, 1⟩
def F.TIME_PPS_CFG.OUT_EN : Fld := ⟨.TIME_PPS_CFG, 0, 2, 1⟩
def F.TIME_PPS_CFG.OUT_WIDTH : Fld := ⟨.TIME_PPS_CFG, 0, 3, 29⟩
def F.TIME_PPS_OFS.OFS : Fld := ⟨.TIME_PPS_OFS, 0, 0, 32⟩
def F.TIME_IRIG_CFG.IN_EN : Fld := ⟨.TIME_IRIG_CFG, 0, 0, 1⟩
def F.TIME_IRIG_CFG.OUT_EN : Fld := ⟨.TIME_IRIG_CFG, 0, 1, 1⟩
def F.TIME_IRIG_CFG.CODE : Fld := ⟨.TIME_IRIG_CFG, 0, 2, 2⟩
def F.TIME_IRIG_CFG.EXT1344 : Fld := ⟨.TIME_IRIG_CFG, 0, 4, 1⟩
def F.TIME_IRIG_CFG.LOCAL : Fld := ⟨.TIME_IRIG_CFG, 0, 5, 1⟩
def F.GPIO_IN_CFG.TS_EN : Fld := ⟨.GPIO_IN_CFG, 0, 0, 1⟩
def F.GPIO_IN_CFG.EDGE : Fld := ⟨.GPIO_IN_CFG, 0, 1, 2⟩
def F.GPIO_IN_CFG.DEBOUNCE : Fld := ⟨.GPIO_IN_CFG, 0, 3, 16⟩
def F.TIME_GRID_CFG.EN : Fld := ⟨.TIME_GRID_CFG, 0, 0, 1⟩
def F.TIME_GRID_CFG.STREAM : Fld := ⟨.TIME_GRID_CFG, 0, 1, 12⟩
def F.TIME_GRID_CFG.CH_A : Fld := ⟨.TIME_GRID_CFG, 0, 13, 3⟩
def F.TIME_GRID_CFG.CH_B : Fld := ⟨.TIME_GRID_CFG, 0, 16, 3⟩
def F.TIME_GRID_CFG.CH_C : Fld := ⟨.TIME_GRID_CFG, 0, 19, 3⟩
def F.TIME_GRID_CFG.NOM_60 : Fld := ⟨.TIME_GRID_CFG, 0, 22, 1⟩
def F.TIME_GRID_CFG.MIN_MAG : Fld := ⟨.TIME_GRID_CFG, 0, 23, 7⟩
def F.TIME_GRID_CFG.OFFSET : Fld := ⟨.TIME_GRID_CFG, 1, 0, 32⟩
def F.PHX_STREAM.KEY_LO : Fld := ⟨.PHX_STREAM, 0, 0, 32⟩
def F.PHX_STREAM.KEY_HI : Fld := ⟨.PHX_STREAM, 1, 0, 32⟩
def F.PHX_STREAM.EN : Fld := ⟨.PHX_STREAM, 2, 0, 1⟩
def F.PHX_STREAM.NOM_60 : Fld := ⟨.PHX_STREAM, 2, 1, 1⟩
def F.PHX_STREAM.SYNC_REQ : Fld := ⟨.PHX_STREAM, 2, 2, 2⟩
def F.PHX_STREAM.USE_QUEST : Fld := ⟨.PHX_STREAM, 2, 4, 1⟩
def F.PHX_STREAM.TEST_ACCEPT : Fld := ⟨.PHX_STREAM, 2, 5, 1⟩
def F.PHX_STREAM.PS_V_EN : Fld := ⟨.PHX_STREAM, 2, 6, 1⟩
def F.PHX_STREAM.PS_I_EN : Fld := ⟨.PHX_STREAM, 2, 7, 1⟩
def F.PHX_STREAM.VA : Fld := ⟨.PHX_STREAM, 2, 8, 3⟩
def F.PHX_STREAM.VB : Fld := ⟨.PHX_STREAM, 2, 11, 3⟩
def F.PHX_STREAM.VC : Fld := ⟨.PHX_STREAM, 2, 14, 3⟩
def F.PHX_STREAM.IA : Fld := ⟨.PHX_STREAM, 2, 17, 3⟩
def F.PHX_STREAM.IB : Fld := ⟨.PHX_STREAM, 2, 20, 3⟩
def F.PHX_STREAM.IC : Fld := ⟨.PHX_STREAM, 2, 23, 3⟩
def F.PHX_STREAM.SMP_RATE : Fld := ⟨.PHX_STREAM, 3, 0, 17⟩
def F.PHX_STREAM.REC_GROUP : Fld := ⟨.PHX_STREAM, 3, 17, 6⟩
def F.PHX_STREAM.REC_EN : Fld := ⟨.PHX_STREAM, 3, 23, 1⟩
def F.PHX_STREAM.MAX_INTERP : Fld := ⟨.PHX_STREAM, 3, 24, 3⟩
def F.PHX_STREAM.REORDER : Fld := ⟨.PHX_STREAM, 3, 27, 5⟩
def F.PHX_STREAM.LOSS_US : Fld := ⟨.PHX_STREAM, 4, 0, 16⟩
def F.PHX_STREAM.TRANSIT_MAX_US : Fld := ⟨.PHX_STREAM, 4, 16, 16⟩
def F.PHX_STREAM.CH_TYPE0 : Fld := ⟨.PHX_STREAM, 5, 0, 2⟩
def F.PHX_STREAM.CH_TYPE1 : Fld := ⟨.PHX_STREAM, 5, 4, 2⟩
def F.PHX_STREAM.CH_TYPE2 : Fld := ⟨.PHX_STREAM, 5, 8, 2⟩
def F.PHX_STREAM.CH_TYPE3 : Fld := ⟨.PHX_STREAM, 5, 12, 2⟩
def F.PHX_STREAM.CH_TYPE4 : Fld := ⟨.PHX_STREAM, 5, 16, 2⟩
def F.PHX_STREAM.CH_TYPE5 : Fld := ⟨.PHX_STREAM, 5, 20, 2⟩
def F.PHX_STREAM.CH_TYPE6 : Fld := ⟨.PHX_STREAM, 5, 24, 2⟩
def F.PHX_STREAM.CH_TYPE7 : Fld := ⟨.PHX_STREAM, 5, 28, 2⟩
def F.PHX_STREAM.NOM_V : Fld := ⟨.PHX_STREAM, 6, 0, 16⟩
def F.PHX_STREAM.NOM_I : Fld := ⟨.PHX_STREAM, 6, 16, 16⟩
def F.PHX_STREAM_STAT.STATE : Fld := ⟨.PHX_STREAM_STAT, 0, 0, 2⟩
def F.PHX_STREAM_STAT.UNSYNC : Fld := ⟨.PHX_STREAM_STAT, 0, 2, 1⟩
def F.PHX_STREAM_STAT.TIME_ERR : Fld := ⟨.PHX_STREAM_STAT, 0, 3, 1⟩
def F.PHX_STREAM_STAT.QUALITY : Fld := ⟨.PHX_STREAM_STAT, 0, 4, 1⟩
def F.PHX_STREAM_STAT.INTERP : Fld := ⟨.PHX_STREAM_STAT, 0, 5, 1⟩
def F.PHX_STREAM_STAT.TEST : Fld := ⟨.PHX_STREAM_STAT, 0, 6, 1⟩
def F.PHX_STREAM_STAT.TRANSIT : Fld := ⟨.PHX_STREAM_STAT, 0, 16, 16⟩
def F.PHX_HARM.STREAM : Fld := ⟨.PHX_HARM, 0, 0, 12⟩
def F.PHX_HARM.CH : Fld := ⟨.PHX_HARM, 0, 12, 3⟩
def F.PHX_HARM.EN : Fld := ⟨.PHX_HARM, 0, 15, 1⟩
def F.PHX_PMU.EN : Fld := ⟨.PHX_PMU, 0, 0, 1⟩
def F.PHX_PMU.CLASS : Fld := ⟨.PHX_PMU, 0, 1, 1⟩
def F.PHX_PMU.POLAR : Fld := ⟨.PHX_PMU, 0, 2, 1⟩
def F.PHX_PMU.TB : Fld := ⟨.PHX_PMU, 0, 3, 1⟩
def F.PHX_PMU.PROTO : Fld := ⟨.PHX_PMU, 0, 4, 1⟩
def F.PHX_PMU.RATE : Fld := ⟨.PHX_PMU, 0, 8, 8⟩
def F.PHX_PMU.IDCODE : Fld := ⟨.PHX_PMU, 0, 16, 16⟩
def F.PHX_PMU.PH_COUNT : Fld := ⟨.PHX_PMU, 1, 0, 6⟩
def F.PHX_PMU.FREQ_STREAM : Fld := ⟨.PHX_PMU, 1, 6, 12⟩
def F.PHX_PMU.ENCAP : Fld := ⟨.PHX_PMU, 2, 0, 12⟩
def F.PHX_PMU.QUEUE : Fld := ⟨.PHX_PMU, 2, 12, 20⟩
def F.PHX_PMU.DEST : Fld := ⟨.PHX_PMU, 3, 0, 15⟩
def F.PHX_PMU.GROUP : Fld := ⟨.PHX_PMU, 3, 15, 1⟩
def F.PHX_PMU.GRID_ANGLE : Fld := ⟨.PHX_PMU, 4, 0, 32⟩
def F.PHX_PMU_LIST.STREAM : Fld := ⟨.PHX_PMU_LIST, 0, 0, 12⟩
def F.PHX_PMU_LIST.CODE : Fld := ⟨.PHX_PMU_LIST, 0, 12, 8⟩
def F.PHX_REC.BASE : Fld := ⟨.PHX_REC, 0, 0, 29⟩
def F.PHX_REC.SIZE : Fld := ⟨.PHX_REC, 1, 0, 24⟩
def F.PHX_REC.ENABLE : Fld := ⟨.PHX_REC, 2, 0, 1⟩
def F.PHX_REC.TB : Fld := ⟨.PHX_REC, 2, 1, 1⟩
def F.PHX_REC.RETRIG : Fld := ⟨.PHX_REC, 2, 2, 1⟩
def F.PHX_REC.PRE : Fld := ⟨.PHX_REC, 3, 0, 16⟩
def F.PHX_REC.POST : Fld := ⟨.PHX_REC, 3, 16, 16⟩
def F.PHX_REC.MAX_LEN : Fld := ⟨.PHX_REC, 4, 0, 16⟩
def F.PHX_REC.WR_IDX : Fld := ⟨.PHX_REC, 5, 0, 26⟩
def F.PHX_REC.OPEN : Fld := ⟨.PHX_REC, 6, 0, 5⟩
def F.EVT_SUB.EN : Fld := ⟨.EVT_SUB, 0, 0, 1⟩
def F.EVT_SUB.SIM_ACCEPT : Fld := ⟨.EVT_SUB, 0, 1, 1⟩
def F.EVT_SUB.FAILED_ACCEPT : Fld := ⟨.EVT_SUB, 0, 2, 1⟩
def F.EVT_SUB.HOLD_MS : Fld := ⟨.EVT_SUB, 0, 16, 16⟩
def F.EVT_COND.TYPE : Fld := ⟨.EVT_COND, 0, 0, 4⟩
def F.EVT_COND.OP : Fld := ⟨.EVT_COND, 0, 4, 3⟩
def F.EVT_COND.INVERT : Fld := ⟨.EVT_COND, 0, 7, 1⟩
def F.EVT_COND.LATCH : Fld := ⟨.EVT_COND, 0, 8, 1⟩
def F.EVT_COND.ABS : Fld := ⟨.EVT_COND, 0, 9, 1⟩
def F.EVT_COND.COUNT_M1 : Fld := ⟨.EVT_COND, 0, 10, 4⟩
def F.EVT_COND.SRC : Fld := ⟨.EVT_COND, 1, 0, 32⟩
def F.EVT_COND.THRESH : Fld := ⟨.EVT_COND, 2, 0, 32⟩
def F.EVT_COND.HYST_MASK : Fld := ⟨.EVT_COND, 3, 0, 32⟩
def F.EVT_COND.PU_US : Fld := ⟨.EVT_COND, 4, 0, 16⟩
def F.EVT_COND.DO_US : Fld := ⟨.EVT_COND, 4, 16, 16⟩
def F.EVT_COND_STAT.STATE : Fld := ⟨.EVT_COND_STAT, 0, 0, 1⟩
def F.EVT_COND_STAT.RAW : Fld := ⟨.EVT_COND_STAT, 0, 1, 1⟩
def F.EVT_COND_STAT.INVALID : Fld := ⟨.EVT_COND_STAT, 0, 2, 1⟩
def F.EVT_COND_STAT.LATCHED : Fld := ⟨.EVT_COND_STAT, 0, 3, 1⟩
def F.EVT_COND_STAT.NO_DATA : Fld := ⟨.EVT_COND_STAT, 0, 4, 1⟩
def F.EVT_ACT.COND : Fld := ⟨.EVT_ACT, 0, 0, 11⟩
def F.EVT_ACT.EDGE : Fld := ⟨.EVT_ACT, 0, 11, 2⟩
def F.EVT_ACT.KIND : Fld := ⟨.EVT_ACT, 0, 13, 3⟩
def F.EVT_ACT.LOG : Fld := ⟨.EVT_ACT, 0, 16, 1⟩
def F.EVT_ACT.ALIGN : Fld := ⟨.EVT_ACT, 0, 17, 1⟩
def F.EVT_ACT.ARG : Fld := ⟨.EVT_ACT, 1, 0, 32⟩
def F.EVT_ACT.ARG2 : Fld := ⟨.EVT_ACT, 2, 0, 32⟩
def F.EVT_ACT.MIN_GAP_US : Fld := ⟨.EVT_ACT, 3, 0, 24⟩
def F.EVT_GPUB.EN : Fld := ⟨.EVT_GPUB, 0, 0, 1⟩
def F.EVT_GPUB.LEN : Fld := ⟨.EVT_GPUB, 0, 1, 10⟩
def F.EVT_GPUB.TB : Fld := ⟨.EVT_GPUB, 0, 11, 1⟩
def F.EVT_GPUB.QUEUE : Fld := ⟨.EVT_GPUB, 0, 12, 20⟩
def F.EVT_GPUB.DEST : Fld := ⟨.EVT_GPUB, 1, 0, 15⟩
def F.EVT_GPUB.GROUP : Fld := ⟨.EVT_GPUB, 1, 15, 1⟩
def F.EVT_GPUB.REWRITE : Fld := ⟨.EVT_GPUB, 1, 16, 16⟩
def F.EVT_GPUB.REWRITE_VALID : Fld := ⟨.EVT_GPUB, 2, 0, 1⟩
def F.EVT_GPUB.CLASS : Fld := ⟨.EVT_GPUB, 2, 1, 4⟩
def F.EVT_GPUB.HSP : Fld := ⟨.EVT_GPUB, 2, 5, 3⟩
def F.EVT_GPUB.HSTACK0 : Fld := ⟨.EVT_GPUB, 3, 0, 32⟩
def F.EVT_GPUB.HSTACK1 : Fld := ⟨.EVT_GPUB, 4, 0, 32⟩
def F.EVT_GPUB.HSTACK2 : Fld := ⟨.EVT_GPUB, 5, 0, 32⟩
def F.EVT_GPUB.HSTACK3 : Fld := ⟨.EVT_GPUB, 6, 0, 32⟩
def F.EVT_GPUB.STNUM_OFF : Fld := ⟨.EVT_GPUB, 7, 0, 9⟩
def F.EVT_GPUB.SQNUM_OFF : Fld := ⟨.EVT_GPUB, 7, 16, 9⟩
def F.EVT_GPUB.TAL_OFF : Fld := ⟨.EVT_GPUB, 8, 0, 9⟩
def F.EVT_GPUB.T_OFF : Fld := ⟨.EVT_GPUB, 8, 16, 9⟩
def F.EVT_GPUB.T1 : Fld := ⟨.EVT_GPUB, 9, 0, 20⟩
def F.EVT_GPUB.T0 : Fld := ⟨.EVT_GPUB, 10, 0, 24⟩
def F.EVT_FSW_STAT.ON : Fld := ⟨.EVT_FSW_STAT, 0, 0, 1⟩
def F.GPIO_OUT_CFG.OUT_EN : Fld := ⟨.GPIO_OUT_CFG, 0, 0, 1⟩
def F.GPIO_OUT_CFG.SAFE : Fld := ⟨.GPIO_OUT_CFG, 0, 1, 1⟩
def F.GPIO_OUT_CFG.INIT : Fld := ⟨.GPIO_OUT_CFG, 0, 2, 1⟩
def F.GPIO_OUT_CFG.OPEN_DRAIN : Fld := ⟨.GPIO_OUT_CFG, 0, 3, 1⟩
def F.FAB_CTL.EN : Fld := ⟨.FAB_CTL, 0, 0, 1⟩
def F.FAB_CTL.CREDIT_SZ : Fld := ⟨.FAB_CTL, 0, 1, 3⟩
def F.FAB_CTL.QUORUM : Fld := ⟨.FAB_CTL, 0, 4, 9⟩
def F.FAB_CTL.TC_CLASSES : Fld := ⟨.FAB_CTL, 0, 13, 16⟩
def F.FAB_STATE.MEMBER_ID : Fld := ⟨.FAB_STATE, 0, 0, 9⟩
def F.FAB_STATE.LEADER : Fld := ⟨.FAB_STATE, 0, 9, 9⟩
def F.FAB_STATE.STATE : Fld := ⟨.FAB_STATE, 0, 18, 3⟩
def F.FAB_STATE.TIME_SUSPECT : Fld := ⟨.FAB_STATE, 0, 21, 1⟩
def F.FAB_STATE.TIME_FENCED : Fld := ⟨.FAB_STATE, 0, 22, 1⟩
def F.FAB_STATE.TIME_REF : Fld := ⟨.FAB_STATE, 0, 23, 9⟩
def F.FAB_ROUTE.LINKS : Fld := ⟨.FAB_ROUTE, 0, 0, 8⟩
def F.FAB_ROUTE.HOPS : Fld := ⟨.FAB_ROUTE, 0, 8, 4⟩
def F.FAB_ROUTE.REACHABLE : Fld := ⟨.FAB_ROUTE, 0, 12, 1⟩
def F.FAB_LINK_CFG.EN : Fld := ⟨.FAB_LINK_CFG, 0, 0, 1⟩
def F.FAB_LINK_CFG.ASYM_PS : Fld := ⟨.FAB_LINK_CFG, 0, 1, 16⟩
def F.FAB_LINK_CFG.NAK_THRESH : Fld := ⟨.FAB_LINK_CFG, 0, 17, 15⟩
def F.FAB_LINK_STAT.STATE : Fld := ⟨.FAB_LINK_STAT, 0, 0, 3⟩
def F.FAB_LINK_STAT.PEER : Fld := ⟨.FAB_LINK_STAT, 0, 3, 9⟩
def F.FAB_LINK_STAT.PEER_LINK : Fld := ⟨.FAB_LINK_STAT, 0, 12, 3⟩
def F.FAB_LINK_STAT.REASON : Fld := ⟨.FAB_LINK_STAT, 0, 15, 5⟩
def F.FAB_LINK_STAT.RTT_US : Fld := ⟨.FAB_LINK_STAT, 0, 20, 12⟩
def F.FAB_VOQ_LIM.GREEN_LIM : Fld := ⟨.FAB_VOQ_LIM, 0, 0, 19⟩
def F.FAB_VOQ_LIM.YELLOW_LIM : Fld := ⟨.FAB_VOQ_LIM, 1, 0, 19⟩
def F.FAB_VOQ_LIM.RED_LIM : Fld := ⟨.FAB_VOQ_LIM, 2, 0, 19⟩
def F.FAB_CG.THRESH : Fld := ⟨.FAB_CG, 0, 0, 19⟩
def F.FAB_OWN_WIN.WIN_US : Fld := ⟨.FAB_OWN_WIN, 0, 0, 16⟩
def F.SEC_STATE.LIFECYCLE : Fld := ⟨.SEC_STATE, 0, 0, 2⟩
def F.SEC_STATE.DEBUG : Fld := ⟨.SEC_STATE, 0, 2, 2⟩
def F.SEC_STATE.SVN_FLOOR : Fld := ⟨.SEC_STATE, 0, 4, 6⟩
def F.SEC_STATE.REVOKED : Fld := ⟨.SEC_STATE, 0, 10, 4⟩
def F.SEC_STATE.RNG_FAIL : Fld := ⟨.SEC_STATE, 0, 14, 1⟩
def F.SEC_STATE.OWNER_EPOCH : Fld := ⟨.SEC_STATE, 0, 16, 16⟩
def F.SEC_BOOT.TRY_B : Fld := ⟨.SEC_BOOT, 0, 0, 1⟩
def F.SEC_BOOT.BOOTED : Fld := ⟨.SEC_BOOT, 0, 1, 1⟩
def F.SEC_BOOT.A_RESULT : Fld := ⟨.SEC_BOOT, 0, 2, 3⟩
def F.SEC_BOOT.B_RESULT : Fld := ⟨.SEC_BOOT, 0, 5, 3⟩
def F.HOST_ID.DEVICE : Fld := ⟨.HOST_ID, 0, 0, 16⟩
def F.HOST_ID.REVISION : Fld := ⟨.HOST_ID, 0, 16, 8⟩
def F.HOST_ID.MEMBER : Fld := ⟨.HOST_ID, 0, 24, 8⟩
def F.HOST_READY.MGMT : Fld := ⟨.HOST_READY, 0, 0, 1⟩
def F.HOST_READY.SEC : Fld := ⟨.HOST_READY, 0, 1, 1⟩
def F.HOST_READY.DRAM : Fld := ⟨.HOST_READY, 0, 2, 1⟩
def F.HOST_READY.TIME : Fld := ⟨.HOST_READY, 0, 3, 1⟩
def F.HOST_READY.PL : Fld := ⟨.HOST_READY, 0, 4, 4⟩
def F.HOST_READY.HSR : Fld := ⟨.HOST_READY, 0, 8, 1⟩
def F.HOST_READY.PHX : Fld := ⟨.HOST_READY, 0, 9, 1⟩
def F.HOST_READY.EVT : Fld := ⟨.HOST_READY, 0, 10, 1⟩
def F.HOST_READY.REC : Fld := ⟨.HOST_READY, 0, 11, 1⟩
def F.HOST_READY.FAB : Fld := ⟨.HOST_READY, 0, 12, 1⟩
def F.HOST_READY.HDMA : Fld := ⟨.HOST_READY, 0, 13, 1⟩
def F.HOST_READY.STAGE : Fld := ⟨.HOST_READY, 0, 16, 2⟩
def F.HOST_READY.FAIL : Fld := ⟨.HOST_READY, 0, 24, 8⟩
def F.MBX_RING.REQ_BASE_LO : Fld := ⟨.MBX_RING, 0, 0, 32⟩
def F.MBX_RING.REQ_BASE_HI : Fld := ⟨.MBX_RING, 1, 0, 32⟩
def F.MBX_RING.CPL_BASE_LO : Fld := ⟨.MBX_RING, 2, 0, 32⟩
def F.MBX_RING.CPL_BASE_HI : Fld := ⟨.MBX_RING, 3, 0, 32⟩
def F.MBX_RING.REQ_LOG2 : Fld := ⟨.MBX_RING, 4, 0, 4⟩
def F.MBX_RING.CPL_LOG2 : Fld := ⟨.MBX_RING, 4, 4, 4⟩
def F.MBX_RING.EN : Fld := ⟨.MBX_RING, 4, 8, 1⟩
def F.MBX_RING.REQ_CI : Fld := ⟨.MBX_RING, 5, 0, 16⟩
def F.MBX_RING.CPL_PI : Fld := ⟨.MBX_RING, 5, 16, 16⟩
def F.MBX_RING.ERROR : Fld := ⟨.MBX_RING, 6, 0, 1⟩
def F.MBX_RING.CAUSE : Fld := ⟨.MBX_RING, 6, 1, 3⟩
def F.HDMA_TX.BASE_LO : Fld := ⟨.HDMA_TX, 0, 0, 32⟩
def F.HDMA_TX.BASE_HI : Fld := ⟨.HDMA_TX, 1, 0, 32⟩
def F.HDMA_TX.LOG2 : Fld := ⟨.HDMA_TX, 2, 0, 4⟩
def F.HDMA_TX.EN : Fld := ⟨.HDMA_TX, 2, 4, 1⟩
def F.HDMA_TX.PIPELINE : Fld := ⟨.HDMA_TX, 2, 5, 3⟩
def F.HDMA_TX.BUF_SIZE : Fld := ⟨.HDMA_TX, 2, 8, 15⟩
def F.HDMA_TX.CI : Fld := ⟨.HDMA_TX, 3, 0, 16⟩
def F.HDMA_RX.BASE_LO : Fld := ⟨.HDMA_RX, 0, 0, 32⟩
def F.HDMA_RX.BASE_HI : Fld := ⟨.HDMA_RX, 1, 0, 32⟩
def F.HDMA_RX.LOG2 : Fld := ⟨.HDMA_RX, 2, 0, 4⟩
def F.HDMA_RX.EN : Fld := ⟨.HDMA_RX, 2, 4, 1⟩
def F.HDMA_RX.PIPELINE : Fld := ⟨.HDMA_RX, 2, 5, 3⟩
def F.HDMA_RX.BUF_SIZE : Fld := ⟨.HDMA_RX, 2, 8, 15⟩
def F.HDMA_RX.CI : Fld := ⟨.HDMA_RX, 3, 0, 16⟩
def F.PWR_STAT.STATE : Fld := ⟨.PWR_STAT, 0, 0, 3⟩
def F.PWR_STAT.ARMED : Fld := ⟨.PWR_STAT, 0, 3, 1⟩
def F.PWR_STAT.STORE_FAULT : Fld := ⟨.PWR_STAT, 0, 4, 1⟩
def F.PWR_STAT.START_CFG_BAD : Fld := ⟨.PWR_STAT, 0, 5, 1⟩
def F.PWR_STAT.VIN_LOW : Fld := ⟨.PWR_STAT, 0, 6, 1⟩
def F.PWR_STAT.SHED : Fld := ⟨.PWR_STAT, 0, 8, 3⟩
def F.PWR_STAT.CARRY_MS : Fld := ⟨.PWR_STAT, 0, 16, 16⟩
def F.PWR_BUDGET.BUDGET_US : Fld := ⟨.PWR_BUDGET, 0, 0, 28⟩
def F.PWR_SHED.FUNC : Fld := ⟨.PWR_SHED, 0, 0, 3⟩
def F.PWR_SHED.V_SHED : Fld := ⟨.PWR_SHED, 0, 3, 12⟩
def F.PWR_HOLD_CFG.PROT_CLASSES : Fld := ⟨.PWR_HOLD_CFG, 0, 0, 16⟩
def F.PWR_HOLD_CFG.IDLE_MS : Fld := ⟨.PWR_HOLD_CFG, 0, 16, 10⟩
def F.PWR_RESET_REQ.KIND : Fld := ⟨.PWR_RESET_REQ, 0, 0, 2⟩
def F.PWR_RESET_REQ.TRY_B : Fld := ⟨.PWR_RESET_REQ, 0, 2, 1⟩
def F.PWR_LAST_RESET.CAUSE : Fld := ⟨.PWR_LAST_RESET, 0, 0, 4⟩
def F.FLT_CTL.MODE : Fld := ⟨.FLT_CTL, 0, 0, 1⟩
def F.FLT_FIRST.LINE : Fld := ⟨.FLT_FIRST, 0, 0, 6⟩
def F.FLT_FIRST.VALID : Fld := ⟨.FLT_FIRST, 0, 6, 1⟩
def F.FLT_FIRST.FRC_LO : Fld := ⟨.FLT_FIRST, 1, 0, 32⟩
def F.FLT_FIRST.FRC_HI : Fld := ⟨.FLT_FIRST, 2, 0, 32⟩
def F.FLT_LINE_CFG.REACTION : Fld := ⟨.FLT_LINE_CFG, 0, 0, 1⟩
def F.FLT_LINE_CFG.WATCH_MS : Fld := ⟨.FLT_LINE_CFG, 0, 1, 14⟩
def F.FLT_ESC.LINE : Fld := ⟨.FLT_ESC, 0, 0, 6⟩
def F.FLT_ESC.STAGE : Fld := ⟨.FLT_ESC, 0, 6, 2⟩
def F.FLT_ESC.WDOG_RESETS : Fld := ⟨.FLT_ESC, 0, 8, 2⟩
def F.FLT_SAFE_CAUSE.CAUSE : Fld := ⟨.FLT_SAFE_CAUSE, 0, 0, 8⟩
def F.FLT_SAFE_CAUSE.LINE : Fld := ⟨.FLT_SAFE_CAUSE, 0, 8, 6⟩
def F.FLT_WDOG.PERIOD_MS : Fld := ⟨.FLT_WDOG, 0, 0, 16⟩
def F.FLT_WDOG.KICK : Fld := ⟨.FLT_WDOG, 0, 16, 16⟩
def F.IRQ_SRC.PRIO : Fld := ⟨.IRQ_SRC, 0, 0, 4⟩
def F.IRQ_SRC.SENSE : Fld := ⟨.IRQ_SRC, 0, 4, 3⟩
def F.IRQ_SRC.ENABLE : Fld := ⟨.IRQ_SRC, 0, 7, 1⟩
def F.IRQ_SRC.TARGET : Fld := ⟨.IRQ_SRC, 0, 8, 3⟩
def F.IRQ_SRC.WAKE : Fld := ⟨.IRQ_SRC, 0, 11, 1⟩
def F.IRQ_SRC.COAL_EN : Fld := ⟨.IRQ_SRC, 0, 12, 1⟩
def F.IRQ_SRC.GROUP : Fld := ⟨.IRQ_SRC, 0, 13, 6⟩
def F.IRQ_SRC.VECTOR : Fld := ⟨.IRQ_SRC, 0, 19, 6⟩
def F.IRQ_TGT.THRESHOLD : Fld := ⟨.IRQ_TGT, 0, 0, 4⟩
def F.IRQ_TGT.FALLBACK : Fld := ⟨.IRQ_TGT, 0, 4, 3⟩
def F.IRQ_TGT.STALE_MS : Fld := ⟨.IRQ_TGT, 0, 8, 16⟩
def F.IRQ_TGT.SOURCE : Fld := ⟨.IRQ_TGT, 1, 0, 10⟩
def F.IRQ_TGT.VALID : Fld := ⟨.IRQ_TGT, 1, 31, 1⟩
def F.IRQ_TGT.COMPLETE : Fld := ⟨.IRQ_TGT, 2, 0, 10⟩
def F.IRQ_TGT.ASLEEP : Fld := ⟨.IRQ_TGT, 3, 0, 1⟩
def F.IRQ_TGT.RUNNING : Fld := ⟨.IRQ_TGT, 3, 4, 4⟩
def F.IRQ_TGT.DEPTH : Fld := ⟨.IRQ_TGT, 3, 8, 4⟩
def F.IRQ_GROUP.COUNT : Fld := ⟨.IRQ_GROUP, 0, 0, 8⟩
def F.IRQ_GROUP.TIME_US : Fld := ⟨.IRQ_GROUP, 0, 8, 16⟩
def F.IRQ_PEND.VALUE : Fld := ⟨.IRQ_PEND, 0, 0, 32⟩
def F.IRQ_ACT.VALUE : Fld := ⟨.IRQ_ACT, 0, 0, 32⟩
def F.DRAM_SC_CFG.AGE : Fld := ⟨.DRAM_SC_CFG, 0, 0, 16⟩
def F.DRAM_STAT.TRAINED : Fld := ⟨.DRAM_STAT, 0, 0, 1⟩
def F.DRAM_STAT.SELF_REFRESH : Fld := ⟨.DRAM_STAT, 0, 1, 1⟩
def F.DRAM_STAT.CAL_BUSY : Fld := ⟨.DRAM_STAT, 0, 2, 1⟩
def F.PERF_CFG.EVENT : Fld := ⟨.PERF_CFG, 0, 0, 8⟩
def F.PERF_CFG.MODE : Fld := ⟨.PERF_CFG, 0, 8, 2⟩
def F.PERF_CFG.CHAIN : Fld := ⟨.PERF_CFG, 0, 10, 1⟩
def F.PERF_CFG.PL_MASK : Fld := ⟨.PERF_CFG, 0, 11, 4⟩
def F.PERF_CFG.PORT : Fld := ⟨.PERF_CFG, 0, 15, 6⟩
def F.PERF_CFG.PORT_EN : Fld := ⟨.PERF_CFG, 0, 21, 1⟩
def F.PERF_CFG.CLASS : Fld := ⟨.PERF_CFG, 0, 22, 4⟩
def F.PERF_CFG.CLASS_EN : Fld := ⟨.PERF_CFG, 0, 26, 1⟩
def F.PERF_CTR.VALUE : Fld := ⟨.PERF_CTR, 0, 0, 32⟩
def F.PERF_CTR.VALUE_HI : Fld := ⟨.PERF_CTR, 1, 0, 16⟩
def F.PERF_PRESET.VALUE : Fld := ⟨.PERF_PRESET, 0, 0, 32⟩
def F.PERF_PRESET.PRESET_HI : Fld := ⟨.PERF_PRESET, 1, 0, 16⟩
def F.PERF_RING.BASE : Fld := ⟨.PERF_RING, 0, 0, 29⟩
def F.PERF_RING.SIZE : Fld := ⟨.PERF_RING, 1, 0, 24⟩
def F.PERF_RING.ENABLE : Fld := ⟨.PERF_RING, 2, 0, 1⟩
def F.PERF_RING.WRAP : Fld := ⟨.PERF_RING, 2, 1, 1⟩
def F.PERF_RING.SAMPLE : Fld := ⟨.PERF_RING, 2, 8, 4⟩
def F.PERF_RING.RATE : Fld := ⟨.PERF_RING, 2, 16, 16⟩
def F.PERF_RING.WR_IDX : Fld := ⟨.PERF_RING, 3, 0, 26⟩
def F.PERF_RING.RD_IDX : Fld := ⟨.PERF_RING, 4, 0, 26⟩

/-- The counters, by the name the spec gives them; each has one instance for each index its rule gives. -/
inductive Ctr where
  | RX_FRAMES  -- [40] R66
  | RX_OCTETS  -- [40] R66
  | TX_FRAMES  -- [40] R66
  | TX_OCTETS  -- [40] R66
  | RX_FCS_ERR  -- [40] R66
  | RX_RUNT  -- [40] R66
  | RX_OVERSIZE  -- [40] R66
  | RX_ABORT  -- [40] R66
  | TX_ABORT  -- [40] R66
  | TX_MODE_STOMP  -- [40] R66
  | TX_STOMP  -- [40] R66
  | RX_SYMBOL_ERR  -- [40] R66
  | FEC_CORRECTED  -- [40] R66
  | FEC_UNCORRECTED  -- [40] R66
  | RX_PFC  -- [40][8] R66
  | TX_PFC  -- [40][8] R66
  | RX_PFC_IGNORED  -- [40] R66
  | RX_PAUSE_IGNORED  -- [40] R66
  | LPI_TX_EVENTS  -- [40] R66
  | LPI_TX_TIME_US  -- [40] R66
  | RX_NOT_READY  -- [40] R66
  | MODE_FLUSH  -- [40] R66
  | EGRESS_ABSENT  -- [64] R66
  | PARSE_FRAMES  -- [4] R113
  | PARSE_SLOTS  -- [4] R113
  | PARSE_OVER_BUDGET  -- [4] R113
  | PARSE_STALL_CYCLES  -- [4] R113
  | PARSE_ABORTED  -- [4] R113
  | PARSE_FENCED  -- [4] R113
  | PARSE_SIDE_EXCESS  -- [4] R113
  | PARSE_ILLEGAL_OP  -- [4] R113
  | PARSE_CALL_DEPTH  -- [4] R113
  | PARSE_RET_EMPTY  -- [4] R113
  | PARSE_WINDOW  -- [4] R113
  | PARSE_STACK_FULL  -- [4] R113
  | PARSE_STALL_DROP  -- [44] R113
  | PHX_SIDE_DROP  --  R97
  | PARSE_OUTCOME  -- [4][6] R147
  | PARSE_MALFORMED  -- [4][256] R147
  | PARSE_SLOWPATH  -- [4][256] R147
  | PARSE_LATE_MALFORMED  -- [4] R147
  | PARSE_COPY_SUPPRESSED  -- [4] R147
  | PARSE_SIDE_UNKNOWN  -- [4] R147
  | PARSE_MAL_PORT  -- [44] R147
  | EXM_NO_TABLE  --  R124
  | LEARN_LIMIT_DROP  --  R198
  | LEARN_LIMIT_FLOOD  --  R198
  | LEARN_QUEUE_DROP  --  R199
  | LEARN_FLUSH_DISCARD  --  R194
  | LEARN_LIMIT_LATE  --  R206
  | LEARN_HOST_PENDING  --  R207
  | PINNED_SA_MISMATCH  --  R204
  | EXM_AGED  -- [256] R209
  | TCAM_SEARCHES  -- [4][2] R260
  | TCAM_HITS  -- [4][2] R260
  | TCAM_NO_PROFILE  -- [4] R260
  | TCAM_FALSE_HIT  -- [4] R260
  | TCAM_FH_MISS  -- [4] R260
  | TCAM_SCRUB_FIX  -- [4] R260
  | TCAM_SHADOW_UE  -- [4] R260
  | TCAM_THROTTLE_WAIT  -- [4] R260
  | NO_DEST  -- [4] R260
  | QCI_DROP  -- [4096][3] R260
  | RW_SKIP  -- [44] R304
  | RW_BAD_OP  -- [44] R304
  | RW_TTL_EXPIRED  -- [44] R304
  | RW_GROWTH  -- [44] R304
  | RW_OVERSIZE  -- [44] R304
  | RW_LEN_MISMATCH  -- [44] R304
  | NH_MISS  -- [4] R304
  | MSEC_TX_NO_SA  -- [32] R292
  | MSEC_TX_PN_EXHAUST  -- [32] R292
  | MSEC_RX_UNTAGGED  -- [32] R293
  | MSEC_RX_BAD_TAG  -- [32] R293
  | MSEC_RX_NO_SA  -- [32] R293
  | MSEC_RX_NOT_VALID  -- [32] R293
  | MSEC_RX_LATE  -- [32] R293
  | AUTH_FAIL  -- [44][4] R297
  | AUTH_GEN_OVERLOAD  -- [44] R299
  | AUTH_PASS_OVERLOAD  -- [44] R296
  | BUF_NONE  -- [44][4] R318
  | BUF_OVERRUN  -- [44] R319
  | BUF_DOUBLE_FREE  --  R324
  | BUF_OWNER_ERR  --  R325
  | BUF_CRC_RETRY  --  R327
  | BUF_CRC_FAIL  --  R327
  | BUF_QUARANTINE  -- [4] R328
  | ADM_LOSSLESS_DROP  -- [32][8] R332
  | ADM_DROP  -- [44][16][3] R332
  | ADM_ATOMIC_DROP  -- [44][16] R332
  | ADM_AGED  -- [44][16] R338
  | CAP_DROP  -- [64] R344
  | CAP_OVERRUN  -- [64] R344
  | GCL_OVERRUN  -- [40][16] R396
  | GCL_REALIGN  -- [40][16] R396
  | QTEL_DROP  --  R396
  | QTEL_OVERRUN  --  R396
  | PRED_HSR_UNTAGGED  -- [16] R435
  | PRED_PRP_NO_TRAILER  -- [16] R435
  | PRED_WRONG_LAN  -- [16] R435
  | PRED_DD_FULL  -- [16] R435
  | PRED_HSR_OWN  -- [16] R435
  | PRED_OUT_OF_WINDOW  -- [16] R435
  | PRED_CMP_SKIP  -- [16] R435
  | PRED_CMP_MATCH  -- [16] R435
  | PRED_DIVERGE  -- [16] R435
  | PRED_CMP_SAME_LANE  -- [16] R435
  | PRED_CMP_NONE  -- [16] R435
  | PRED_DUP  -- [16][2] R435
  | PRED_CMP_SINGLE  -- [16][2] R435
  | PRED_RCVY_PASSED  -- [4096] R435
  | PRED_RCVY_DISCARDED  -- [4096] R435
  | PRED_RCVY_OUT_OF_ORDER  -- [4096] R435
  | PRED_RCVY_ROGUE  -- [4096] R435
  | PRED_RCVY_LOST  -- [4096] R435
  | PRED_RCVY_RESETS  -- [4096] R435
  | PRED_RCVY_UNTAGGED  -- [4096] R435
  | TIME_TXTS_DROP  -- [40] R484
  | TIME_PPS_REJECT  --  R484
  | GPIO_BOUNCE  -- [32] R484
  | GPIO_TS_DROP  --  R484
  | GRID_ROCOF_EXC  --  R484
  | TIME_LATE_FIRE  --  R484
  | GRID_STATE_CHG  -- [3] R484
  | PHX_UNKNOWN  -- [4] R489
  | PHX_BANK_WAKE  -- [4096] R527
  | PHX_SMPCNT_RANGE  -- [4096] R527
  | PHX_RESYNC  -- [4096] R527
  | PHX_SAMPLES  -- [4096] R527
  | PHX_REORDERED  -- [4096] R527
  | PHX_DUP  -- [4096] R527
  | PHX_DUP_DIFFER  -- [4096] R527
  | PHX_LATE  -- [4096] R527
  | PHX_INTERP  -- [4096] R527
  | PHX_ABSENT  -- [4096] R527
  | PHX_PMU_SUPPRESS  -- [64] R527
  | PHX_REC_TRIG_IGN  -- [64] R527
  | PHX_REC_DROP  -- [64] R527
  | PHX_REC_TRIG_LOST  -- [64] R527
  | EVT_NO_SUB  --  R571
  | EVT_SUB_SIM  -- [1024] R571
  | EVT_SUB_AUTH  -- [1024] R571
  | EVT_SUB_DUP  -- [1024] R571
  | EVT_INPUT_DROP  --  R571
  | EVT_ACT_GAP  -- [1024] R571
  | EVT_LOG_DROP  --  R571
  | EVT_PUB_SUPERSEDED  -- [256] R571
  | EVT_PUB_DROP  -- [256] R571
  | EVT_FSW_MISS  -- [64] R571
  | EVT_FSW_FAIL  -- [64] R571
  | FAB_BLK_CRC  -- [8] R623
  | FAB_BLK_SEQ  -- [8] R623
  | FAB_REPLAY_TIMEOUT  -- [8] R623
  | FAB_HOPS_DROP  --  R623
  | FAB_MSG_BAD  --  R623
  | FAB_TRANSIT_DROP  --  R623
  | FAB_MCG_RANGE  --  R623
  | FAB_NOTICE_IGN  --  R623
  | FAB_FDB_YIELD  --  R623
  | FAB_TC_FENCE_DROP  --  R623
  | FAB_UNREACH_DROP  --  R623
  | SEC_STORE_BAD  --  R670
  | PWR_DIP_SHORT  --  R720
  | FLT_FENCE_DENIED  -- [64] R791
  | EXM_BANK_FENCED  -- [4] R791
  | IRQ_BAD_COMPLETE  -- [5] R791
  | IRQ_MERGED  -- [1024] R791
  | JOURNAL_DROP  --  R791
  | CDC_FLUSH  --  R799
  | DRAM_REQ  -- [2][4] R814
  | DRAM_PROMOTE  -- [2][4] R814
  | DRAM_CRC_RETRY  -- [2] R814
  | DRAM_CRC_FAIL  -- [2] R814
  | DRAM_SECDED_CORR  -- [2] R814
  | PERF_DROP  --  R823
  | PERF_OVERRUN  --  R823
  deriving DecidableEq, Repr

/-- The number a counter has in the counter store. -/
def Ctr.code : Ctr → Nat
  | .RX_FRAMES => 0
  | .RX_OCTETS => 1
  | .TX_FRAMES => 2
  | .TX_OCTETS => 3
  | .RX_FCS_ERR => 4
  | .RX_RUNT => 5
  | .RX_OVERSIZE => 6
  | .RX_ABORT => 7
  | .TX_ABORT => 8
  | .TX_MODE_STOMP => 9
  | .TX_STOMP => 10
  | .RX_SYMBOL_ERR => 11
  | .FEC_CORRECTED => 12
  | .FEC_UNCORRECTED => 13
  | .RX_PFC => 14
  | .TX_PFC => 15
  | .RX_PFC_IGNORED => 16
  | .RX_PAUSE_IGNORED => 17
  | .LPI_TX_EVENTS => 18
  | .LPI_TX_TIME_US => 19
  | .RX_NOT_READY => 20
  | .MODE_FLUSH => 21
  | .EGRESS_ABSENT => 22
  | .PARSE_FRAMES => 23
  | .PARSE_SLOTS => 24
  | .PARSE_OVER_BUDGET => 25
  | .PARSE_STALL_CYCLES => 26
  | .PARSE_ABORTED => 27
  | .PARSE_FENCED => 28
  | .PARSE_SIDE_EXCESS => 29
  | .PARSE_ILLEGAL_OP => 30
  | .PARSE_CALL_DEPTH => 31
  | .PARSE_RET_EMPTY => 32
  | .PARSE_WINDOW => 33
  | .PARSE_STACK_FULL => 34
  | .PARSE_STALL_DROP => 35
  | .PHX_SIDE_DROP => 36
  | .PARSE_OUTCOME => 37
  | .PARSE_MALFORMED => 38
  | .PARSE_SLOWPATH => 39
  | .PARSE_LATE_MALFORMED => 40
  | .PARSE_COPY_SUPPRESSED => 41
  | .PARSE_SIDE_UNKNOWN => 42
  | .PARSE_MAL_PORT => 43
  | .EXM_NO_TABLE => 44
  | .LEARN_LIMIT_DROP => 45
  | .LEARN_LIMIT_FLOOD => 46
  | .LEARN_QUEUE_DROP => 47
  | .LEARN_FLUSH_DISCARD => 48
  | .LEARN_LIMIT_LATE => 49
  | .LEARN_HOST_PENDING => 50
  | .PINNED_SA_MISMATCH => 51
  | .EXM_AGED => 52
  | .TCAM_SEARCHES => 53
  | .TCAM_HITS => 54
  | .TCAM_NO_PROFILE => 55
  | .TCAM_FALSE_HIT => 56
  | .TCAM_FH_MISS => 57
  | .TCAM_SCRUB_FIX => 58
  | .TCAM_SHADOW_UE => 59
  | .TCAM_THROTTLE_WAIT => 60
  | .NO_DEST => 61
  | .QCI_DROP => 62
  | .RW_SKIP => 63
  | .RW_BAD_OP => 64
  | .RW_TTL_EXPIRED => 65
  | .RW_GROWTH => 66
  | .RW_OVERSIZE => 67
  | .RW_LEN_MISMATCH => 68
  | .NH_MISS => 69
  | .MSEC_TX_NO_SA => 70
  | .MSEC_TX_PN_EXHAUST => 71
  | .MSEC_RX_UNTAGGED => 72
  | .MSEC_RX_BAD_TAG => 73
  | .MSEC_RX_NO_SA => 74
  | .MSEC_RX_NOT_VALID => 75
  | .MSEC_RX_LATE => 76
  | .AUTH_FAIL => 77
  | .AUTH_GEN_OVERLOAD => 78
  | .AUTH_PASS_OVERLOAD => 79
  | .BUF_NONE => 80
  | .BUF_OVERRUN => 81
  | .BUF_DOUBLE_FREE => 82
  | .BUF_OWNER_ERR => 83
  | .BUF_CRC_RETRY => 84
  | .BUF_CRC_FAIL => 85
  | .BUF_QUARANTINE => 86
  | .ADM_LOSSLESS_DROP => 87
  | .ADM_DROP => 88
  | .ADM_ATOMIC_DROP => 89
  | .ADM_AGED => 90
  | .CAP_DROP => 91
  | .CAP_OVERRUN => 92
  | .GCL_OVERRUN => 93
  | .GCL_REALIGN => 94
  | .QTEL_DROP => 95
  | .QTEL_OVERRUN => 96
  | .PRED_HSR_UNTAGGED => 97
  | .PRED_PRP_NO_TRAILER => 98
  | .PRED_WRONG_LAN => 99
  | .PRED_DD_FULL => 100
  | .PRED_HSR_OWN => 101
  | .PRED_OUT_OF_WINDOW => 102
  | .PRED_CMP_SKIP => 103
  | .PRED_CMP_MATCH => 104
  | .PRED_DIVERGE => 105
  | .PRED_CMP_SAME_LANE => 106
  | .PRED_CMP_NONE => 107
  | .PRED_DUP => 108
  | .PRED_CMP_SINGLE => 109
  | .PRED_RCVY_PASSED => 110
  | .PRED_RCVY_DISCARDED => 111
  | .PRED_RCVY_OUT_OF_ORDER => 112
  | .PRED_RCVY_ROGUE => 113
  | .PRED_RCVY_LOST => 114
  | .PRED_RCVY_RESETS => 115
  | .PRED_RCVY_UNTAGGED => 116
  | .TIME_TXTS_DROP => 117
  | .TIME_PPS_REJECT => 118
  | .GPIO_BOUNCE => 119
  | .GPIO_TS_DROP => 120
  | .GRID_ROCOF_EXC => 121
  | .TIME_LATE_FIRE => 122
  | .GRID_STATE_CHG => 123
  | .PHX_UNKNOWN => 124
  | .PHX_BANK_WAKE => 125
  | .PHX_SMPCNT_RANGE => 126
  | .PHX_RESYNC => 127
  | .PHX_SAMPLES => 128
  | .PHX_REORDERED => 129
  | .PHX_DUP => 130
  | .PHX_DUP_DIFFER => 131
  | .PHX_LATE => 132
  | .PHX_INTERP => 133
  | .PHX_ABSENT => 134
  | .PHX_PMU_SUPPRESS => 135
  | .PHX_REC_TRIG_IGN => 136
  | .PHX_REC_DROP => 137
  | .PHX_REC_TRIG_LOST => 138
  | .EVT_NO_SUB => 139
  | .EVT_SUB_SIM => 140
  | .EVT_SUB_AUTH => 141
  | .EVT_SUB_DUP => 142
  | .EVT_INPUT_DROP => 143
  | .EVT_ACT_GAP => 144
  | .EVT_LOG_DROP => 145
  | .EVT_PUB_SUPERSEDED => 146
  | .EVT_PUB_DROP => 147
  | .EVT_FSW_MISS => 148
  | .EVT_FSW_FAIL => 149
  | .FAB_BLK_CRC => 150
  | .FAB_BLK_SEQ => 151
  | .FAB_REPLAY_TIMEOUT => 152
  | .FAB_HOPS_DROP => 153
  | .FAB_MSG_BAD => 154
  | .FAB_TRANSIT_DROP => 155
  | .FAB_MCG_RANGE => 156
  | .FAB_NOTICE_IGN => 157
  | .FAB_FDB_YIELD => 158
  | .FAB_TC_FENCE_DROP => 159
  | .FAB_UNREACH_DROP => 160
  | .SEC_STORE_BAD => 161
  | .PWR_DIP_SHORT => 162
  | .FLT_FENCE_DENIED => 163
  | .EXM_BANK_FENCED => 164
  | .IRQ_BAD_COMPLETE => 165
  | .IRQ_MERGED => 166
  | .JOURNAL_DROP => 167
  | .CDC_FLUSH => 168
  | .DRAM_REQ => 169
  | .DRAM_PROMOTE => 170
  | .DRAM_CRC_RETRY => 171
  | .DRAM_CRC_FAIL => 172
  | .DRAM_SECDED_CORR => 173
  | .PERF_DROP => 174
  | .PERF_OVERRUN => 175

/-- The tables whose entries hold two versions (R269, R335, R601). -/
inductive VTab where
  | RW_LIST  -- 65536 entries of 17 words, R272
  | RW_MAC  -- 65536 entries of 2 words, R280
  | RW_ENCAP  -- 4096 entries of 17 words, R281
  | NH_TABLE  -- 262144 entries of 2 words, R279
  | MC_GROUP  -- 16384 entries of 3 words, R335
  | FAB_MCG  -- 16384 entries of 16 words, R601
  deriving DecidableEq, Repr

def VTab.code : VTab → Nat
  | .RW_LIST => 0
  | .RW_MAC => 1
  | .RW_ENCAP => 2
  | .NH_TABLE => 3
  | .MC_GROUP => 4
  | .FAB_MCG => 5

def VTab.count : VTab → Nat
  | .RW_LIST => 65536
  | .RW_MAC => 65536
  | .RW_ENCAP => 4096
  | .NH_TABLE => 262144
  | .MC_GROUP => 16384
  | .FAB_MCG => 16384

def VTab.words : VTab → Nat
  | .RW_LIST => 17
  | .RW_MAC => 2
  | .RW_ENCAP => 17
  | .NH_TABLE => 2
  | .MC_GROUP => 3
  | .FAB_MCG => 16

end Sys2Proof.Machine
end

