-- ==== Sys2Proof/Machine/Cmd.lean ====
section
/-! DEFINITION. The operands of the commands: what the world outside the module, or a unit inside it, hands to one step.
Plain data, each type beside the rule that lists its fields. -/
namespace Sys2Proof.Machine

/-- State a unit holds beside the registers of the tables, which an expert or a debugger reaches through a test path or the memory that
holds it; the spec gives it no address map (DESIGN CHOICE, log 12). -/
inductive Held where
  /-- An entry of the exact-match store, by its location (R216, R438). -/
  | entry (loc : Nat)
  /-- A row of a pipeline's TCAM array, or of its shadow (R262, R263). -/
  | row (pl : Nat) (n : Nat) (shadow : Bool)
  /-- One of the two versions of a table's entry (R305, R351). -/
  | version (t : VTab) (i : Nat)
  /-- Free bitmap, state bit, owner tag and reference count of a buffer (R349). -/
  | buffer (b : Nat)
  /-- Token counts, remainder, refill time, deficit and round pointer of a node or queue (R397). -/
  | node (l n : Nat)
  /-- State records, pending records and recovery functions of redundancy (R437). -/
  | redundancy (i : Nat)
  /-- The FRC, the device clock's accumulator and the grid-angle accumulator (R485). -/
  | clocks
  /-- Sample positions, window state and newest index of a stream (R529). -/
  | stream (i : Nat)
  /-- A condition's state, timers, latch and SMP count (R572). -/
  | condition (c : Nat)
  /-- A template's stNum, sqNum and schedule state (R572). -/
  | template (t : Nat)
  /-- Retry buffer, sequence and acknowledgement state of a link; credit balance and REQUEST state of its queues (R624). -/
  | fabric (l : Nat)
  /-- Charger, converter and HOLD switch controls (R757). -/
  | supply
  /-- A shed stage's state (R758). -/
  | shedStage
  /-- Either copy of the collector's state (R792). -/
  | collector
  /-- A coalescing count or timer (R792). -/
  | coalescing (g : Nat)
  /-- Journal slots and the chain value J (R793). -/
  | journal
  /-- Timing, training and calibration registers of a DRAM controller (R825). -/
  | dramTiming (stack : Nat)
  /-- Synchroniser and count state of a crossing (R826). -/
  | crossing
  deriving DecidableEq, Repr

/-- A register word: the register, the flattened index (R713) and the word; or a word of state that no register table lists. The spec
gives no address map for REG_READ and REG_WRITE, so an address is this (DESIGN CHOICE, log 12). -/
structure RegAddr where
  reg  : Reg
  idx  : Nat
  word : Nat
  held : Option Held := none
  deriving DecidableEq, Repr

/-- Who writes a register: firmware an instance of it, where the row's place is the word, or the host BAR0, where the place is the byte
offset (R675, R784). -/
inductive WrSrc where
  | firmware (reg : Reg) (idx : Nat)
  | bar0
  deriving DecidableEq, Repr

/-- The opcodes of Table 16-7. -/
def cmdOpcodes : List Nat :=
  [0x0000, 0x0001, 0x0010, 0x0011, 0x0012, 0x0020, 0x0021, 0x0030, 0x0031, 0x0032, 0x0040] ++
  [0x0050, 0x0051, 0x0052, 0x0053, 0x0054, 0x0055, 0x0056, 0x0060, 0x0061, 0x0062, 0x0063, 0x0070, 0x0071] ++
  [0x0080, 0x0081, 0x0082, 0x0083, 0x0090, 0x0091, 0x0092, 0x00A0, 0x00A1, 0x00B0, 0x00B1] ++
  [0x00C0, 0x00C1, 0x00C2, 0x00C3, 0x00C4, 0x00C5, 0x00C6, 0x00C7, 0x00D0, 0x00D1, 0x00D2, 0x00E0, 0x00E1, 0x00F0, 0x00F1] ++
  [0x0100, 0x0101, 0x0102, 0x0103, 0x0104, 0x0105, 0x0106, 0x0107, 0x0108, 0x0109, 0x010A, 0x010B, 0x010C] ++
  [0x010D, 0x010E, 0x010F, 0x0110, 0x0111, 0x8000, 0x8001, 0x8002, 0x8003, 0x8010, 0x8011, 0x8020, 0x8030, 0x8031]

/-- What the PCIe side of one request did (R682, R687): nothing wrong, the request fetch failed, the payload read or output
write failed, or the completion write failed. -/
inductive PcieErr where
  | none
  | fetch
  | payload
  | completion
  deriving DecidableEq, Repr

/-- A mailbox request as the device fetches it: the descriptor of Table 16-4 with its payload (R683: each is read once). -/
structure Req where
  ch       : Nat                -- channel, 0 to 15
  opcode   : Option Nat := none -- an OPCODE that Table 16-7 does not define, in the place of the command's (R700)
  prot     : Bool := false      -- PROTECTED
  rsvd     : Bool := false      -- a reserved bit of the descriptor is set
  cookie   : Word := 0
  inPtr    : Nat := 0
  inLen    : Nat := 0
  outPtr   : Nat := 0
  outLen   : Nat := 4096
  sid      : Nat := 0
  txn      : Nat := 0
  counter  : Nat := 0
  tag      : Bytes := []        -- 16 bytes of TAG
  arg      : Word := 0
  payload  : List Word := []    -- the IN_LEN bytes at IN_PTR, as words
  unit     : Option RegAddr := none -- of MEM_READ and MEM_WRITE: the unit's word that the first SRAM byte belongs to (log 12)
  pcie     : PcieErr := .none
  deriving DecidableEq, Repr

/-- The configuration commands of Table 16-14, named by CONFIG_READBACK. -/
inductive CfgCmd where
  | port | exmTable | exmTableX | pol | qci | rw | macsec | adm | mcGroup | capRing | sched | gcl | qtel
  | predPair | predRcvy | time | phxStream | phxHarm | pmu | recorder | evt | fab | fault
  deriving DecidableEq, Repr

/-- The MACsec tag of a received frame, and whether its ICV holds (R293). -/
structure SecTag where
  malformed : Bool := false
  sci       : Nat               -- the SCI it carries or implies
  an        : Nat               -- 0 to 3
  pn        : Nat               -- 64-bit packet number
  icvOk     : Bool              -- GCM verification with the SA's key
  hasSci    : Bool := true      -- the SecTAG carries an SCI
  deriving DecidableEq, Repr

/-- Bytes of a SecTAG and its ICV (R290). -/
def SecTag.size (t : SecTag) : Nat := (if t.hasSci then 16 else 8) + 16

/-- What a link's peer is configured to beside its rate (R37, R39, R44, R47). -/
structure PeerMode where
  fifty : Bool := false         -- of code 6: 50GBASE-R, otherwise 40GBASE-R
  fec   : Nat := 0              -- FEC setting of Table 2-5
  basex : Bool := false         -- P32 to P39: 1000BASE-X, otherwise the SGMII control word of a PHY
  half  : Bool := false         -- half duplex
  deriving DecidableEq, Repr

/-- A link's peer as the port finds it. -/
structure LinkPeer extends PeerMode where
  speed : Nat                   -- rate code of R44
  deriving DecidableEq, Repr

/-- A frame that becomes head-ready (R72): the bytes the MAC holds, as it delivers them (R89: destination address first, MACsec
removed, FCS left out). `len` is L for a frame of 512 B or less and is not read for a longer one. -/
structure Arrival where
  port    : Nat                 -- P00 to P39
  bytes   : Bytes
  long    : Bool := false       -- longer than 512 B: the tail has not arrived
  len     : Nat := 0            -- L, including FCS, when not long
  fcsOk   : Bool := true
  fecBad  : Bool := false       -- an uncorrectable FEC codeword covers it (R46)
  age     : Nat := 0            -- ns since its start-of-frame delimiter crossed the pins
  subNs   : Nat := 0            -- sub-nanosecond part of the capture (R445)
  secTag  : Option SecTag := none
  cut     : Bool := false       -- cut off by link loss, speed or mode change before it was head-ready (R38, R47, R50)
  symErr  : Nat := 0            -- invalid blocks or code groups since the port's last report (R66)
  fecFix  : Nat := 0            -- FEC codewords corrected since it
  fecLost : Nat := 0            -- FEC codewords it could not correct since it
  deriving DecidableEq, Repr

/-- Why the MAC aborts a frame longer than 512 B (R849). -/
inductive AbortCause where
  | linkLoss
  | speedOrMode
  | fcs
  | fec
  | tooLong
  deriving DecidableEq, Repr

/-- A gate: of an egress port and class (R373), or a stream gate (R249). -/
inductive GateId where
  | egress (p : Fin 40) (c : Fin 16)
  | stream (g : Fin 1024)
  deriving DecidableEq, Repr

/-- A pipeline-waking event (R731). -/
inductive WakeCause where
  | signalDetect
  | commit
  | injection
  deriving DecidableEq, Repr

/-- A line typed at the console (R711). -/
inductive UartLine where
  | version
  | ready
  | faults
  | zeinekTest
  | other
  deriving DecidableEq, Repr

/-- What arrives on the JTAG pins (R664, R666, R667). -/
inductive JtagOp where
  | bypass
  | idcode
  | sample
  | extest
  | zeinekTest
  | challenge (level : Nat)     -- 1 VENDOR, 2 OWNER
  | unlock (sig ownerSig : Bytes)
  | readReg (a : RegAddr)
  | readMem (addr : Nat) (at_ : Option RegAddr := none)
  | writeReg (a : RegAddr) (v : Word)
  | writeMem (addr : Nat) (at_ : Option RegAddr) (v : Byte)
  | halt
  deriving DecidableEq, Repr

/-- A transmit slot of a P40 ring with the frame it names (R705). -/
structure TxSlot where
  bytes    : Bytes
  count    : Nat                -- BYTES of word 2
  pipeline : Option Nat := none -- pipeline named in the metadata, otherwise the ring's default (R18)
  cookie   : Word := 0
  dmaErr   : Bool := false
  changed  : Bool := false      -- the host changed the frame after it posted the slot (R717)
  deriving DecidableEq, Repr

/-- An estimate of the grid reference (R473). -/
structure GridEst where
  angle  : Nat                  -- units of 2^-32 cycle
  freq   : Nat                  -- units of 2^-20 Hz
  magPct : Nat                  -- positive-sequence magnitude in % of nominal
  age    : Nat                  -- ns since its sample instant
  good   : Bool                 -- quality of the three channels
  sync   : Bool                 -- smpSynch shows the stream synchronised
  rocofHigh : Bool := false     -- the reference changes faster than 10 Hz/s (R478)
  deriving DecidableEq, Repr

/-- Versions of a member as HELLO and the compatibility rule carry them (R583): firmware, then one pair a recipe object. -/
structure Versions where
  fw         : Nat
  fwCompat   : Nat
  recipes    : List (Nat × Nat)
  deriving DecidableEq, Repr

/-- A HELLO message (Table 14-5) with what the attestation step reads of its quote (R651). -/
structure Hello where
  member     : Nat
  link       : Nat
  vers       : Versions
  epoch      : Nat
  digest     : Bytes
  certOk     : Bool
  sigOk      : Bool
  nonceOk    : Bool
  lifecycle  : Nat
  debug      : Nat
  ownerMatch : Bool
  trace      : Bool := false    -- TRACEABLE of the quote (Table 15-6)
  leaderCompat : Bool := true   -- own versions are compatible with the leader the peer knows
  deriving DecidableEq, Repr

/-- A FRAME message (Table 14-6) after its first word. -/
structure FrameMsg where
  src      : Nat
  hops     : Nat
  dest     : Nat
  group    : Bool
  member   : Nat                -- member the message is for
  cls      : Nat
  colour   : Nat
  markDei  : Bool
  hdrs     : List Word
  rewrite  : Option Nat
  suspect  : Bool
  untrace  : Bool
  bytes    : Bytes
  tsNs     : Nat
  tsSec    : Nat
  srcGport : Nat
  age      : Nat                -- units of 64 ns
  hdrIndex : Nat
  pcp      : Nat
  deriving DecidableEq, Repr

/-- A NOTICE message (Table 14-5). -/
structure NoticeMsg where
  src     : Nat
  learn   : Bool                -- LEARN, otherwise WITHDRAW
  table   : Nat
  key     : Nat
  gport   : Nat
  at_     : Nat                 -- learn time on PTP, in ns
  suspect : Bool
  deriving DecidableEq, Repr

/-- A firmware image as the flash slot holds it (Table 15-3). -/
structure Image where
  fieldsOk : Bool               -- magic, format, target and length
  version  : Nat
  compat   : Nat
  svn      : Nat
  keyIndex : Nat
  revoke   : Nat
  header   : Bytes              -- words 0 to 23
  sig      : Bytes
  digest   : Bytes
  body     : Bytes
  readOk   : Bool := true
  deriving DecidableEq, Repr

/-- An entry of the persistent store (R633, Table 15-1). -/
inductive StoreItem where
  | ownerRoot
  | ownerEpoch
  | policy
  | operator (i : Fin 16)
  | cak (i : Fin 64)
  | gkey (id : Fin 256)
  deriving DecidableEq, Repr

/-- A received MKA PDU, as far as a SAK installation needs it (R635): the bytes its ICV covers, the ICV, and the wrapped SAK. -/
structure MkaPdu where
  body    : Bytes
  icv     : Bytes
  wrapped : Bytes
  deriving DecidableEq, Repr

/-- A receive doorbell (R704): the producer index, and the slots posted before that the host has changed since (R717). -/
structure RxPost where
  pi      : BitVec 16
  changed : List Nat := []
  deriving DecidableEq, Repr

/-- The ports whose oldest waiting frame is released to lookup in one cycle, and how many reads of a frame by the capture writer mismatch
(R327). -/
structure Releases where
  ports  : List (Fin 44)
  capBad : Nat := 0
  deriving DecidableEq, Repr

/-- The reads of a copy's frame (R327): how many in a row of each block mismatch, and how many by the capture writer. -/
structure CopyReads where
  blocks : List Nat := []
  capBad : Nat := 0
  deriving DecidableEq, Repr

/-- What a SAK is installed under (R635, R636): its association number, the CAK it comes from, the receive SCs that MKA keeps, and the PDU that
carries it, unless this member is the key server. -/
structure SaInstall where
  an  : Fin 4
  cak : Fin 64
  scs : List Nat := []
  mka : Option MkaPdu := none
  deriving DecidableEq, Repr

/-- What the flash holds as the start configuration (R750), as far as the device reads it. -/
structure StartCfg where
  digestOk  : Bool
  sig       : Bytes
  content   : Bytes             -- the measured content
  memberId  : Nat := 0
  ref25     : Bool := false
  direct    : Bool := false     -- DIRECT mode of the fault collector (R760)
  pools     : List Nat := []    -- four counts, or none
  tree      : Bool := false     -- the configuration supplies a scheduler tree
  object    : List Word := []   -- recipe object it names (R132); none: the standard package
  records   : List Word := []   -- register records in the layout of Table 16-13
  deriving DecidableEq, Repr

/-- A function that proofs (Table 17-11). -/
inductive Fn where
  | sec | mgmt | time | pl (i : Fin 4) | hsr | evt | hdma | phx | fab | dramRec
  deriving DecidableEq, Repr

/-- A measure of Table 17-3. -/
inductive Measure where
  | gatePipeline (pl : Fin 4)
  | quiesce
  | bankOff (b : Fin 4)
  | dramRefresh
  deriving DecidableEq, Repr

/-- A safe-state cause of Table 18-5. -/
inductive SafeCause where
  | escalation | thermal | collector | watchdog | bootFail | extest | force
  deriving DecidableEq, Repr

/-- A quad of IRIG-B content (R462, R464). -/
structure IrigFrame where
  sec     : Nat
  edgeErr : Nat                 -- distance of the on-time edge from the expected second, ns
  quality : Nat                 -- time error the IEEE 1344 code gives, in ns
  deriving DecidableEq, Repr

/-- A request that waits at a DRAM controller (R804, R806). -/
structure DramReq where
  cls   : Nat                   -- service class 0 to 3
  addr  : Nat                   -- block address, multiple of 64
  write : Bool
  at_   : Nat                   -- arrival, ns
  promo : Bool := false         -- promoted (R806)
  own   : Option Nat := none    -- mailbox channel whose MEM_READ waits for it
  deriving DecidableEq, Repr

end Sys2Proof.Machine
end

