-- ==== Sys2Proof/Syntax.lean ====
section
/-! DEFINITION. The commands of the block: one constructor for each row of spec/opcode_table.json, named after it. Every
command carries `dt`, the nanoseconds that pass before it (DESIGN CHOICE, log 1); the other operands are what its rule says
it is given. -/
namespace Sys2Proof
open Machine

/-- One step of the module, whole and indivisible (spec/95). -/
inductive Instr where
  /-- NOP (R701). Mailbox command that does nothing and returns HOST_READY in RESULT. -/
  | mbxNop (dt : Nat) (r : Req)
  /-- GET_INFO (R701). Mailbox command that returns the serial number, device identifier, firmware version, member id, readiness, security state and channel states. -/
  | getInfo (dt : Nat) (r : Req)
  /-- TXN_BEGIN (R692). Mailbox command that opens a transaction bound to its channel and session and returns its identifier. -/
  | txnBegin (dt : Nat) (r : Req)
  /-- BATCH_TXN_BEGIN (R696). TXN_BEGIN with ARG bit 0 set, which opens a batch-wide transaction at the leader. -/
  | batchTxnBegin (dt : Nat) (r : Req)
  /-- COMMIT (R694). Mailbox command that requests the commit of the named transaction and completes once it has taken effect. -/
  | txnCommit (dt : Nat) (r : Req)
  /-- TXN_ABORT (R694). Mailbox command that discards every staged write, retirement, CMT value and bank switch of the transaction. -/
  | txnAbort (dt : Nat) (r : Req)
  /-- SET_LATENCY_BUDGET (R733). Mailbox command that stages the wake-latency budget of one function and, optionally, the shed and HOLD registers. -/
  | setLatencyBudget (dt : Nat) (r : Req)
  /-- PWR_STATUS (R726). Mailbox command that returns PWR_STAT, the measures in force and the supply figures. -/
  | pwrStatus (dt : Nat) (r : Req)
  /-- PORT_CONFIG (R713). Configuration command that writes port, PFC, VLAN, authentication and parse-default objects. -/
  | portConfig (dt : Nat) (r : Req)
  /-- PORT_COUNTERS (R66). Mailbox command that returns all MAC counters of one port as a single snapshot. -/
  | portCounters (dt : Nat) (r : Req)
  /-- COUNTER_READ (R817). Mailbox command that reads counter pairs, and optionally clears each one, in an indivisible step per pair. -/
  | counterRead (dt : Nat) (r : Req)
  /-- LOAD_RECIPE (R115). Mailbox command that receives an Eloak object segment by segment and, at the last segment, checks it and stages it for the inactive bank. -/
  | loadRecipe (dt : Nat) (r : Req)
  /-- RECIPE_BANK_WRITE (R116). Once BANK_BUSY has cleared, the object is written into the inactive bank, read back against its digest and ACTIVE_BANK is staged. -/
  | recipeBankWrite (dt : Nat) (pl : Fin 4)
  /-- EXM_TABLE_CONFIG (R187). Mailbox command that configures logical tables, learning and flap settings. -/
  | exmTableConfig (dt : Nat) (r : Req)
  /-- EXM_WRITE (R177). Mailbox command that stages an INSERT, REPLACE or DELETE of an exact-match entry. -/
  | exmWrite (dt : Nat) (r : Req)
  /-- SEARCH (R187). Mailbox command that returns the entry of a key in the CUR or CUR + 1 view, with its location. -/
  | exmSearch (dt : Nat) (r : Req)
  /-- NEXT (R189). Mailbox command that returns the next entries of a table walk, or CURSOR_STALE. -/
  | tableNext (dt : Nat) (r : Req)
  /-- FLUSH_BY_PORT (R191). Mailbox command that requests the removal of every FDB entry pointing at a global port. -/
  | flushByPort (dt : Nat) (r : Req)
  /-- FLUSH_WALK (R193). A flush walk covers both stores for up to 16 waiting port numbers and removes or retires their entries. -/
  | flushWalk (dt : Nat)
  /-- LPM_WRITE (R214). Mailbox command that stages an INSERT, REPLACE or DELETE of an LPM prefix entry. -/
  | lpmWrite (dt : Nat) (r : Req)
  /-- LPM_SEARCH (R715). Mailbox command that returns the prefix entry a lookup of an address would match in a given view. -/
  | lpmSearch (dt : Nat) (r : Req)
  /-- TCAM_WRITE (R848). Mailbox command that stages an INSERT, REPLACE or DELETE of a TCAM row in the named pipelines. -/
  | tcamWrite (dt : Nat) (r : Req)
  /-- TCAM_READ (R848). Mailbox command that returns the row at an index visible in the view asked for. -/
  | tcamRead (dt : Nat) (r : Req)
  /-- POL_CONFIG (R713). Configuration command that writes policer configuration and status. -/
  | polConfig (dt : Nat) (r : Req)
  /-- QCI_CONFIG (R713). Configuration command that writes stream filters, meters, stream gates, TCAM profiles, false-hit settings and flood groups. -/
  | qciConfig (dt : Nat) (r : Req)
  /-- RW_WRITE (R270). Configuration command that stages new versions of rewrite lists, addresses, templates, next hops and port lists. -/
  | rwWrite (dt : Nat) (r : Req)
  /-- RW_VERSION_WAIT (R271). A staged rewrite-table write proceeds once OLD is at or after the FROM of the newer version. -/
  | rwVersionWait (dt : Nat) (ch : Fin 16)
  /-- MACSEC_CONFIG (R713). Configuration command that writes MSEC_CTL and the replay windows. -/
  | macsecConfig (dt : Nat) (r : Req)
  /-- ADM_CONFIG (R713). Configuration command that writes admission classes, limits, capture settings and buffer request settings. -/
  | admConfig (dt : Nat) (r : Req)
  /-- MC_GROUP_WRITE (R335). Configuration command that stages multicast groups and fabric member sets. -/
  | mcGroupWrite (dt : Nat) (r : Req)
  /-- CAP_RING_CONFIG (R346). Configuration command that writes capture rings, refusing overlaps. -/
  | capRingConfig (dt : Nat) (r : Req)
  /-- BUF_UNQUARANTINE (R328). Mailbox command that returns a quarantined buffer to its pool's free bitmap. -/
  | bufUnquarantine (dt : Nat) (r : Req)
  /-- SCHED_CONFIG (R360). Configuration command that writes class maps, queue selection, the node tree and the shapers. -/
  | schedConfig (dt : Nat) (r : Req)
  /-- GCL_WRITE (R375). Configuration command that writes gate control settings and entries, refusing entries of a running or pending list. -/
  | gclWrite (dt : Nat) (r : Req)
  /-- QTEL_CONFIG (R713). Configuration command that writes telemetry and performance-counter objects. -/
  | qtelConfig (dt : Nat) (r : Req)
  /-- PRED_PAIR_CONFIG (R402). Configuration command that writes port pairs, lane status and bypass controls. -/
  | predPairConfig (dt : Nat) (r : Req)
  /-- PRED_RCVY_CONFIG (R713). Configuration command that writes IEEE 802.1CB recovery functions. -/
  | predRcvyConfig (dt : Nat) (r : Req)
  /-- TIME_CONFIG (R713). Configuration command that writes clock, PTP domain, port, PPS, IRIG, grid and GPIO input settings. -/
  | timeConfig (dt : Nat) (r : Req)
  /-- TIME_STATUS_CMD (R700). Mailbox command that returns the time status. -/
  | timeStatusCmd (dt : Nat) (r : Req)
  /-- PHX_STREAM_CONFIG (R489). Configuration command that writes measurement streams, refusing duplicate keys and excess ingest. -/
  | phxStreamConfig (dt : Nat) (r : Req)
  /-- PHX_HARM_CONFIG (R507). Configuration command that writes harmonic analysis slots. -/
  | phxHarmConfig (dt : Nat) (r : Req)
  /-- PMU_CONFIG (R512). Configuration command that writes synchrophasor outputs and their phasor lists. -/
  | pmuConfig (dt : Nat) (r : Req)
  /-- PMU_SERVER (R702). Mailbox command that configures the firmware C37.118.2 TCP server. -/
  | pmuServer (dt : Nat) (r : Req)
  /-- REC_CONFIG (R713). Configuration command that writes recorder groups. -/
  | recConfig (dt : Nat) (r : Req)
  /-- REC_TRIGGER (R520). Mailbox command that triggers a recorder group with a reason bit. -/
  | recTrigger (dt : Nat) (r : Req)
  /-- REC_RELEASE (R523). Mailbox command that releases the oldest unreleased record of a group and its protected rows. -/
  | recRelease (dt : Nat) (r : Req)
  /-- REC_READ (R703). Mailbox command that returns bytes of the .cfg or .dat file of the oldest unreleased record. -/
  | recRead (dt : Nat) (r : Req)
  /-- EVT_CONFIG (R713). Configuration command that writes subscriptions, conditions, actions, templates, switch sets and GPIO outputs. -/
  | evtConfig (dt : Nat) (r : Req)
  /-- EVT_RESET_LATCH (R715). Mailbox command that clears the latch of a condition. -/
  | evtResetLatch (dt : Nat) (r : Req)
  /-- EVT_LOG_READ (R551). Mailbox command that reads entries of the event log. -/
  | evtLogRead (dt : Nat) (r : Req)
  /-- FAB_CONFIG (R713). Configuration command that writes batch, link, route, VOQ limit, credit and ownership settings. -/
  | fabConfig (dt : Nat) (r : Req)
  /-- FAB_STATUS (R700). Mailbox command that returns batch status. -/
  | fabStatus (dt : Nat) (r : Req)
  /-- FAULT_CONFIG (R781). Mailbox command that writes fault-line, watchdog and interrupt controller settings. -/
  | faultConfig (dt : Nat) (r : Req)
  /-- FORCE_SAFE (R772). FAULT_CONFIG ARG bit 0 takes the device to the safe state with cause FORCE. -/
  | forceSafe (dt : Nat) (r : Req)
  /-- UNFENCE (R767). FAULT_CONFIG ARG bit 1 block-resets a fenced unit and ends the fence once its proof passes. -/
  | unfence (dt : Nat) (r : Req)
  /-- JOURNAL_READ (R781). Mailbox command that returns whole journal entries from a given SEQ. -/
  | journalRead (dt : Nat) (r : Req)
  /-- SESSION_BEGIN (R654). Mailbox command that starts the session exchange and returns the device's X448 value and its signature. -/
  | sessionBegin (dt : Nat) (r : Req)
  /-- SESSION_FINISH (R654). Mailbox command that verifies the operator signature and derives the session key. -/
  | sessionFinish (dt : Nat) (r : Req)
  /-- SESSION_CLOSE (R657). Mailbox command that closes the channel's session. -/
  | sessionClose (dt : Nat) (r : Req)
  /-- SEC_QUOTE (R649). Mailbox command that returns a DIK-signed attestation quote over the selected measurement registers. -/
  | secQuote (dt : Nat) (r : Req)
  /-- SEC_CERT (R648). Mailbox command that returns the device certificate. -/
  | secCert (dt : Nat) (r : Req)
  /-- SEC_EXTEND (R646). Mailbox command that extends an owner measurement register. -/
  | secExtend (dt : Nat) (r : Req)
  /-- OPERATOR_ENROL (R652). Mailbox command that adds an operator key and role. -/
  | operatorEnrol (dt : Nat) (r : Req)
  /-- OPERATOR_REMOVE (R652). Mailbox command that removes an operator entry, refusing the last ADMIN. -/
  | operatorRemove (dt : Nat) (r : Req)
  /-- PROVISION (R660). Mailbox command that installs the owner root key and first ADMIN, moving BLANK to PROVISIONED. -/
  | provision (dt : Nat) (r : Req)
  /-- TRANSFER_OWNER (R660). Mailbox command that replaces the owner and its secrets and increments OWNER_EPOCH. -/
  | transferOwner (dt : Nat) (r : Req)
  /-- SEC_LIFECYCLE (R660). Mailbox command that moves the lifecycle to FIELD or RETIRED. -/
  | secLifecycle (dt : Nat) (r : Req)
  /-- SEC_DEBUG_CHALLENGE (R664). Mailbox command that issues a debug unlock challenge. -/
  | secDebugChallenge (dt : Nat) (r : Req)
  /-- SEC_DEBUG_UNLOCK (R664). Mailbox command that checks the signed challenge and opens OWNER or VENDOR debug. -/
  | secDebugUnlock (dt : Nat) (r : Req)
  /-- FW_UPDATE (R643). Mailbox command that writes an image into slot B and verifies it. -/
  | fwUpdate (dt : Nat) (r : Req)
  /-- FW_TRIAL (R643). FW_UPDATE with TRIAL set sets SEC_BOOT.TRY_B and makes a warm reset into slot B. -/
  | fwTrial (dt : Nat) (r : Req)
  /-- FW_COMMIT (R644). Mailbox command that copies slot B to slot A, raises SVN_FLOOR and blows revoke fuses. -/
  | fwCommit (dt : Nat) (r : Req)
  /-- MACSEC_CAK_INSTALL (R635). Mailbox command that installs a MACsec CAK. -/
  | macsecCakInstall (dt : Nat) (r : Req)
  /-- GKEY_CONFIG (R639). Mailbox command that installs an IEC 62351 group-key entry. -/
  | gkeyConfig (dt : Nat) (r : Req)
  /-- SEC_POLICY (R671). Mailbox command that writes the security policy record. -/
  | secPolicy (dt : Nat) (r : Req)
  /-- SEC_POLICY_READ (R671). SEC_POLICY with ARG bit 31 set returns the policy record. -/
  | secPolicyRead (dt : Nat) (r : Req)
  /-- CONFIG_READBACK (R714). A configuration command with ARG bit 31 set returns its records filled with committed or current values. -/
  | configReadback (dt : Nat) (k : CfgCmd) (r : Req)
  /-- REG_READ (R701). Expert command that reads consecutive registers. -/
  | regRead (dt : Nat) (a : RegAddr) (r : Req)
  /-- REG_WRITE (R698). Expert command that writes consecutive registers, staging CMT fields. -/
  | regWrite (dt : Nat) (a : RegAddr) (r : Req)
  /-- MEM_READ (R701). Expert command that reads SRAM or DRAM; `r.unit` names the unit's word that an SRAM address holds, if any (DESIGN CHOICE, log 12). -/
  | memRead (dt : Nat) (r : Req)
  /-- MEM_WRITE (R701). Expert command that writes SRAM or DRAM; `r.unit` as in MEM_READ. -/
  | memWrite (dt : Nat) (r : Req)
  /-- EXM_WRITE_X (R186). Expert exact-match write in either mode and either descriptor. -/
  | exmWriteX (dt : Nat) (r : Req)
  /-- EXM_TABLE_CONFIG_X (R713). Expert table configuration that takes every descriptor field as written. -/
  | exmTableConfigX (dt : Nat) (r : Req)
  /-- TCAM_WRITE_X (R848). Expert TCAM write at a chosen index without the equal-priority check. -/
  | tcamWriteX (dt : Nat) (r : Req)
  /-- BUF_ALLOC (R715). Expert command that allocates a buffer of a pool. -/
  | bufAlloc (dt : Nat) (r : Req)
  /-- BUF_FREE (R324). Expert command that frees a buffer under the state and owner checks. -/
  | bufFree (dt : Nat) (r : Req)
  /-- REGISTER_WRITE (R9). A write to a register field with no behaviour of its own, acting by its type. -/
  | registerWrite (dt : Nat) (by_ : WrSrc) (at_ : Nat) (v : Word)
  /-- MBX_REQ_DB (R680). Request doorbell write that announces new requests on a mailbox channel. -/
  | mbxReqDb (dt : Nat) (ch : Fin 16) (pi : BitVec 16)
  /-- MBX_CPL_DB (R680). Completion doorbell write that frees completion slots. -/
  | mbxCplDb (dt : Nat) (ch : Fin 16) (ci : BitVec 16)
  /-- MBX_CHANNEL_DISABLE (R681). Clearing EN stops a channel with the effects of a host-interface reset on it alone. -/
  | mbxChannelDisable (dt : Nat) (ch : Fin 16)
  /-- TXN_LAPSE (R694). A transaction without a command for 10 s is aborted. -/
  | txnLapse (dt : Nat)
  /-- HOST_IF_RESET (R676). A function-level reset, hot reset or link loss resets the host interface only. -/
  | hostIfReset (dt : Nat)
  /-- HDMA_TX_DOORBELL (R705). Transmit doorbell that announces frames for injection through P40. -/
  | hdmaTxDoorbell (dt : Nat) (ring : Fin 8) (pi : BitVec 16)
  /-- HDMA_RX_DOORBELL (R707). Receive doorbell that posts host buffers for P40 delivery. -/
  | hdmaRxDoorbell (dt : Nat) (ring : Fin 8) (post : RxPost)
  /-- HDMA_TX_FRAME (R705). The device reads a transmit slot's frame, enters it into P40's pending queue and writes DONE. -/
  | hdmaTxFrame (dt : Nat) (ring : Fin 8) (t : TxSlot)
  /-- I2C_READ (R710). An I2C read of the target, latching multi-byte values at their first byte. -/
  | i2cRead (dt : Nat) (ptr : Option Byte) (n : Nat)
  /-- UART_COMMAND (R711). A console command accepted according to the debug state. -/
  | uartCommand (dt : Nat) (l : UartLine)
  /-- FRAME_HEAD_READY (R72). A received frame's first min(L, 512) bytes are in the MAC, so its buffer is requested and its bytes are written. -/
  | frameHeadReady (dt : Nat) (as : List Arrival)
  /-- BUF_SPILL_RETRY (R318). A requester that got none retries in the next larger pool, or an injector requests again, in the following cycle. -/
  | bufSpillRetry (dt : Nat)
  /-- ENGINE_DISPATCH (R73). A free engine is assigned the oldest head-ready frame, and the frame's generation and bank are sampled. -/
  | engineDispatch (dt : Nat) (pl : Fin 4) (badReads : Nat)
  /-- RECIPE_NOP (R84). Recipe instruction that does nothing. -/
  | recipeNop (dt : Nat) (pl : Fin 4) (e : Fin 8)
  /-- LDF (R84). Recipe instruction that loads a field of the window. -/
  | ldf (dt : Nat) (pl : Fin 4) (e : Fin 8)
  /-- LDV (R84). Recipe instruction that loads a variable number of bytes. -/
  | ldv (dt : Nat) (pl : Fin 4) (e : Fin 8)
  /-- MOVI (R84). Recipe instruction that loads an immediate. -/
  | movi (dt : Nat) (pl : Fin 4) (e : Fin 8)
  /-- ADD (R84). Recipe instruction that adds. -/
  | aluAdd (dt : Nat) (pl : Fin 4) (e : Fin 8)
  /-- SUB (R84). Recipe instruction that subtracts. -/
  | aluSub (dt : Nat) (pl : Fin 4) (e : Fin 8)
  /-- AND (R84). Recipe instruction that ANDs. -/
  | aluAnd (dt : Nat) (pl : Fin 4) (e : Fin 8)
  /-- OR (R84). Recipe instruction that ORs. -/
  | aluOr (dt : Nat) (pl : Fin 4) (e : Fin 8)
  /-- XOR (R84). Recipe instruction that XORs. -/
  | aluXor (dt : Nat) (pl : Fin 4) (e : Fin 8)
  /-- SHL (R84). Recipe instruction that shifts left. -/
  | aluShl (dt : Nat) (pl : Fin 4) (e : Fin 8)
  /-- SHR (R84). Recipe instruction that shifts right logically. -/
  | aluShr (dt : Nat) (pl : Fin 4) (e : Fin 8)
  /-- EXT (R84). Recipe instruction that extracts a bit field. -/
  | extract (dt : Nat) (pl : Fin 4) (e : Fin 8)
  /-- CMP (R84). Recipe instruction that sets flags from a subtraction. -/
  | cmp (dt : Nat) (pl : Fin 4) (e : Fin 8)
  /-- TST (R84). Recipe instruction that tests bits. -/
  | tst (dt : Nat) (pl : Fin 4) (e : Fin 8)
  /-- BR (R84). Recipe instruction that branches. -/
  | br (dt : Nat) (pl : Fin 4) (e : Fin 8)
  /-- BRX (R84). Recipe instruction that branches through a computed target. -/
  | brx (dt : Nat) (pl : Fin 4) (e : Fin 8)
  /-- CALL (R84). Recipe instruction that calls a subroutine. -/
  | call (dt : Nat) (pl : Fin 4) (e : Fin 8)
  /-- RET (R84). Recipe instruction that returns from a subroutine. -/
  | ret (dt : Nat) (pl : Fin 4) (e : Fin 8)
  /-- ADV (R84). Recipe instruction that advances the cursor. -/
  | adv (dt : Nat) (pl : Fin 4) (e : Fin 8)
  /-- PUSH (R84). Recipe instruction that pushes a header-stack entry and advances the cursor. -/
  | push (dt : Nat) (pl : Fin 4) (e : Fin 8)
  /-- DECBER (R93). Recipe instruction that decodes a BER tag and length. -/
  | decber (dt : Nat) (pl : Fin 4) (e : Fin 8)
  /-- CHKLEN (R94). Recipe instruction that checks a claimed length against FLEN or defers the check. -/
  | chklen (dt : Nat) (pl : Fin 4) (e : Fin 8)
  /-- LDS (R82). Recipe instruction that loads a special value. -/
  | lds (dt : Nat) (pl : Fin 4) (e : Fin 8)
  /-- KEY (R84). Recipe instruction that writes bits of a key buffer. -/
  | keyWrite (dt : Nat) (pl : Fin 4) (e : Fin 8)
  /-- META (R88). Recipe instruction that writes a metadata field. -/
  | metaWrite (dt : Nat) (pl : Fin 4) (e : Fin 8)
  /-- SIDE (R84). Recipe instruction that places a side record. -/
  | sideRec (dt : Nat) (pl : Fin 4) (e : Fin 8)
  /-- SVX (R96). Recipe instruction that places a Sampled Values side record. -/
  | svx (dt : Nat) (pl : Fin 4) (e : Fin 8)
  /-- PAT (R98). Recipe instruction that matches payload patterns over a region. -/
  | pat (dt : Nat) (pl : Fin 4) (e : Fin 8)
  /-- END (R100). Recipe instruction that ends the parse with an outcome and releases or discards side records. -/
  | endParse (dt : Nat) (pl : Fin 4) (e : Fin 8)
  /-- PARSE_WINDOW_WAIT_END (R139). An instruction waiting for window bytes 509 to 511 resumes once 516 bytes or the tail have arrived. -/
  | parseWindowWaitEnd (dt : Nat) (f : Nat) (more : Bytes)
  /-- MAC_ABORT (R849). A frame longer than 512 B is aborted by the MAC, ending its parse with DROP or ending its copies. -/
  | macAbort (dt : Nat) (f : Nat) (c : AbortCause)
  /-- BUF_OVERRUN (R319). A frame's bytes pass the end of its buffer, so it is discarded and its cutting-through copies end. -/
  | bufOverrun (dt : Nat) (f : Nat) (more : Bytes)
  /-- FRAME_TAIL (R141). A frame's tail arrives, so its late length check, tail-time duplicate decision and digest complete. -/
  | frameTail (dt : Nat) (f : Nat) (more : Bytes)
  /-- LOOKUP_RELEASE (R77). Parse results of the frames of one cycle are released to lookup, in dispatch order per port; p names the ports and the failing capture reads. -/
  | lookupRelease (dt : Nat) (p : Releases)
  /-- TCAM_WINDOW_START (R239). A new 1 µs window renews the search budget and starts waiting searches. -/
  | tcamWindowStart (dt : Nat) (pl : Fin 4)
  /-- AUTH_VERDICT (R298). The IEC 62351-6 verdict arrives, releasing or discarding the frame and its side records. -/
  | authVerdict (dt : Nat) (pl : Fin 4) (f : Nat) (capBad : Nat)
  /-- P43_INJECT (R152). Firmware injects a frame through P43, which is parsed anew. -/
  | p43Inject (dt : Nat) (pl : Fin 4) (bytes : Bytes)
  /-- SCHED_DECISION (R364). A port can start a copy, so the scheduler descends the tree, dequeues a copy and starts its rewrite and transmission. -/
  | schedDecision (dt : Nat) (node : Fin 64) (bad : CopyReads)
  /-- COPY_TX_DONE (R323). A copy's last byte is transmitted, releasing its reference and freeing the buffer at zero. -/
  | copyTxDone (dt : Nat) (node : Fin 64)
  /-- AGE_SWEEP (R340). The age sweep discards over-age frames at the head of every queue. -/
  | ageSweep (dt : Nat)
  /-- SHAPER_WAKE (R370). A shaper's wake time refills it. -/
  | shaperWake (dt : Nat) (lvl : Fin 4) (node : Nat)
  /-- SHAPER_SWEEP (R370). The background sweep refills every shaper. -/
  | shaperSweep (dt : Nat)
  /-- POLICER_SWEEP (R256). The sweep updates every policer without metering. -/
  | policerSweep (dt : Nat)
  /-- GATE_TRANSITION (R377). A gate list moves to its next entry. -/
  | gateTransition (dt : Nat) (g : GateId)
  /-- GCL_CYCLE_START (R384). A gate list starts a cycle, fixing its lengths and applying pending settings. -/
  | gclCycleStart (dt : Nat) (g : GateId)
  /-- PFC_RECEIVED (R55). A received PFC frame pauses the mapped classes. -/
  | pfcReceived (dt : Nat) (p : Fin 40) (enable : BitVec 8) (quanta : List (BitVec 16))
  /-- PFC_PAUSE_EXPIRY (R55). A received pause timer runs out and the classes resume. -/
  | pfcPauseExpiry (dt : Nat) (p : Fin 32) (n : Fin 8)
  /-- LINK_DOWN (R50). A link goes down, aborting transmission and optionally flushing FDB entries. -/
  | linkDown (dt : Nat) (p : Fin 40)
  /-- LINK_UP (R47). A link comes up with a matching peer. -/
  | linkUp (dt : Nat) (p : Fin 40) (speed : Nat) (mode : PeerMode)
  /-- SGMII_SPEED_CHANGE (R38). The PHY reports a new SGMII speed. -/
  | sgmiiSpeedChange (dt : Nat) (p : Fin 40) (speed : Nat) (half : Bool) (abortTx : Bool) (abortRx : Option Nat)
  /-- LPI_ENTRY (R60). An eligible port idle for 8 µs enters transmit low-power idle. -/
  | lpiEntry (dt : Nat) (p : Fin 40)
  /-- GENERATION_COMMIT (R167). A commit takes effect in one cycle, advancing CUR and applying staged entries, CMT fields and bank switches. -/
  | generationCommit (dt : Nat)
  /-- MAINT_SWEEP (R173). The maintenance sweep frees reclaimable entries, settles others and ends pin holds. -/
  | maintSweep (dt : Nat)
  /-- AGEING_TICK (R209). An ageing tick clears HIT or ages and removes learned entries. -/
  | ageingTick (dt : Nat) (t : Fin 256)
  /-- LEARN_WINDOW (R200). The learn engine takes the requests of one key and writes or moves the entry. -/
  | learnWindow (dt : Nat)
  /-- TCAM_SCRUB (R232). The scrub compares rows with their shadows and rewrites differing rows. -/
  | tcamScrub (dt : Nat) (pl : Fin 4)
  /-- THROTTLE_RISE (R236). A junction sensor reaching an entry temperature raises the throttle level. -/
  | throttleRise (dt : Nat) (temp : Int)
  /-- THROTTLE_FALL (R236). The exit condition held for 10 ms lowers the throttle level by one. -/
  | throttleFall (dt : Nat) (temp : Int)
  /-- DD_FORGET_SWEEP (R419). The sweep removes duplicate-discard entries unused for FORGET_MS. -/
  | ddForgetSweep (dt : Nat)
  /-- CMP_RESOLVE (R428). The lane comparator resolves a pending record. -/
  | cmpResolve (dt : Nat) (pl : Fin 4) (i : Nat)
  /-- RCVY_RESET_TIMEOUT (R424). RESET_MS without a passed frame sets TAKE_ANY. -/
  | rcvyResetTimeout (dt : Nat) (i : Fin 4096)
  /-- SUPERVISION_TX (R431). Firmware sends PRP and HSR supervision frames every 2 s. -/
  | supervisionTx (dt : Nat) (k : Fin 16)
  /-- BYP_DRV_ON (R433). A bypass driver turns on 10 ms after its conditions began to hold. -/
  | bypDrvOn (dt : Nat) (d : Fin 2)
  /-- REF25_LOST (R442). Loss of REF_25M puts the TIME PLL in holdover and raises TIME_REF_LOSS. -/
  | ref25Lost (dt : Nat)
  /-- TIME_STEP (R450). A write to TIME_STEP steps the device clock. -/
  | timeStep (dt : Nat) (ns : BitVec 32) (sec : BitVec 32)
  /-- TIME_SOURCE_LOST (R451). The selected time source falls silent and the clock enters HOLDOVER. -/
  | timeSourceLost (dt : Nat)
  /-- TRACEABLE_EXPIRY (R452). HOLD_S after HOLDOVER entry TRACEABLE clears. -/
  | traceableExpiry (dt : Nat)
  /-- PPS_IN_EDGE (R463). A PPS_IN edge is timestamped and accepted or rejected. -/
  | ppsInEdge (dt : Nat) (err : Nat)
  /-- IRIG_IN_FRAME (R462). An IRIG-B on-time edge and frame are decoded. -/
  | irigInFrame (dt : Nat) (f : IrigFrame)
  /-- PPS_OUT_EDGE (R464). At each whole second PPS_OUT rises and IRIG_OUT begins a frame. -/
  | ppsOutEdge (dt : Nat)
  /-- TIME_TXTS_READ (R459). A read of the two-step FIFO pops an entry. -/
  | timeTxtsRead (dt : Nat) (p : Fin 40)
  /-- TIME_NOW_READ (R449). A read of TIME_NOW word 0 latches all words. -/
  | timeNowRead (dt : Nat)
  /-- TIME_GRID_NOW_READ (R471). A read of TIME_GRID_NOW latches all words. -/
  | timeGridNowRead (dt : Nat)
  /-- GPIO_INPUT_ACCEPT (R467). An input change held for DEBOUNCE is accepted as an event. -/
  | gpioInputAccept (dt : Nat) (n : Fin 32)
  /-- GRID_ESTIMATE (R475). A reference estimate corrects or locks the grid-angle timebase. -/
  | gridEstimate (dt : Nat) (g : GridEst)
  /-- GRID_HOLDOVER_ENTRY (R474). 500 µs without a valid estimate puts the timebase in HOLDOVER. -/
  | gridHoldoverEntry (dt : Nat)
  /-- GRID_HOLDOVER_EXPIRY (R477). Holdover of 10 cycles expires into FALLBACK. -/
  | gridHoldoverExpiry (dt : Nat)
  /-- TIME_POINT_FIRE (R481). A PTP or grid time point is reached and fires. -/
  | timePointFire (dt : Nat) (i : Nat)
  /-- SV_SAMPLE_RECORD (R495). An SV side record is matched to its stream and placed. -/
  | svSampleRecord (dt : Nat)
  /-- STREAM_LOSS (R499). LOSS_US without a sample makes a stream LOST. -/
  | streamLoss (dt : Nat) (i : Fin 4096)
  /-- PHX_TICK (R503). At each 250 µs tick the engine computes P-class estimates. -/
  | phxTick (dt : Nat)
  /-- HARM_WINDOW_END (R508). A harmonic window ends and PHX_HARM_OUT is written. -/
  | harmWindowEnd (dt : Nat) (h : Fin 512)
  /-- PMU_REPORT (R514). A synchrophasor report is built and admitted through P42. -/
  | pmuReport (dt : Nat) (m : Fin 64)
  /-- PHX_BANK_WAKE (R492). A switched-off phasor bank comes on again. -/
  | phxBankWake (dt : Nat) (b : Fin 4)
  /-- REC_CLOSE (R522). A record closes and its descriptor enters the group FIFO. -/
  | recClose (dt : Nat) (g : Fin 64)
  /-- EVT_PASS (R544). An input update runs a pass over the conditions that name it. -/
  | evtPass (dt : Nat)
  /-- EVT_TIMER_EXPIRY (R541). A pickup or dropout timer expires and runs a pass. -/
  | evtTimerExpiry (dt : Nat) (c : Fin 2048)
  /-- SUB_LOSS (R535). HOLD_MS without a record makes a subscription LOST. -/
  | subLoss (dt : Nat) (i : Fin 1024)
  /-- GOOSE_FRAME_BUILD (R558). A GOOSE frame is built from the newest state when the publisher gets its buffer. -/
  | gooseFrameBuild (dt : Nat) (t : Fin 256)
  /-- GOOSE_RETRANSMIT (R555). A retransmission instant of a state arrives. -/
  | gooseRetransmit (dt : Nat) (t : Fin 256)
  /-- GPIO_PULSE_END (R563). A GPIO pulse width runs out and the pin drives 0. -/
  | gpioPulseEnd (dt : Nat) (n : Fin 32)
  /-- FSW_COMMIT (R566). A forwarding switch stages its writes and commits after any open transaction. -/
  | fswCommit (dt : Nat)
  /-- NIBEN_BLOCK_RX (R577). A Niben block is received and accepted or discarded with NAK. -/
  | nibenBlockRx (dt : Nat) (l : Fin 8) (block : Bytes)
  /-- NIBEN_REPLAY_TIMEOUT (R580). An unreleased block waits 2 ms and is resent, or the link goes down. -/
  | nibenReplayTimeout (dt : Nat) (l : Fin 8)
  /-- LINK_TRAINING_LOCK (R582). A Niben lane locked for 1 ms moves to CHECK. -/
  | linkTrainingLock (dt : Nat) (l : Fin 8)
  /-- HELLO (R582). A HELLO message is checked for id, attestation and versions. -/
  | helloMsg (dt : Nat) (l : Fin 8) (h : Hello)
  /-- FRAME (R599). A FRAME message is admitted locally or forwarded in transit. -/
  | frameMsg (dt : Nat) (l : Fin 8) (m : FrameMsg)
  /-- CREDIT (R596). A CREDIT message adds to a virtual output queue balance. -/
  | creditMsg (dt : Nat) (g : Nat) (cls : Fin 16) (bytes : Nat)
  /-- REQUEST (R598). A REQUEST message turns a source on or off at a credit generator. -/
  | requestMsg (dt : Nat) (src : Nat) (p : Fin 40) (cls : Fin 16) (on : Bool)
  /-- CREDIT_ISSUE (R598). A credit generator issues a CREDIT message. -/
  | creditIssue (dt : Nat) (p : Fin 40) (cls : Fin 16)
  /-- NOTICE (R604). A NOTICE message enters the learn queue. -/
  | noticeMsg (dt : Nat) (n : NoticeMsg)
  /-- FLUSH (R607). A FLUSH message runs an immediate flush of a global port. -/
  | flushMsg (dt : Nat) (g : Nat)
  /-- CONFIG (R611). A CONFIG message stages a batch configuration or carries a digest report. -/
  | configMsg (dt : Nat) (epoch : Nat) (seg : Nat) (last : Bool) (words : List Word) (report : Option (Nat × Bytes))
  /-- TIME (R615). A TIME message gives a two-way time offset. -/
  | timeMsg (dt : Nat) (l : Fin 8) (txTs rxTs : Nat)
  /-- TIME_COMPARE_TX (R615). Every 125 ms a TIME message is sent on each UP link. -/
  | timeCompareTx (dt : Nat)
  /-- LINK_STATE (R587). A LINK_STATE message updates routes. -/
  | linkStateMsg (dt : Nat) (src : Nat) (reach : List (Nat × Nat × Nat)) (ports : List Nat)
  /-- BATCH_COMMIT_AT_T (R611). At time point T agreeing members commit and the others become HELD. -/
  | batchCommitAtT (dt : Nat)
  /-- HELD_RESEND (R613). Every 1 s the leader resends the configuration to HELD members. -/
  | heldResend (dt : Nat)
  /-- MEMBER_UNREACHABLE (R620). A member unreachable for 50 ms is dropped. -/
  | memberUnreachable (dt : Nat) (m : Fin 512)
  /-- STARTER_RUN (R641). The starter verifies and runs a firmware slot or enters the safe state. -/
  | starterRun (dt : Nat) (slots : Option Image × Option Image) (bad : List StoreItem)
  /-- SEC_RNG_FAIL (R629). An entropy health test fails and key generation stops. -/
  | secRngFail (dt : Nat)
  /-- SESSION_LAPSE (R654). A SESSION_BEGIN without SESSION_FINISH lapses after 10 s. -/
  | sessionLapse (dt : Nat) (ch : Fin 16)
  /-- SESSION_IDLE_TIMEOUT (R657). A session without an accepted command for IDLE_S closes. -/
  | sessionIdleTimeout (dt : Nat) (ch : Fin 16)
  /-- HOLD_ENTRY (R734). VIN below the dip threshold for the dip filter time enters HOLD. -/
  | holdEntry (dt : Nat) (storeMv : Nat)
  /-- VIN_DIP_SHORT (R720). A dip shorter than the dip filter is carried and counted. -/
  | vinDipShort (dt : Nat)
  /-- SHED_STAGE (R735). The store falling to V_SHED runs a shed stage. -/
  | shedStage (dt : Nat) (storeMv : Nat)
  /-- CLOSURE (R739). The store at 40 V begins closure, signing the final journal entry and entering OFF. -/
  | closure (dt : Nat) (storeMv : Nat)
  /-- HOLD_EXIT (R740). VIN holding above the dip threshold for 20 ms ends HOLD. -/
  | holdExit (dt : Nat)
  /-- SHED_UNDO (R740). One shed stage is undone each 1 ms after HOLD ends. -/
  | shedUndo (dt : Nat)
  /-- VIN_LOW (R721). On a 24 V battery VIN below 18 V stops the charger and sets VIN_LOW. -/
  | vinLow (dt : Nat) (vinMv : Nat)
  /-- STORE_ARMED (R723). The store crossing 80 V or 76 V sets or clears ARMED. -/
  | storeArmed (dt : Nat) (storeMv : Nat)
  /-- STORE_FAULT (R724). The store missing 80 V within 25 s or a low estimate raises STORE_FAULT. -/
  | storeFault (dt : Nat) (storeMv : Nat) (low : Bool)
  /-- PWR_MEASURE_APPLY (R730). A measure whose budget and condition held for 1 ms is applied. -/
  | pwrMeasureApply (dt : Nat) (m : Measure)
  /-- PIPELINE_WAKE (R731). A gated pipeline wakes on signal detect, a commit or an injection. -/
  | pipelineWake (dt : Nat) (pl : Fin 4) (c : WakeCause)
  /-- POWER_ON (R753). VIN reaching the start threshold starts the converter and a cold start. -/
  | powerOn (dt : Nat) (vinMv : Nat) (high : Bool) (straps : BitVec 3) (cfg : StartCfg)
  /-- PORST_N (R745). PORST_N held low for 10 µs makes a cold reset. -/
  | porstN (dt : Nat) (straps : BitVec 3) (cfg : StartCfg)
  /-- WRST_N (R745). WRST_N held low for 10 µs makes a warm reset. -/
  | wrstN (dt : Nat) (straps : BitVec 3)
  /-- WARM_RESET_REQUEST (R746). PWR_RESET_REQ KIND 1 requests a warm reset. -/
  | warmResetRequest (dt : Nat) (tryB : Bool)
  /-- COLD_RESET_REQUEST (R746). PWR_RESET_REQ KIND 2 requests a cold reset. -/
  | coldResetRequest (dt : Nat) (tryB : Bool)
  /-- PROOF_DONE (R755). A function finishes proofing and posts READY. -/
  | proofDone (dt : Nat) (f : Fn)
  /-- PROOF_TIMEOUT (R756). A proof misses its limit and is retried or raises PROOF_FAIL. -/
  | proofTimeout (dt : Nat) (f : Fn)
  /-- THERMAL_SHUTDOWN (R845). A sensor at shutdown temperature stops the power stage. -/
  | thermalShutdown (dt : Nat) (die stage : Int)
  /-- THERMAL_RESTART (R846). All sensors at 90 °C or less with VIN up restart the module cold. -/
  | thermalRestart (dt : Nat) (hottest : Int) (vinMv : Nat)
  /-- FAULT_LINE_LATCH (R761). A raised error line latches and starts its reaction. -/
  | faultLineLatch (dt : Nat) (i : Fin 64) (stays : Bool) (at_ : Nat)
  /-- WATCH_EXPIRY (R768). A WATCH timer expires with the bit set and escalates one stage. -/
  | watchExpiry (dt : Nat) (i : Fin 64)
  /-- ESCALATION_CLEAR (R769). STAGE returns to 0 after 60 s without a latch of its line. -/
  | escalationClear (dt : Nat)
  /-- FAULT_WORD_CLEAR (R763). A W1C write clears latched bits of FAULT_WORD. -/
  | faultWordClear (dt : Nat) (w : Fin 2) (v : Word)
  /-- COLLECTOR_MISMATCH (R764). The two copies of the collector's state differ. -/
  | collectorMismatch (dt : Nat)
  /-- KICK (R770). A write of 0x4B49 to KICK restarts the watchdog. -/
  | kick (dt : Nat) (v : BitVec 16)
  /-- WDOG_WARN (R771). Half a period without a kick raises WDOG_WARN. -/
  | wdogWarn (dt : Nat)
  /-- WATCHDOG (R771). Watchdog expiry latches line 40 and makes a warm reset. -/
  | watchdog (dt : Nat)
  /-- SAFE_ENTRY (R773). A safe-state cause stops forwarding and asserts FAULT_N. -/
  | safeEntry (dt : Nat) (c : SafeCause)
  /-- JOURNAL_SIGN_TIMER (R779). Every 60 s with entries written SEC writes a SIGNED entry. -/
  | journalSignTimer (dt : Nat)
  /-- JOURNAL_ENTRY_WRITE (R776). A queued journal entry is written and chained. -/
  | journalEntryWrite (dt : Nat)
  /-- SOURCE_EVENT (R785). An interrupt source signal sets its pending bit. -/
  | sourceEvent (dt : Nat) (i : Fin 1024) (level : Bool)
  /-- CLAIM (R787). A read of CLAIM returns and activates the best deliverable source. -/
  | irqClaim (dt : Nat) (t : Fin 5)
  /-- COMPLETE (R788). A write of COMPLETE ends an active source. -/
  | irqComplete (dt : Nat) (t : Fin 5) (i : BitVec 10)
  /-- COALESCE_RELEASE (R789). A coalescing group releases its held events. -/
  | coalesceRelease (dt : Nat) (g : Fin 64)
  /-- STALE_DELIVERY (R790). A source waiting STALE_MS is delivered to FALLBACK. -/
  | staleDelivery (dt : Nat) (i : Fin 1024)
  /-- DRAM_REQUEST (R806). A DRAM controller serves its next chosen request. -/
  | dramRequest (dt : Nat) (stack : Fin 2) (cores : List (Nat × Bool)) (first : List Nat) (again : List (List Nat))
  /-- DRAM_CALIBRATION (R810). Once a second a controller runs ZQ and DQS calibration. -/
  | dramCalibration (dt : Nat) (stack : Fin 2)
  /-- CDC_FLUSH (R799). One side of a crossing enters reset and the live side flushes it. -/
  | cdcFlush (dt : Nat)
  /-- PERF_CTR_WRITE (R824). A write to PERF_CTR sets a counter from the next event. -/
  | perfCtrWrite (dt : Nat) (n : Fin 64) (w : Fin 2) (v : Word)
  /-- BUF_LOCK (R310). Writing 1 to BUF_CTL.LOCK fixes the pool split. -/
  | bufLock (dt : Nat) (v : Bool)
  /-- RC_READ (R393). A read of an RC field returns it and clears it. -/
  | rcRead (dt : Nat) (a : RegAddr)
  /-- GPIO_INPUT_EDGE (R467). A GPIO input pin changes level, starting its debounce or, when it reverts within DEBOUNCE, cancelling it and counting GPIO_BOUNCE. -/
  | gpioInputEdge (dt : Nat) (n : Fin 32) (level : Bool)
  /-- REF25_RESTORED (R442). The REF_25M signal returns after a loss, so REF25_LOST and the level source TIME_REF_LOSS deassert. -/
  | ref25Restored (dt : Nat)
  /-- ENTROPY_HEALTH_PASS (R629). A later entropy health test passes after a failure, so SEC again generates keys and nonces and RNG_FAIL clears. -/
  | entropyHealthPass (dt : Nat)
  /-- VIN_LOW_END (R721). VIN at or above 18.5 V for 20 ms on the 24 V class restarts the charger, clears VIN_LOW and releases WARN_N. -/
  | vinLowEnd (dt : Nat) (vinMv : Nat)
  /-- TARGET_WAKE (R790). A sleeping interrupt target wakes (a core leaves its low-power state, or the host leaves D3hot or enables MSI-X) and held sources become deliverable. -/
  | targetWake (dt : Nat) (t : Fin 5)
  /-- JTAG_ACCESS (R667). A JTAG instruction or debug-port access arrives on the test pins, including the unlock exchange, debug reads and writes, and EXTEST, which enters the safe state. -/
  | jtagAccess (dt : Nat) (o : JtagOp)
  /-- BATCH_STAGE_TIMEOUT (R612). A local host transaction still open 90 ms after a batch CONFIG arrived makes the member report no digest, so it enters HELD at T. -/
  | batchStageTimeout (dt : Nat)
  /-- DIGEST_REPORT_DEADLINE (R611). The leader's wait for digest reports ends at 100 ms, after which it chooses and sends the commit time point T. -/
  | digestReportDeadline (dt : Nat)
  /-- SAK_INSTALL_DONE (R636). A SAK installation into a port engine completes, at most 10 µs after firmware requested it, and the SA becomes usable. -/
  | sakInstallDone (dt : Nat) (p : Fin 32) (sa : SaInstall)
  /-- PMU_CLIENT_TIMEOUT (R702). A C37.118.2 client that has not acknowledged for 5 s is disconnected and its connection closes. -/
  | pmuClientTimeout (dt : Nat) (c : Fin 16)
  /-- DRAM_ROW_IDLE_CLOSE (R808). A row opened with hint OPEN that has been idle for 1 µs is closed. -/
  | dramRowIdleClose (dt : Nat) (stack : Fin 2) (row : Nat)
  /-- PEER_LPI_SIGNAL (R62). The link peer enters or leaves low-power idle signalling, which sets LPI_RX or, with EEE_EN clear, counts RX_SYMBOL_ERR. -/
  | peerLpiSignal (dt : Nat) (p : Fin 40) (on : Bool)
  deriving DecidableEq, Repr

end Sys2Proof
end

