-- ==== Sys2Proof/Decode.lean ====
section
/-! DEFINITION. The command a word spells by the bits of spec/opcode_table.json. No row of the table gives bits: commands reach
the module as register accesses, mailbox requests, frames and events, so a word spells none. -/
namespace Sys2Proof

/-- The command spelled by a word of n bits: none, since no row of the table gives bits. -/
def decodeTableWord (_nbits _w : Nat) : Option Instr := none

end Sys2Proof
end

