-- ==== Sys2Proof/Machine/Store.lean ====
section
/-! DEFINITION. Stores indexed by a number: strictly rising keys, and no entry that holds the value an absent index reads as,
so that equal stores are equal data. The machine's sparse state (registers, counters, table entries, memory) is kept in
them. -/
namespace Sys2Proof.Machine

/-- A store: index and value, rising indices. -/
abbrev Sparse (α : Type) := List (Nat × α)

/-- The entry at an index. -/
def sfind {α : Type} : Sparse α → Nat → Option α
  | [], _ => none
  | (k, v) :: t, i => if i = k then some v else sfind t i

/-- Set the entry at an index. -/
def sset {α : Type} : Sparse α → Nat → α → Sparse α
  | [], i, x => [(i, x)]
  | (k, v) :: t, i, x =>
    if i = k then (i, x) :: t else if i < k then (i, x) :: (k, v) :: t else (k, v) :: sset t i x

/-- Remove the entry at an index. -/
def sdel {α : Type} : Sparse α → Nat → Sparse α
  | [], _ => []
  | (k, v) :: t, i => if i = k then sdel t i else (k, v) :: sdel t i

/-- The value at an index, d where nothing is listed. -/
def sget {α : Type} (m : Sparse α) (d : α) (i : Nat) : α := (sfind m i).getD d

/-- Write a value at an index: writing the default removes the entry. -/
def sput {α : Type} [DecidableEq α] (m : Sparse α) (d : α) (i : Nat) (x : α) : Sparse α :=
  if x = d then sdel m i else sset m i x

/-- Set or remove an entry. -/
def sputO {α : Type} (m : Sparse α) (i : Nat) : Option α → Sparse α
  | none => sdel m i
  | some x => sset m i x

/-- Change the value at an index. -/
def smod {α : Type} [DecidableEq α] (m : Sparse α) (d : α) (i : Nat) (f : α → α) : Sparse α :=
  sput m d i (f (sget m d i))

/-- Keys rise strictly from above b. -/
def risingFrom {α : Type} (b : Nat) : Sparse α → Bool
  | [] => true
  | (k, _) :: t => b ≤ k && risingFrom (k + 1) t

/-- Canonical form: strictly rising keys. -/
def sparseWf {α : Type} (m : Sparse α) : Bool := risingFrom 0 m

/-- Canonical form of a store with a default: strictly rising keys, no entry equal to the default of its index. -/
def storeWf {α : Type} [DecidableEq α] (d : Nat → α) (m : Sparse α) : Bool :=
  risingFrom 0 m && m.all (fun e => decide (e.2 ≠ d e.1))

/-! Sets of numbers, kept as strictly rising lists. -/

/-- Insert into a rising list. -/
def ins : List Nat → Nat → List Nat
  | [], i => [i]
  | k :: t, i => if i = k then k :: t else if i < k then i :: k :: t else k :: ins t i

/-- Remove from a list. -/
def del (l : List Nat) (i : Nat) : List Nat := l.filter (· ≠ i)

/-- Membership set to b. -/
def mark (l : List Nat) (i : Nat) (b : Bool) : List Nat := if b then ins l i else del l i

/-! Bytes and words. -/

/-- Byte i of a string, 0 beyond its end. -/
def byteAt (b : Bytes) (i : Nat) : Nat := (b.getD i 0).toNat

/-- n bytes from i as a number, most significant byte first (network order, R7). -/
def beNat (b : Bytes) (i : Nat) : Nat → Nat
  | 0 => 0
  | n + 1 => byteAt b i * 256 ^ n + beNat b (i + 1) n

/-- n bytes of a number, most significant first. -/
def toBE (v : Nat) : Nat → Bytes
  | 0 => []
  | n + 1 => BitVec.ofNat 8 (v / 256 ^ n) :: toBE v n

/-- n bytes of a number, least significant first. -/
def toLE (v : Nat) : Nat → Bytes
  | 0 => []
  | n + 1 => BitVec.ofNat 8 v :: toLE (v / 256) n

/-- Bytes as a number, least significant first. -/
def ofLE : Bytes → Nat
  | [] => 0
  | b :: t => b.toNat + 256 * ofLE t

/-- A word of a number. -/
def w32 (v : Nat) : Word := BitVec.ofNat 32 v

/-- Word i of a list as a number, 0 beyond its end. -/
def wAt (l : List Word) (i : Nat) : Nat := (l.getD i 0).toNat

/-- n words from i as a number, first word lowest. -/
def wNat (l : List Word) (i : Nat) : Nat → Nat
  | 0 => 0
  | n + 1 => wAt l i + 4294967296 * wNat l (i + 1) n

/-- n words of a number, low word first. -/
def toW (v : Nat) : Nat → List Word
  | 0 => []
  | n + 1 => w32 v :: toW (v / 4294967296) n

/-- The bytes of words, each word in little-endian order (R7). -/
def wordsBytes (l : List Word) : Bytes := l.flatMap fun w => toLE w.toNat 4

/-- Bytes packed into words, padded with zero bytes (R712). -/
def bytesWords (b : Bytes) : List Word :=
  (List.range ((b.length + 3) / 4)).map fun i => w32 (ofLE ((b.drop (4 * i)).take 4))

/-- The bytes at positions lo to lo + n - 1 of a payload of words. -/
def payBytes (l : List Word) (lo n : Nat) : Bytes := ((wordsBytes (l.drop lo)).take n)

/-- Sign value of an n-bit number. -/
def sgn (v n : Nat) : Int := if v.testBit (n - 1) then (v % 2 ^ n : Nat) - (2 ^ n : Nat) else (v % 2 ^ n : Nat)

/-- An n-bit two's complement number. -/
def unsgn (v : Int) (n : Nat) : Nat := (v % (2 ^ n : Nat)).toNat

/-- Serial distance b − a modulo 2^n. -/
def serial (a b n : Nat) : Nat := (b + 2 ^ n - a % 2 ^ n) % 2 ^ n

/-- Ceiling of a division. -/
def cdiv (a b : Nat) : Nat := (a + b - 1) / b

/-- Replace entry i of a list. -/
def lset {α : Type} (l : List α) (i : Nat) (x : α) : List α := l.set i x

/-- Splice bytes into a string at a position. -/
def splice (b : Bytes) (i : Nat) (x : Bytes) : Bytes := b.take i ++ x ++ b.drop (i + x.length)

/-- n bytes of a string, with zeros past its end. -/
def fit (n : Nat) (b : Bytes) : Bytes := (b ++ List.replicate n 0).take n

/-- Two regions of buckets overlap. -/
def overlaps (a b : Nat × Nat) : Bool := decide (a.1 < b.1 + b.2) && decide (b.1 < a.1 + a.2)

end Sys2Proof.Machine
end

