-- ==== Sys2Proof/Machine/Types.lean ====
section
/-! DEFINITION. The parts the state is made of, unit by unit: plain data, each type beside the rule that gives it. -/
namespace Sys2Proof.Machine

/-! ## Frames and recipe engines (chapters 01 to 04, 08) -/

/-- A side record (R96, R130): Sampled Values, or a SIDE record of a kind. -/
inductive Side where
  | sv (key smpCnt smpSynch asdu : Nat) (pairs : List Nat)
  | ev (kind index a b : Nat)
  deriving DecidableEq, Repr

/-- A side record delivered to the phasor or event engine, with the port, timestamp and generation of its frame (R131) and the
FAILED flag of R298. -/
structure Delivered where
  side   : Side
  port   : Nat
  ts     : Nat
  tsPtp  : Nat
  gen    : Nat
  failed : Bool := false
  frame  : Nat := 0                 -- the frame it came with
  pl     : Nat := 0                 -- the pipeline that released it
  ready  : Bool := true             -- its SUB tag is known (R532)
  sub    : Option Nat := none
  hold   : Bool := false            -- its frame's verdict is awaited (R298)
  deriving DecidableEq, Repr

/-- Where a frame is on its path. -/
inductive Phase where
  | waitBuf (pool : Nat)     -- its requester received none and retries in this pool (R318)
  | pending                  -- in the parse pending queue of its port (R75)
  | parsing (e : Nat)        -- in a recipe engine
  | ended                    -- results in the release queue (R77)
  | verdict                  -- lookups done, IEC 62351-6 verdict awaited (R298)
  | tailWait                 -- lookups done, decision at the tail awaited (R414)
  | admitted                 -- admission decided
  deriving DecidableEq, Repr

/-- What resolution gives a frame (R242, R243). -/
structure Res where
  dest     : Option Nat := none     -- DEST, or group when group is set
  group    : Bool := false
  drop     : Bool := false
  copyP43  : Bool := false
  ctDeny   : Bool := false
  lock     : Bool := false
  cls      : Nat := 0
  policer  : Option Nat := none
  mirror   : Option Nat := none
  filter   : Option Nat := none
  counter  : Option Nat := none
  rewrite  : Option Nat := none
  colour   : Nat := 0               -- 0 green, 1 yellow, 2 red
  markDei  : Bool := false
  noLookup : Bool := false          -- P42 publication: no lookup ran (R22)
  queue    : Option Nat := none     -- queue stored in the template of a publication (R354)
  noFabric : Bool := false          -- a FRAME message: no copy goes back into the fabric (R602)
  deriving DecidableEq, Repr

/-- A redundant frame as the redundancy unit recognises it (R411, R412). -/
structure Red where
  pair  : Nat
  lane  : Nat                       -- 0 PORT_A, 1 PORT_B
  hsr   : Bool
  seq   : Nat
  first : Bool                      -- DELIVER decision
  ring  : Bool                      -- forwarded to the other ring port
  rec_  : Option Nat := none        -- its state record PRED_DD
  deriving DecidableEq, Repr

/-- A group-key entry (Table 15-2). -/
structure GKey where
  alg    : Nat
  from_  : Nat
  until_ : Nat
  key    : Bytes
  deriving DecidableEq, Repr

/-- A requested verification (R298, R299): the keys as it found them (R639), and whether it is beyond HMAC capacity. -/
structure AuthReq where
  keys : List GKey
  overload : Bool
  deriving DecidableEq, Repr

/-- A number that an RTAG_PUSH of a copy on a lane of a pair took from a generator (R287). -/
structure RtagNo where
  pair : Nat
  lane : Nat
  gen  : Nat
  num  : Nat
  deriving DecidableEq, Repr

/-- A frame in the device. -/
structure Frame where
  port     : Nat                    -- ingress local port
  pl       : Nat                    -- pipeline that parses it
  bytes    : Bytes                  -- as the MAC delivers it, FCS left out; what has arrived so far
  long     : Bool := false          -- longer than 512 B
  tail     : Bool := true           -- the tail has arrived: FLEN is known
  maxFrame : Nat := 16384           -- MAX_FRAME in force at its start-of-frame delimiter (R47)
  ts       : Nat := 0               -- ingress timestamp, FRC ns
  tsPtp    : Nat := 0               -- ingress timestamp on PTP, ns
  tsSub    : Nat := 0
  untrace  : Bool := false
  suspect  : Bool := false
  buf      : Option Nat := none     -- BUF_ID (R312)
  pool0    : Nat := 0               -- first pool tried (R318)
  phase    : Phase := .pending
  headSeq  : Nat := 0               -- order of head-ready
  disp     : Nat := 0               -- order of dispatch (R77)
  gen      : Nat := 0
  bank     : Nat := 0
  outcome  : Nat := 0
  reason   : Nat := 0
  exc      : Nat := 0               -- EXCEPTION of Table 4-9
  icnt     : Nat := 0
  hdrs     : List Nat := []
  fields   : Sparse Nat := []       -- metadata (R125)
  kb       : List Nat := [0, 0, 0, 0]
  sides    : List Side := []
  fwd      : Bool := false           -- lookups run on it (R143, R146)
  slow     : Nat := 0                -- to P43: 0 no, 1 the frame itself, 2 a copy (R143)
  maxE     : Option (Nat × Nat) := none   -- largest deferred E and its reason (R140)
  exactE   : Option (Nat × Nat) := none
  macsec   : Bool := false          -- received on a controlled port in use (R64)
  icv      : Option SecTag := none  -- its SecTAG while the ICV waits for the tail
  aborted  : Option AbortCause := none    -- a MAC abort that waits for a boundary (R104)
  overrun  : Bool := false          -- a buffer overrun that waits for a boundary
  readyAt  : Nat := 0               -- instant at which its buffer was granted and its held bytes written (R72)
  off      : Nat := 0               -- SecTAG and ICV bytes the MAC took off it (R89)
  refs     : Nat := 0               -- copies that hold the buffer (R323)
  lossless : Option (Nat × Nat) := none   -- port and priority whose ADM_ING_OCC it charges
  blocks   : Nat := 1               -- k of R329
  res      : Option Res := none
  red      : Option Red := none
  owner    : Nat := 0               -- owner tag of its buffer (R321)
  src      : Nat := 0               -- batch-global ingress port
  capBad   : Nat := 0               -- how many reads of it by the capture writer mismatch (R327)
  lateBad  : Bool := false          -- it has failed the late check (R142)
  authFail : Bool := false          -- FAILED: passed on under ACTION 1 (R296)
  auth     : Option AuthReq := none -- its verification has been requested
  rtags    : List RtagNo := []      -- R-tag numbers that its copies on pairs have taken (R287)
  looked   : Bool := false          -- lookups done
  count    : List Nat := []         -- counter pairs that wait for its length (R815)
  sub      : Option Nat := none     -- SUB of its first EVENT_KEY hit with SUB_VALID (R532)
  held     : Bool := false          -- the lane comparator holds it (R427)
  transit  : Option FrameMsg := none    -- a FRAME message for another member (R600)
  pass     : Bool := true           -- the redundancy decision lets its SAN-side copies go on
  ring     : Option Nat := none     -- ring port it is forwarded to (R422)
  deriving DecidableEq, Repr

/-- A frame longer than 512 B that left the device before its tail: what its tail still counts (R66, R106, R849). -/
structure Tail where
  port     : Nat
  pl       : Nat
  maxFrame : Nat
  len      : Nat                    -- bytes received so far
  icnt     : Nat := 0               -- slots of its parse
  parsed   : Bool := false          -- it reached END
  maxE     : Option (Nat × Nat) := none   -- deferred length checks of its parse (R140)
  exactE   : Option (Nat × Nat) := none
  off      : Nat := 0               -- SecTAG and ICV bytes the MAC took off it
  count    : List Nat := []         -- counter pairs that wait for its length (R815)
  deriving DecidableEq, Repr

/-- Redundancy treatment of a copy at stage 5 (R404 to R409). -/
inductive RedOut where
  | plain                           -- no pair
  | prp (lane seq : Nat)
  | hsr (netId lane seq : Nat)
  | quad (netId lane : Nat)         -- between the rings of a QuadBox: only PathId changes (R408)
  | keep                            -- ring forwarding: the received tag stays (R409)
  deriving DecidableEq, Repr

/-- A copy of a frame in a queue. -/
structure Copy where
  frame   : Nat
  port    : Nat                     -- destination local port, or 44 + l for a Niben link
  cls     : Nat
  colour  : Nat := 0
  k       : Nat := 1
  shared  : Bool := false           -- charged to ADM_SHARED_OCC
  rewrite : Option Nat := none
  markDei : Bool := false
  red     : RedOut := .plain
  at_     : Nat := 0                -- admission instant, FRC ns
  ct      : Bool := false           -- may cut through
  p43src  : Nat := 0                -- SOURCE of Table 4-9
  reason  : Nat := 0                -- REASON of Table 4-9
  exc     : Nat := 0
  meta7   : Option Nat := none      -- replacement of META7 (R429)
  dest    : Option Nat := none      -- batch-global destination of a fabric copy
  voq     : Option Nat := none      -- virtual output queue that holds it
  transit : Bool := false           -- on its way from one Niben link to another (R600)
  deriving DecidableEq, Repr

/-- What stage 6 protects a copy with (R290): key, packet number, the bytes sent in clear and the bytes protected. -/
structure SecTx where
  key   : Bytes
  pn    : Nat
  head  : Bytes
  plain : Bytes
  deriving DecidableEq, Repr

/-- The copy an L0 node is transmitting. -/
structure Tx where
  copy    : Copy
  q       : Nat
  bytes   : Bytes                   -- the rewritten copy, FCS left out
  len     : Nat                     -- L', FCS included
  start   : Nat
  dur     : Nat                     -- ns on the wire
  ct      : Bool := false           -- cutting through: the tail has not arrived
  fail    : Option Nat := none      -- byte of the copy at which a read of its buffer fails for good (R327)
  took    : Nat := 0                -- bytes of its frame that the rewrite has read; later ones follow unchanged
  sec     : Option SecTx := none    -- its protection by stage 6
  draws   : List Nat := []          -- numbers drawn by its rewrite, in order (R287, R302)
  trailer : Bytes := []             -- PRP trailer of the copy (R288)
  deriving DecidableEq, Repr

/-- A frame that left at a port, with the FCS bytes sent after it. -/
structure Sent where
  node  : Nat
  bytes : Bytes
  good  : Bool                      -- false: it ended with an inverted FCS
  ts    : Nat
  fcs   : Bytes := []
  deriving DecidableEq, Repr

/-- A recipe engine (Table 3-4). -/
structure Engine where
  frame : Nat
  w     : List Nat                  -- W0 to W15
  pc    : Nat
  cur   : Nat := 0
  z     : Bool := false
  c     : Bool := false
  n     : Bool := false
  o     : Bool := false
  calls : List Nat := []            -- newest first
  icnt  : Nat := 0
  since : Nat := 0
  waitW : Bool := false             -- waits under R139
  done  : Bool := false             -- ended, kept for want of lookup space (R239)
  deriving DecidableEq, Repr

/-- A recipe object in a bank: version, compatibility base and digest (R117, R118). -/
structure BankObj where
  version : Nat
  compat  : Nat
  digest  : Bytes
  deriving DecidableEq, Repr

/-- A LOAD_RECIPE in progress (R115, R715). -/
structure Load where
  plMask : Nat
  next   : Nat
  data   : List Word
  deriving DecidableEq, Repr

/-- Port state that is not a register (R36 to R62). -/
structure Port where
  peer      : Option LinkPeer := none   -- the peer present on the link
  maxWas    : List (Nat × Nat) := []    -- commits that changed MAX_FRAME, newest first: instant and value before (R47)
  txIdle    : Nat := 0              -- since when the transmit side is idle
  lpiAt     : Nat := 0              -- entry into low-power idle
  lpiNs     : Nat := 0              -- ns in it not yet counted in LPI_TX_TIME_US
  down      : Bool := false         -- powered down by a shed stage (R736)
  protAt    : Nat := 0              -- last frame of a protection class
  deriving DecidableEq, Repr

/-! ## Exact match, LPM, TCAM (chapters 05, 06) -/

/-- An exact-match entry (Table 5-2) with the pinning instant of R205. -/
structure Entry where
  key     : Nat
  from_   : Nat
  until_  : Nat := 0
  table   : Nat
  settled : Bool := false
  retired : Bool := false
  static_ : Bool := false
  learned : Bool := false
  pinned  : Bool := false
  hit     : Bool := false
  age     : Nat := 0
  desc    : Nat := 0
  result  : Nat := 0
  pinAt   : Nat := 0
  deriving DecidableEq, Repr

/-- A learn request (R197). -/
structure Learn where
  table   : Nat
  key     : Nat
  gport   : Nat
  port    : Nat
  ts      : Nat
  ptp     : Nat := 0                -- learn time on PTP
  notice  : Bool := false           -- from a NOTICE message (R604)
  drop    : Bool := false           -- a WITHDRAW
  suspect : Bool := false
  deriving DecidableEq, Repr

/-- A flush request (R191). -/
structure Flush where
  table   : Nat
  gport   : Nat
  staged  : Bool
  static_ : Bool
  ch      : Option Nat := none      -- mailbox channel that waits for it
  tell    : Bool := false           -- a FLUSH message goes to the batch (R607)
  deriving DecidableEq, Repr

/-- A firmware rehash (R184): table and the descriptor that holds its copies, kept until firmware has cleared the old region. -/
structure Rehash where
  table : Nat
  desc  : Nat
  deriving DecidableEq, Repr

/-- An LPM prefix entry (Table 5-7). -/
structure Lpm where
  pfx     : Nat
  len     : Nat
  v6      : Bool
  vrf     : Nat
  from_   : Nat
  until_  : Nat := 0
  settled : Bool := false
  retired : Bool := false
  result  : Nat
  deriving DecidableEq, Repr

/-- A TCAM row (Table 6-1) with its shadow (R229). -/
structure Row where
  key     : Nat
  mask    : Nat
  prio    : Nat
  shKey   : Nat
  shMask  : Nat
  shPrio  : Nat
  shBad   : Bool := false           -- uncorrectable shadow error: excluded (R233)
  from_   : Nat
  until_  : Nat := 0
  settled : Bool := false
  retired : Bool := false
  action  : Nat                     -- words 42 to 45
  deriving DecidableEq, Repr

/-- Settings of a gate list: the six words of GCL_CTL or QCI_GATE_CTL (Table 9-6, Table 6-10). -/
structure GateCfg where
  enable  : Bool := false
  grid    : Bool := false
  list    : Nat := 0
  guard   : Bool := false
  preOpen : Bool := true
  preIpv  : Nat := 0
  preIpvV : Bool := false
  lenM1   : Nat := 0
  baseLo  : Nat := 0
  baseSec : Nat := 0
  cycleNs : Nat := 0
  deriving DecidableEq, Repr

/-- A list in force: its settings, the FRC instant it took over, and for a grid list the cycle in progress (R384): FRC start,
length and ends in ns. -/
structure Cyc where
  cfg   : GateCfg := {}
  since : Nat := 0
  began : Bool := false
  start : Nat := 0
  tc    : Nat := 0
  ends  : List Nat := []
  deriving DecidableEq, Repr

/-- A gate (R377 to R388): the list in force, the one before it, and pending settings with the point at which they take over, a
PTP instant or a grid point. -/
structure Gate where
  cyc    : Cyc := {}
  prev   : Cyc := {}
  pend   : Option GateCfg := none
  pendAt : Nat := 0
  first  : Nat := 0                 -- grid point of the first cycle start of a grid list that has not begun
  gridSt : Nat := 3                 -- GRID of its status register (R376)
  wild   : Bool := false            -- its gate states are undefined until the next list switch (R399)
  deriving DecidableEq, Repr

/-- A policer (R254) with the settings in force since its last update (R258). -/
structure Pol where
  tc    : Nat := 0
  te    : Nat := 0
  rc    : Nat := 0
  re    : Nat := 0
  last  : Nat := 0
  cfg   : List Word := []           -- words 0 to 4 in force; none since reset: every bucket starts full (R256)
  fill  : Bool := true              -- turned on from off: the next update fills both buckets (R258)
  deriving DecidableEq, Repr

/-- One version of a versioned table entry (R269); settled once OLD is at or after its FROM. -/
structure Ver where
  from_   : Nat
  words   : List Word
  settled : Bool := false
  deriving DecidableEq, Repr

/-! ## MACsec (chapter 07) -/

/-- A transmit SA: key and next packet number; usable from the first commit that makes its TX_AN current after its installation (R292,
R636). -/
structure TxSa where
  key    : Bytes
  nextPn : Nat := 1
  usable : Bool := false
  deriving DecidableEq, Repr

/-- A receive SA (R293), by port, SCI and association number (`saKey`): its key and the number after the highest packet number accepted. -/
structure RxSa where
  key    : Bytes := []
  nextPn : Nat := 1
  deriving DecidableEq, Repr

/-- A shaper (R368) with the settings in force since its last refill (R371). -/
structure Shaper where
  tok   : Int := 0
  rem   : Nat := 0
  last  : Nat := 0
  rate  : Nat := 0
  burst : Nat := 0
  en    : Bool := false
  wake  : Option Nat := none
  stat  : Int := 0                  -- tokens at the last refill
  deriving DecidableEq, Repr

/-- DWRR state of a child (R364). -/
structure Drr where
  deficit : Int := 0
  turn    : Bool := false
  deriving DecidableEq, Repr

/-! ## Redundancy (chapter 10) -/

/-- A duplicate-discard window (R417). -/
structure Win where
  h     : Nat := 0
  hist  : Nat := 0
  valid : Bool := false
  deriving DecidableEq, Repr

/-- A state record PRED_DD (R417). -/
structure Dd where
  deliver : Win := {}
  fwdA    : Win := {}
  fwdB    : Win := {}
  used    : Nat := 0
  deriving DecidableEq, Repr

/-- A comparator record (R427); the second copy's digest once it has arrived. -/
structure Cmp where
  pair   : Nat
  dd     : Nat
  seq    : Nat
  lane   : Nat
  digest : Nat
  at_    : Nat
  second : Option Nat := none
  frame2 : Option Nat := none
  deriving DecidableEq, Repr

/-- A recovery function (R424). -/
structure Rcvy where
  rsn     : Nat := 0
  hist    : Nat := 0
  takeAny : Bool := true
  at_     : Nat := 0
  deriving DecidableEq, Repr

/-! ## Host interface and security (chapters 15, 16) -/

/-- A completion written to a completion ring (Table 16-5) with its output words. -/
structure Cpl where
  index  : Nat
  phase  : Bool
  status : Nat
  cookie : Word
  result : Nat
  out    : Bytes
  tag    : Bytes
  deriving DecidableEq, Repr

/-- Why a mailbox command waits. -/
inductive Wait where
  | commit (batch : Bool)           -- completes at GENERATION_COMMIT
  | commitDone (result : Nat) (out : Bytes) -- a command of its own transaction, its result decided (R693)
  | flush (removed left : Nat)      -- completes when its walks end (R193)
  | bank (mask : Nat)               -- LOAD_RECIPE waits for BANK_BUSY (R116)
  | rw (recs : List (VTab × Nat × Nat × List Word))   -- writes held under R271
  | proof (line : Nat)              -- UNFENCE waits for its proof (R767)
  | mem (left : Nat) (bad : Bool) (out : Bytes)   -- MEM_READ waits for its DRAM blocks (R813)
  | clock (a : RegAddr)             -- an expert access hangs until the clock returns (R716)
  deriving DecidableEq, Repr

/-- A mailbox channel (R680 to R689). -/
structure Chan where
  pi    : Nat := 0                  -- announced request index
  cplCi : Nat := 0
  busy  : Option (Req × Wait) := none
  deriving DecidableEq, Repr

/-- A session (R654). -/
structure Session where
  sid     : Nat
  op      : Nat
  key     : Bytes
  counter : Nat := 0
  last    : Nat := 0                -- instant of the last accepted command
  deriving DecidableEq, Repr

/-- A session being opened (R654). -/
structure Opening where
  sid : Nat
  op  : Nat
  t1  : Bytes
  sd  : Bytes
  xd  : Bytes
  xh  : Bytes
  at_ : Nat
  deriving DecidableEq, Repr

/-- The open transaction (R692). -/
structure Txn where
  id      : Nat
  ch      : Nat
  sid     : Nat
  batch   : Bool := false
  last    : Nat := 0                -- instant of its last command
  commit  : Bool := false           -- COMMIT has been received
  own     : Bool := false           -- a command's own transaction (R693)
  deriving DecidableEq, Repr

/-- An operator: public key and role 0 OBSERVER, 1 OPERATOR, 2 ADMIN (R652). -/
structure Operator where
  key  : Bytes
  role : Nat
  deriving DecidableEq, Repr

/-- A logged extension (R647). -/
structure Meas where
  reg    : Nat
  typ    : Nat
  digest : Bytes
  frc    : Nat
  deriving DecidableEq, Repr

/-- The security domain (chapter 15). -/
structure Sec where
  lifecycle  : Nat := 0
  udsKill    : Bool := false
  svnFloor   : Nat := 0
  revoked    : Nat := 0
  debug      : Nat := 0
  rngFail    : Bool := false
  ownerEpoch : Nat := 0
  ownerRoot  : Bytes := []
  operators  : Sparse Operator := []
  policy     : Nat := 900
  sessions   : Sparse Session := []
  opening    : Sparse Opening := []
  fails      : Sparse (List Nat) := []    -- instants of failed verifications by operator
  lockout    : Sparse Nat := []           -- instant at which the lockout ends
  caks       : Sparse (Bytes × Bytes) := []   -- CKN and CAK by slot
  gkeys      : Sparse (List GKey) := []   -- by key identifier
  meas       : List Bytes := List.replicate 16 (List.replicate 64 0)
  log        : List Meas := []
  logLost    : Bool := false
  challenge  : Option (Nat × Bytes × Nat) := none   -- level, challenge, instant
  slotA      : Option Image := none
  slotB      : Option Image := none
  running    : Option Image := none
  deriving DecidableEq, Repr, Inhabited

/-- A P40 ring beside its registers (R704 to R708). -/
structure Ring where
  pi     : Nat := 0                 -- announced producer index
  changed : List Nat := []          -- posted receive slots the host has changed (R717)
  done   : List (Nat × Nat) := []   -- transmit slots written DONE: index and result
  held   : Option TxSlot := none
  deriving DecidableEq, Repr

/-- The PCIe configuration header and what the function supports (R673, R674). -/
structure PciFn where
  vendor     : Nat := 0x1FD4
  device     : Nat := 0x4816
  subVendor  : Nat := 0x1FD4
  subsystem  : Nat := 0x0001
  cls        : Nat := 0x0280
  bar0Size   : Nat := 1048576       -- 64 bits, not prefetchable; no other BAR
  maxPayload : Nat := 512
  maxRead    : Nat := 4096
  vectors    : Nat := 64            -- MSI-X; no INTx, MSI or ATS
  deriving DecidableEq, Repr, Inhabited

/-- A connection of the synchrophasor server (R702): the instant of its last acknowledgement, its client's address and port, and the IDCODEs
whose data it has switched on. -/
structure PmuConn where
  at_ : Nat
  key : Nat
  on  : List Nat := []
  deriving DecidableEq, Repr

/-- A frame delivered to the host (R708): ring, first slot, words 3 to 7, bytes. -/
structure HostFrame where
  ring  : Nat
  slot  : Nat
  slots : Nat
  words : List Word
  bytes : Bytes
  deriving DecidableEq, Repr

/-- A frame delivered to the management cores (R149): descriptor and bytes. -/
structure SlowFrame where
  desc  : List Word
  bytes : Bytes
  deriving DecidableEq, Repr

/-- An overflow of a counter in skid mode whose sample is still to come (R821). -/
structure PerfSkid where
  ctr  : Nat                        -- the counter
  left : Nat                        -- its events up to the one that is sampled
  skid : Nat                        -- SKID of the record
  at_  : Nat                        -- when it overflowed
  deriving DecidableEq, Repr

/-! ## Power, faults, interrupts (chapters 17, 18) -/

/-- Supply and power state (chapter 17). -/
structure Pwr where
  on       : Bool := true           -- the power stage runs
  high     : Bool := false          -- VNOM_SEL high: 24 V class
  vin      : Nat := 0               -- mV
  store    : Nat := 0               -- mV
  cap      : Nat := 0               -- nF; 0 before the first estimate (R724)
  power    : Nat := 0               -- input power in 10 mW units
  chargeAt : Option Nat := none     -- start of charging
  from40   : Option (Nat × Nat) := none  -- when the charging store was first reported at or above 40 V, and its voltage (R724)
  closing  : Bool := false
  shedDone : Nat := 0               -- completed stages, in order
  shedFns  : List Nat := []         -- their functions, newest first
  undoAt   : Option Nat := none     -- last undo step
  deferred : Nat := 0               -- reset deferred by HOLD: 0 none, else its cause, plus 16 with TRY_B (R747)
  onStore  : Bool := false          -- the converter runs from the store (R734)
  lost     : Bool := false          -- the final journal entry was not written (R744, R845)
  phxWas   : Bool := false          -- PHX is READY again when QUIESCE or its shedding ends
  hot      : Int := 0               -- hottest junction, 1/256 degree C
  plWas    : Bool := false          -- firmware has loaded bank 0, the pools and the tree since the reset
  splitStat : Nat := 0              -- BUF_BAD_SPLIT where the split of the configuration area was refused (R311)
  thermal  : Bool := false          -- stopped by thermal shutdown
  gated    : List Nat := []         -- gated pipelines
  quiesce  : Bool := false
  banksOff : List Nat := []         -- phasor banks switched off
  dramRef  : Bool := false          -- DRAM stack 1 in self-refresh
  budgetAt : Sparse Nat := []       -- since when PWR_BUDGET[f] reaches n µs, by f + 4n
  okAt     : Sparse Nat := []       -- since when a measure's budget and condition hold, by its code (R730)
  wake     : List Nat := []         -- gated pipelines that a commit wakes (R731, R733)
  deriving DecidableEq, Repr, Inhabited

/-- Output pins of the module that the device drives. -/
structure Pins where
  okN    : Bool := false            -- asserted
  warnN  : Bool := false
  faultN : Bool := false
  byp    : List Nat := []           -- bypass drivers that are on
  deriving DecidableEq, Repr, Inhabited

/-- A journal entry (Table 18-7). -/
structure JEntry where
  typ  : Nat
  code : Nat
  seq  : Nat
  frc  : Nat
  ptp  : Nat
  unt  : Bool
  data : Bytes
  deriving DecidableEq, Repr

/-- The journal (R776 to R780). -/
structure Journal where
  seq     : Nat := 0                -- SEQ of the next entry
  chain   : Bytes := []             -- J
  queue   : List (Nat × Nat × Nat × Nat) := []  -- type, code, FRC, PTP of the entries waiting
  dropped : Nat := 0                -- discarded since the last DROPPED entry
  newest  : List JEntry := []       -- retained entries, newest first
  signAt  : Nat := 0                -- last SIGNED entry
  fresh   : Bool := false           -- entries written since it
  deriving DecidableEq, Repr, Inhabited

/-- The fault collector beside its registers (chapter 18). -/
structure Flt where
  raised : List Nat := []           -- lines raised in this step and not yet latched
  cond   : List Nat := []           -- lines whose condition persists
  watch  : Sparse Nat := []         -- expiry instant of a line's WATCH timer
  lastAt : Sparse Nat := []         -- last latch of a line
  escAt  : Nat := 0                 -- instant of STAGE 2
  fenced : List Nat := []           -- fenced units, each by its first line
  proof  : Sparse Nat := []         -- units that proof under UNFENCE, with the deadline; 0: the line latched again
  copyOk : Bool := true
  wdogAt : Option Nat := none       -- last restart of the watchdog
  wdogTop : Bool := false           -- the 30 s period of R771
  warned : Bool := false
  modeSet : Bool := false           -- MODE has been applied since the last cold reset (R760)
  safe   : Bool := false
  cold   : Bool := false            -- left only by a cold reset
  deriving DecidableEq, Repr, Inhabited

/-- An entry of the MSI-X table (R674, R675): message address and data, and the mask bit, set after reset (PRESUMED, log 240). -/
structure Msix where
  addr   : Nat := 0
  data   : Nat := 0
  masked : Bool := true
  deriving DecidableEq, Repr

/-- The interrupt controller beside its registers (R784 to R791). -/
structure Irq where
  pend   : List Nat := []           -- pending bits of edge-sensed sources
  lvl    : List Nat := []           -- signals that are high
  stack  : Sparse (List (Nat × Nat)) := []   -- active sources of a target with their priority, newest first
  asleep : List Nat := [4]          -- sleeping targets: HOST until MSI-X is enabled (R790)
  held   : List Nat := []           -- sources held in their group
  count  : Sparse Nat := []         -- events of a group since its last release
  first  : Sparse Nat := []         -- instant of the first held event
  stale  : Sparse Nat := []         -- since when a source waits for a sleeping target
  fall   : List Nat := []           -- sources delivered to FALLBACK in this pending period
  told   : List Nat := []           -- sources whose MSI-X message is out
  msix   : Sparse Msix := []        -- MSI-X table, by vector
  pba    : List Nat := []           -- MSI-X pending-bit array
  msi    : List (Nat × Msix) := []  -- messages written, oldest first: vector and its entry
  wakes  : List Nat := []           -- targets for which a wake was raised
  deriving DecidableEq, Repr, Inhabited


/-! ## Time (chapter 11) -/

/-- An entry of a two-step FIFO (R459). -/
structure TxTs where
  seqId     : Nat
  msgType   : Nat
  dom       : Nat
  egress    : Nat                   -- PTP ns
  residence : Nat                   -- ns
  deriving DecidableEq, Repr

/-- What an armed time point drives (R480). -/
inductive PointKind where
  | pmu (m : Nat)                   -- a synchrophasor report (R513)
  | goose (t : Nat)                 -- frame k of a GOOSE state (R556)
  | align (t : Nat)                 -- frame 0 waiting for ANGLE (R557)
  | recEnd (g : Nat)                -- the end of a recorder window (R520)
  deriving DecidableEq, Repr

/-- An armed time point: a PTP instant in ns, or a grid point cycle × 2^32 + angle (R480 to R483); its period, 0 for one shot. -/
structure Point where
  grid   : Bool
  at_    : Nat
  period : Nat := 0
  kind   : PointKind
  late   : Bool := false            -- already passed when it was set, or by a step (R482)
  deriving DecidableEq, Repr

/-- The TIME domain (chapter 11). -/
structure Clock where
  ptp       : Int := 0              -- units of 1/(4096 × 10^9) ns (R445, R449)
  grid      : Nat := 0              -- 96 bits: cycle, angle, sub-unit (R469)
  gridRem   : Nat := 0
  gridFreq  : Nat := 52428800       -- 2^-20 Hz; 50 Hz
  gridGood  : Option Nat := none    -- since when estimates are valid without a gap
  gridLast  : Option (Nat × Nat × Nat) := none  -- arrival and sample instant (FRC) and frequency of the last valid estimate
  steps     : List (Nat × Int) := []    -- steps of the last 14 ms: instant, ns (R450)
  pllLocked : Bool := false
  ref25     : Bool := false
  holdAt    : Option Nat := none    -- HOLDOVER entry
  ppsOut    : Nat := 0              -- newest whole second (with OFS) whose edge has come
  ppsRise   : Option Nat := none    -- newest second at which PPS_OUT rose
  ppsLast   : Option Nat := none    -- last accepted PPS_IN edge
  irigLast  : Option Nat := none
  irigSec   : Int := 0              -- second the last IRIG_OUT frame carries
  irigLeap  : Bool := false         -- its leap-second state
  irigQual  : Option Nat := none    -- its IEEE 1344 quality code
  txts      : Sparse (List TxTs) := []
  gpioTs    : List (Nat × Bool × Nat × Nat) := []  -- pin, level, FRC, grid point
  points    : List Point := []
  deriving DecidableEq, Repr, Inhabited

/-- A GPIO pin (R466, R467, R561 to R563). -/
structure Gpio where
  level : Bool := false             -- accepted input level
  cand  : Option (Bool × Nat × Nat × Nat) := none   -- level under debounce; FRC, PTP and grid of its first transition
  out   : Bool := false
  drive : Bool := false             -- driven as an output
  pulse : Option Nat := none        -- end of a running pulse
  deriving DecidableEq, Repr

/-! ## Measurement (chapter 12) -/

/-- A sample position: index, counter, synchronisation and one value and quality for each configured channel it carries. -/
structure Smp where
  idx     : Nat
  smpCnt  : Nat
  synch   : Nat
  vals    : List (Option (Nat × Nat))
  timeErr : Bool := false
  origin  : Nat := 0                -- 0 received, 1 interpolated, 2 absent
  test    : Bool := false           -- a sample with the test bit
  qual    : Bool := false           -- a sample whose quality is not good
  got     : Bool := true            -- a sample was received for the position
  deriving DecidableEq, Repr

/-- A measurement stream (R488 to R501). -/
structure Stream where
  state  : Nat := 0
  newest : Nat := 0
  seen   : Bool := false            -- a sample has been accepted since it was enabled
  done   : Nat := 0                 -- positions below this index are finalised
  opened : List Smp := []           -- open positions, rising index
  hist   : List Smp := []           -- finalised positions of the newest window, newest first
  last   : Nat := 0                 -- instant of the last acceptance
  tick   : Nat := 0                 -- number of the last tick whose estimate was delivered (R503)
  deriving DecidableEq, Repr, Inhabited

/-- An open or closed record of a recorder group (R520 to R523). -/
structure Record where
  trig     : Nat                    -- T, PTP ns
  start    : Nat                    -- window start, PTP ns
  stop     : Nat                    -- window end, PTP ns
  first    : Nat                    -- START row
  last     : Nat := 0               -- END row
  reason   : Nat
  trigs    : Nat := 1
  trunc    : Bool := false
  shed     : Bool := false
  retrig   : Bool := false
  preShort : Bool := false
  isOpen   : Bool := true
  grid     : Bool := false          -- its end is a grid point that has not fired
  cnt      : Nat := 0               -- rows from START on
  at_      : Nat := 0               -- instant of its newest trigger
  deriving DecidableEq, Repr

/-! ## Event engine (chapter 13) -/

/-- The input of a pass: what it is about (R531, R537). -/
inductive EvSrc where
  | qty (stream code : Nat)
  | goose (sub member : Nat)
  | subState (sub : Nat)
  | input (index : Nat)
  | gpio (pin : Nat)
  | line (l : Nat)
  | timer (cond : Nat)              -- an expiry runs a pass of its own (R541)
  deriving DecidableEq, Repr

/-- A queued input update: value, tag of a GOOSE member, validity, valid-bit mask, instant on FRC and PTP; of a GPIO change also the grid
angle at that instant (R467). -/
structure EvIn where
  src   : EvSrc
  value : Nat
  tag   : Nat := 0
  valid : Bool := true
  vmask : Nat := 4294967295
  frc   : Nat := 0
  ptp   : Nat := 0
  grid  : Option Nat := none
  deriving DecidableEq, Repr

/-- A GOOSE subscription (R534, R535). -/
structure Sub where
  state   : Nat := 0                -- 0 IDLE, 1 OK, 2 LOST
  st      : Nat := 0
  sq      : Nat := 0
  members : Sparse (Nat × Nat) := []    -- tag and value
  last    : Nat := 0
  deriving DecidableEq, Repr

/-- A condition's state (R537 to R543). -/
structure Cond where
  raw     : Bool := false
  cmp     : Bool := false           -- comparison before inversion, for hysteresis
  state   : Bool := false
  latched : Bool := false
  noData  : Bool := true
  invalid : Bool := false
  timer   : Option Nat := none      -- expiry instant of the running timer
  rawAt   : Nat := 0                -- last change of the raw result
  cnt     : Nat := 0
  prev    : Option Nat := none
  deriving DecidableEq, Repr

/-- An event log entry (R551). -/
structure EvLog where
  act    : Nat
  cond   : Nat
  rising : Bool
  ptp    : Nat
  frc    : Nat
  note   : Nat := 0                 -- 0 action, 1 switch failure, 2 late frame
  deriving DecidableEq, Repr

/-- A publisher template's state (R553 to R559). -/
structure Gpub where
  st    : Nat := 0
  sq    : Nat := 0                  -- sqNum of the next frame
  k     : Nat := 0                  -- newest frame whose instant has come
  edge  : Nat := 0                  -- PTP instant of the edge
  qual  : Nat := 0                  -- quality byte of T
  vals  : List Nat := []            -- value of each slot
  next  : Option Nat := none        -- FRC instant of the next frame (TB 0)
  at_   : Nat := 0                  -- start of the state, FRC
  wait0 : Bool := false             -- frame 0 not yet built
  due   : Option Nat := none        -- the frame that waits for the publisher
  dueLate : Bool := false           -- its instant passed while another waited
  late  : Option Nat := none        -- the newest frame whose instant has passed since (R559)
  bad   : Bool := false             -- written while EN was set (R573)
  deriving DecidableEq, Repr

/-! ## Batch (chapter 14) -/

/-- A message waiting to be sent on a link, as decoded content. -/
inductive FabMsg where
  | hello
  | frame (copy : Copy) (hops age : Nat) (m : FrameMsg)
  | credit (g cls bytes : Nat)
  | request (g cls : Nat) (on : Bool)
  | notice (n : NoticeMsg)
  | flush (g : Nat)
  | config (epoch : Nat) (words : List Word) (report : Option (Nat × Bytes))
  | timeTx (tx rx : Nat)
  | linkState (src : Nat) (links : List (Nat × Nat × Nat)) (ports : List Nat)
  | atTime (epoch t : Nat)
  deriving DecidableEq, Repr

/-- A message in a link's retry buffer or sent on it: the SEQ of its first block, its blocks (R576, R579). -/
structure LinkTx where
  seq : Nat
  n   : Nat
  msg : FabMsg
  deriving DecidableEq, Repr

/-- A Niben link (R575 to R582). -/
structure Link where
  lockAt  : Option Nat := none      -- since when the lane is locked
  expect  : Nat := 0                -- expected SEQ
  nakOut  : Bool := false           -- a NAK has been sent and not answered
  nextSeq : Nat := 0
  acked   : Nat := 0                -- oldest unreleased SEQ
  retry   : Nat := 0                -- unreleased blocks (R579)
  retryAt : Nat := 0                -- since when the oldest waits
  resends : Nat := 0
  naks    : List Nat := []          -- instants of NAKs sent
  stream  : Bytes := []             -- payload accepted and not yet delivered
  peer    : Option Hello := none
  rxTime  : Option (Nat × Nat) := none  -- last TIME: transmit and receive timestamps
  txTime  : Nat := 0
  offset  : Int := 0                -- the peer's PTP less this member's, ps
  wait    : List FabMsg := []       -- messages without room in the retry buffer
  kept    : List LinkTx := []       -- the retry buffer, oldest first
  out     : List LinkTx := []       -- what has been sent, in order, resent messages among it
  deriving DecidableEq, Repr

/-- A virtual output queue (R596, R597). -/
structure Voq where
  credit : Int := 0
  on     : Bool := false
  deriving DecidableEq, Repr

/-- Batch state of the member (R609 to R614). -/
structure Batch where
  commitAt : Option Nat := none     -- T
  leading  : Option Nat := none     -- instant of the commit request at the leader
  epoch    : Nat := 0               -- epoch being staged
  digest   : Bytes := []            -- leader's digest
  staged   : Option (List Word) := none
  segs     : List Word := []
  whole    : Bool := false          -- its last segment has arrived
  cfgAt    : Option Nat := none     -- arrival of the CONFIG
  own      : Option Bytes := none   -- own digest, reported
  noReport : Bool := false
  reports  : Sparse Bytes := []     -- digest reports by member
  resendAt : Nat := 0
  timeAt   : Nat := 0
  suspect  : Nat := 0               -- consecutive comparisons below half of 1 µs
  fenced   : Nat := 0               -- consecutive comparisons below half of 100 µs
  waits    : Option Nat := none     -- mailbox channel whose COMMIT runs it
  config   : Sparse Word := []      -- the agreed configuration: a word by its key
  deriving DecidableEq, Repr, Inhabited

/-- What is known of another member. -/
structure Peer where
  unreachAt : Option Nat := none
  links     : List (Nat × Nat × Nat) := []  -- its links: number, peer, peer's number (LINK_STATE)
  ports     : List Nat := []
  vers      : Option Versions := none
  trace     : Bool := false         -- TRACEABLE in its quote
  epoch     : Nat := 0
  digest    : Bytes := []
  deriving DecidableEq, Repr

/-! ## DRAM and performance counters (chapter 19) -/

/-- A DRAM channel: requests waiting in order of arrival, open rows with their last access, the last calibration and the end of its
pause (R806, R808, R810). -/
structure DramCh where
  reqs   : List DramReq := []
  rows   : Sparse Nat := []
  calAt  : Nat := 0
  calEnd : Nat := 0
  deriving DecidableEq, Repr

/-! ## Undefined behaviour (R10, R12 to R14) -/

/-- The cases the chapters list as undefined behaviour, each by its rule. -/
inductive Undef where
  /-- A raw write to a port register of a quad whose SerDes clock is stopped (R68, R307, R486). -/
  | stoppedQuad
  /-- A third quad in NIBEN mode past the refusal of R33 (R69). -/
  | thirdNiben
  /-- A recipe word outside the code loaded in the bank (R119). -/
  | outsideCode
  /-- A raw-loaded object whose path exceeds 4,096 slots (R120). -/
  | endlessRecipe
  /-- A raw write to a recipe bank that is active or busy (R121). -/
  | bankInUse
  /-- A bank not completely loaded, or with a reserved bit set in a word, made active (R122). -/
  | bankIncomplete
  /-- A raw write to the words of an exact-match entry that a lookup may use (R216, R438). -/
  | entryWords
  /-- A descriptor misplaced, too large or overlapping another, or written while in use (R217, R218). -/
  | descriptor
  /-- A raw access to the TCAM of a pipeline whose table domain is gated (R262). -/
  | tcamGated
  /-- A raw write to the words of a TCAM row that can be searched (R263). -/
  | tcamRow
  /-- A raw write to a version that bypasses the wait of R271 (R305, R351). -/
  | version
  /-- A free of a buffer by another than its owner with OWNER_CHECK clear (R348). -/
  | foreignFree
  /-- A raw write to a free bitmap, state bit, owner tag or reference count (R349). -/
  | bufferState
  /-- A raw write to an occupancy count (R351). -/
  | occupancy
  /-- A raw write to scheduler or shaper state (R397). -/
  | schedState
  /-- Two children of one node in one strict slot, or a queue of another port's path (R398). -/
  | tree
  /-- A pair across pipelines, or a port in two active pairs (R436). -/
  | pair
  /-- A raw write to redundancy state (R437). -/
  | redundancyState
  /-- A raw write to the FRC, the device clock or the grid accumulator (R485). -/
  | clockState
  /-- A raw write to a stream's sample positions, window state or newest index (R529). -/
  | streamState
  /-- A raw write to a condition's or template's state (R572). -/
  | eventState
  /-- A raw write to EVT_FSW of a set whose switch is staging (R574). -/
  | switchSet
  /-- A raw write to credit, retry, sequence, acknowledgement or REQUEST state (R624). -/
  | fabricState
  /-- Local traffic in a virtual output queue or a transit queue (R625). -/
  | strayQueue
  /-- An expert access into a domain whose clock is stopped (R716). -/
  | stoppedClock
  /-- A raw write to the charger, converter or HOLD switch controls (R757). -/
  | supplyControl
  /-- A raw write to PWR_STAT, or to a shed stage's state during HOLD (R758). -/
  | powerState
  /-- A raw write to the collector's or the interrupt controller's state (R792). -/
  | collectorState
  /-- A raw write to journal slots or J (R793). -/
  | journalState
  /-- A raw write to DRAM timing, training or calibration (R825). -/
  | dramTiming
  /-- A raw write to a crossing's synchroniser or count state (R826). -/
  | crossing
  deriving DecidableEq, Repr

/-- The parts of the module a case can corrupt beside the contents that R12 names of every case. -/
inductive Area where
  | time | events | fabric | supply | faults | journal | dram
  deriving DecidableEq, Repr

/-- What a case reaches beyond R12's contents, as its own rule says. -/
def Undef.reach : Undef → List Area
  | .clockState => [.time, .events]
  | .eventState => [.events]
  | .switchSet => [.events]
  | .streamState => [.events]
  | .fabricState => [.fabric]
  | .strayQueue => [.fabric]
  | .supplyControl => [.supply]
  | .powerState => [.supply, .journal]
  | .collectorState => [.faults]
  | .journalState => [.journal]
  | .dramTiming => [.dram]
  | .stoppedClock => [.events, .fabric, .dram]
  | .crossing => [.time, .events, .fabric, .supply, .faults, .journal, .dram]
  | _ => []

end Sys2Proof.Machine
end

