-- ==== Sys2Proof/Machine/State.lean ====
section
/-! DEFINITION. The state of the module, the ways a step can stop, and the state after reset. -/
namespace Sys2Proof.Machine

/-- Why a step stops with a fault: never. The cases the spec lists as undefined behaviour go on under R12 to R14, with the contents they
may corrupt left free (`Undef`, `State.undef`), so there is no case for a fault to name. -/
inductive Fault where
  deriving DecidableEq, Repr

/-- Why a step is refused. -/
inductive Refusal where
  /-- The command has no meaning in the model yet: raised by its arm of the dispatch. Safe. -/
  | notModelled (mnemonic : String)
  deriving DecidableEq, Repr

/-- The state. -/
structure State where
  pending   : List Instr := []
  free      : Nat := 0
  undef     : List Undef := []
  rd        : List Word := []
  now       : Nat := 0
  -- registers, counters, staged values
  regs      : Sparse Word := []
  cmt       : Sparse Word := []
  ctrs      : Sparse Nat := []
  ver       : Sparse (List Ver) := []
  -- ports, frames, engines
  ports     : Sparse Port := []
  pfcPause  : Sparse Nat := []
  pfcSent   : List Nat := []
  frames    : Sparse Frame := []
  tails     : Sparse Tail := []
  nextFrame : Nat := 0
  nextHead  : Nat := 0
  nextDisp  : Nat := 0
  engines   : Sparse Engine := []
  codeLen   : Sparse Nat := []
  bankObj   : Sparse BankObj := []
  codeMap   : Sparse Nat := []
  load      : Option Load := none
  copyWin   : Sparse (Nat × Nat) := []
  sideQ     : List Delivered := []
  sideRate  : Nat × Nat := (0, 0)
  -- tables
  exm       : Sparse Entry := []
  oldS      : Nat := 0
  exmSw     : Sparse (List (Nat × Nat)) := []
  cur       : Nat := 0
  learnQ    : List Learn := []
  flushQ    : List Flush := []
  ageAt     : Sparse Nat := []
  rehash    : List Rehash := []
  lpm       : Sparse Lpm := []
  tcam      : Sparse Row := []
  tcamWin   : Sparse (Nat × Nat) := []
  fhLog     : Sparse (List Nat) := []
  pol       : Sparse Pol := []
  -- buffers, queues, gates
  bufs      : Sparse (Nat × Bool) := []
  quar      : List Nat := []
  crcs      : Sparse Nat := []
  poolPtr   : Sparse Nat := []
  poolLow   : Sparse Nat := []
  capCnt    : Sparse (Nat × Nat × Nat) := []
  lookQ     : List Nat := []
  queues    : Sparse (List Copy) := []
  tx        : Sparse Tx := []
  sent      : List Sent := []
  shapers   : Sparse Shaper := []
  drr       : Sparse Drr := []
  rounds    : Sparse (List Nat) := []
  gates     : Sparse Gate := []
  qtelCnt   : Sparse Nat := []
  -- MACsec and authentication
  txSa      : Sparse TxSa := []
  rxSa      : Sparse RxSa := []
  authBusy  : Nat := 0
  -- redundancy
  dd        : Sparse Dd := []
  cmp       : Sparse (List Cmp) := []
  rcvy      : Sparse Rcvy := []
  bypAt     : Sparse Nat := []
  supAt     : Sparse Nat := []
  nodes     : Sparse Nat := []        -- node table of the pairs, by node + 2^48 × pair (R432): last heard
  -- host interface, security
  mbx       : Sparse Chan := []
  cpls      : List (Nat × Cpl) := []
  txn       : Option Txn := none
  lastTxn   : Nat := 0
  lapsed    : List (Nat × Nat) := []
  sec       : Sec := {}
  pci       : PciFn := {}
  rings     : Sparse Ring := []
  rrRing    : Nat := 0
  hostRx    : List HostFrame := []
  p43       : List SlowFrame := []
  i2cPtr    : Nat := 0
  i2cAddr   : Nat := 72
  i2cLatch  : List Nat := []
  uart      : List UartLine := []
  -- memory
  dram      : List Host.Cell := []
  sram      : List Host.Cell := []
  rawW      : Sparse (List Word) := []
  wild      : List (Nat × Nat) := []
  dramSide  : Sparse Nat := []
  perfSkid  : List PerfSkid := []
  -- power, faults, interrupts
  pwr       : Pwr := {}
  pins      : Pins := {}
  startCfg  : Option StartCfg := none
  tries     : Sparse Nat := []
  proofAt   : Sparse Nat := []
  flt       : Flt := {}
  journal   : Journal := {}
  irq       : Irq := {}
  -- time
  clock     : Clock := {}
  gpio      : Sparse Gpio := []
  -- measurement
  phxWild   : Bool := false
  streams   : Sparse Stream := []
  harmAt    : Sparse Nat := []
  recs      : Sparse (List Record) := []
  recRows   : Sparse Nat := []
  pmuNext   : Sparse Nat := []
  pmuDue    : Sparse (List Nat) := []
  pmuChg    : Sparse Nat := []
  pmuSrv    : List Word := []
  pmuConn   : Sparse PmuConn := []
  pmuTx     : List (Nat × Bytes) := []
  -- events
  subs      : Sparse Sub := []
  conds     : Sparse Cond := []
  acts      : Sparse Nat := []
  gpub      : Sparse Gpub := []
  evtQ      : List EvIn := []
  evtLog    : List EvLog := []
  fswQ      : List (Nat × Bool) := []
  -- batch
  links     : Sparse Link := []
  voq       : Sparse Voq := []
  cgReq     : Sparse (List Nat) := []
  cgNext    : Sparse Nat := []
  cgAt      : Sparse Nat := []
  batch     : Batch := {}
  peers     : Sparse Peer := []
  fdbTime   : Sparse (Nat × Bool) := []
  -- DRAM and counters
  dramCh    : Sparse DramCh := []
  pairs     : Sparse (Nat × Nat) := []
  pairBad   : List Nat := []
  deriving DecidableEq, Repr, Inhabited

/-- The state after reset. -/
def State.reset : State := {}

end Sys2Proof.Machine
end

