-- ==== Sys2Proof/Config.lean ====
section
/-! DEFINITION. What the spec leaves open and the machine still uses: free values (no body: nothing can be proved of them),
the cryptographic functions the spec names by their standards, and what one module's silicon carries. -/
namespace Sys2Proof.Config

/-- A fresh free value for each number: the machine applies it to the counter State.free. -/
opaque free : Nat → Nat

/-- Records the side queue holds (R97 gives no number). -/
opaque sideQueue : Nat

/-- SHAKE256 of a string with 64 B of output (R628). -/
opaque shake256 : Bytes → Bytes

/-- KMAC256 of key, data, output length in bytes and customisation string number (R628, R654 to R656). -/
opaque kmac256 : Bytes → Bytes → Nat → Nat → Bytes

/-- Ed448 signature of a message with the device identity key (R630, R631). -/
opaque signDik : Bytes → Bytes

/-- Ed448 verification: public key, message, signature (R628). -/
opaque ed448Verify : Bytes → Bytes → Bytes → Bool

/-- X448 of a private value and a public value (R628). -/
opaque x448 : Bytes → Bytes → Bytes

/-- The X448 public value of a private value. -/
opaque x448Public : Bytes → Bytes

/-- Message authentication of IEC 62351-6: algorithm code of R129, key, covered bytes. -/
opaque authValue : Nat → Bytes → Bytes → Bytes

/-- The part of an IEC 62351-6 extension before its value: algorithm code, key identifier (R295 gives no layout). -/
opaque authHead : Nat → Nat → Bytes

/-- The module's own MAC address (R422, R431). -/
opaque ownMac : Nat

/-- Pause quanta of the PFC frames a port sends (R53 gives no number). -/
opaque pfcQuanta : Nat → Nat

/-- What the synchrophasor server answers to a command for an IDCODE: header (3), CFG-2 (5) or CFG-3 (6) (R702). -/
opaque c37Answer : Nat → Nat → Bytes

/-- The ICK (0) and the KEK (1) that IEEE 802.1X-2020 derives from a CAK and its CKN (R635). -/
opaque mkaKey : Nat → Bytes → Bytes → Bytes

/-- The AES-CMAC of an MKA PDU under the ICK (R635). -/
opaque mkaIcv : Bytes → Bytes → Bytes

/-- A SAK unwrapped with the KEK; none where it does not unwrap (R635). -/
opaque sakUnwrap : Bytes → Bytes → Option Bytes

/-- The secure channel identifier of a port, 8 B (R290). -/
opaque sci : Nat → Bytes

/-- GCM-AES-256 protection of a frame: key, packet number, bytes; the protected data and ICV (R290). -/
opaque macsecProtect : Bytes → Nat → Bytes → Bytes

/-- Public keys in OTP: the vendor root keys and the vendor debug key (R631). -/
opaque vendorRoot : Nat → Bytes
opaque vendorDebug : Bytes

/-- The device's serial number (16 B), DIK public key and certificate (R648). -/
opaque serial : Bytes
opaque dikPublic : Bytes
opaque certificate : Bytes

/-- Silicon revision of HOST_ID (R675). -/
opaque siliconRev : BitVec 8

/-- Type-specific data of a journal entry: type, code, sequence number (R777 gives no layout for it). -/
opaque journalData : Nat → Nat → Nat → Bytes

/-- UTC offset, local offset and leap-second state firmware holds, by PTP second (R464), and the leap-second bits of FRACSEC. -/
opaque utcOffset : Nat → Int
opaque localOffset : Nat → Int
opaque leapState : Nat → Bool
opaque leapBits : Nat → Nat

/-- Time-quality code derived from TRACEABLE and STATE (R464, R515). -/
opaque timeQuality : Bool → Nat → Nat

/-- An estimate (R502 to R505, R508): 0, or what tells estimates beyond the ingest bound apart, quantity code, part (0 magnitude or value, 1 angle, or a harmonic's order), class or use,
reporting rate, nominal frequency, sample rate, instant in ns, and the finalised positions of its window, oldest first, each
with its index and the value of each channel. A float32. -/
opaque estimate : List Nat → List (Nat × List (Option Nat)) → Nat

/-- The true value an estimate is judged against, for the sampled values as delivered (R506, R509): arguments as those of estimate. A float32. -/
opaque trueValue : List Nat → List (Nat × List (Option Nat)) → Nat

/-- The condition of Table 12-6 that the sampled values of a window meet: 0 none, 1 steady state, 2 ramp, 3 modulation, 4 out-of-band
interference. -/
opaque sigCondition : List Nat → List (Nat × List (Option Nat)) → Nat

/-- Magnitude (0) or angle (1) of a phasor given by its real and imaginary part, float32. -/
opaque polar : Nat → Nat → Nat → Nat

/-- The .cfg (0) or .dat (1) file firmware assembles for a record from its descriptor words, its analog channels (stream and channel) and the rows in
its window (R525). -/
opaque comtrade : Nat → List Word → List (Nat × Nat) → List Bytes → Bytes

/-- Whether an interpolated value that falls between two units is rounded up: dividend, divisor (R496 states no rounding). -/
opaque roundUp : Int → Nat → Bool

/-- The ASDU of an IEC 61850-90-5 synchrophasor: time, quality and values in order (R516 gives no layout). -/
opaque asdu905 : List Nat → Bytes

/-- The worst-case slots that firmware computes for an Eloak object, none where a loop has no bound it can derive (R114 states no
method). -/
opaque worstPath : List Word → Option Nat

/-- Link offsets, in ps, along the rest of a route beyond this member's own link: reference member and PTP instant. No message of
Table 14-5 carries them (R616). -/
opaque routeOffset : Nat → Nat → Int

/-- The row, and of a row the bank, that a DRAM block address lies in (R806 and R808 give no mapping). -/
opaque dramRow : Nat → Nat
opaque dramBank : Nat → Nat

/-- Algorithm code and key identifier that an IEC 62351-6 extension names (R137 gives no layout). -/
opaque authRead : Bytes → Nat × Nat

/-- The standard recipe package that comes with the firmware, as an Eloak object (R132). -/
opaque standardPackage : List Word

/-- Factory delays of TIME_CAL by instance and word (R448). -/
opaque factoryCal : Nat → Nat

/-- A byte of an area of DRAM whose contents are undefined (R350, R400, R530): instant of the read and address. -/
opaque wildByte : Nat → Nat → Byte

/-- The state of an egress gate whose states are undefined (R399): gate and FRC instant. -/
opaque wildGate : Nat → Nat → Bool
opaque wildClose : Nat → Nat → Option Nat

/-- What measurement gives beyond its ingest bound (R528): a stream, its window with the validity, and words; what they are taken for
comes first, then the instant. -/
opaque wildStream : List Nat → Machine.Stream
opaque wildWindow : List Nat → List Machine.Smp × Bool
opaque wildWord : List Nat → Nat

/-- What undefined behaviour leaves in the contents it may corrupt (R12): by the number of the free value. -/
opaque wildState : Nat → Machine.State

/-- Whether a misuse of the supply has worn the hardware so that a cold reset does not restore it (R14, R757). -/
opaque worn : Nat → Bool

end Sys2Proof.Config
end

