-- ==== Sys2Proof/Machine/Ops.lean ====
section
/-! DEFINITION. The named operations every unit uses: registers and counters, the passing of time, interrupt sources, readiness,
raised error lines, the journal queue, event inputs and free values. -/
namespace Sys2Proof.Machine

/-- What a step answers. -/
abbrev Out := Host.Outcome State Fault Refusal

/-! ## Registers (R9) and counters -/

/-- Where word k of instance i of a register is kept. -/
def rkey (r : Reg) (i k : Nat) : Nat := r.code * 4294967296 + i * 256 + k

/-- Word k of instance i of a register, as stored. -/
def State.reg (s : State) (r : Reg) (i k : Nat) : Nat :=
  (sget s.regs (w32 (r.resetNat i k)) (rkey r i k)).toNat

/-- Store word k of instance i of a register. -/
def State.setReg (s : State) (r : Reg) (i k v : Nat) : State :=
  { s with regs := sput s.regs (w32 (r.resetNat i k)) (rkey r i k) (w32 v) }

/-- A field of instance i of a register. -/
def State.fld (s : State) (f : Fld) (i : Nat) : Nat := bits (s.reg f.reg i f.word) f.lo f.n

/-- A one-bit field of instance i. -/
def State.flag (s : State) (f : Fld) (i : Nat) : Bool := s.fld f i == 1

/-- Store a field of instance i of a register. -/
def State.setFld (s : State) (f : Fld) (i v : Nat) : State :=
  s.setReg f.reg i f.word (putBits (s.reg f.reg i f.word) f.lo f.n v)

/-- Stage the CMT bits m of a register word (R9). -/
def State.stage (s : State) (r : Reg) (i k m v : Nat) : State :=
  let old := (sget s.cmt (w32 (s.reg r i k)) (rkey r i k)).toNat
  let m := m &&& (4294967295 - r.reservedAt i)
  { s with cmt := sset s.cmt (rkey r i k) (w32 ((old &&& (4294967295 - m)) ||| (v &&& m))) }

/-- The value a CMT word takes at the next commit. -/
def State.next (s : State) (r : Reg) (i k : Nat) : Nat :=
  (sget s.cmt (w32 (s.reg r i k)) (rkey r i k)).toNat

/-- Stage a field. -/
def State.stageFld (s : State) (f : Fld) (i v : Nat) : State :=
  s.stage f.reg i f.word ((2 ^ f.n - 1) <<< f.lo) (v <<< f.lo)

/-- Instances and words of a register that differ from their reset value. -/
def State.written (s : State) (r : Reg) : List (Nat × Nat) :=
  (s.regs.filter fun e => e.1 / 4294967296 == r.code).map fun e => (e.1 % 4294967296 / 256, e.1 % 256)

/-- Where counter i of a counter array is kept. -/
def ckey (c : Ctr) (i : Nat) : Nat := c.code * 4294967296 + i

/-- A counter (64 bits). -/
def State.ctr (s : State) (c : Ctr) (i : Nat) : Nat := sget s.ctrs 0 (ckey c i)

/-- Add to a counter, modulo 2^64. -/
def State.add (s : State) (c : Ctr) (i n : Nat) : State :=
  { s with ctrs := sput s.ctrs 0 (ckey c i) ((s.ctr c i + n) % 18446744073709551616) }

/-- Count one event. -/
def State.bump (s : State) (c : Ctr) (i : Nat) : State := s.add c i 1

/-- Take one from a gauge. -/
def State.drop1 (s : State) (c : Ctr) (i : Nat) : State := { s with ctrs := sput s.ctrs 0 (ckey c i) (s.ctr c i - 1) }

/-- Add to a counter pair (R815). -/
def State.pairAdd (s : State) (n bytes : Nat) : State :=
  if s.pairBad.contains n then s else
  let (p, b) := sget s.pairs (0, 0) n
  { s with pairs := sput s.pairs (0, 0) n ((p + 1) % 18446744073709551616, (b + bytes) % 18446744073709551616) }

/-! ## Free values -/

/-- The next free value, and the state that has used it. -/
def State.fresh (s : State) : Nat × State := (Config.free s.free, { s with free := s.free + 1 })

/-- n free bytes. -/
def State.freshBytes (s : State) (n : Nat) : Bytes × State :=
  ((List.range n).map fun i => BitVec.ofNat 8 (Config.free (s.free + i)), { s with free := s.free + n })

/-! ## Undefined behaviour (R12 to R14) -/

/-- A case of undefined behaviour arises; it lasts until the next device reset (R12). -/
def State.undefined (s : State) (u : Undef) : State := { s with undef := if s.undef.contains u then s.undef else s.undef ++ [u] }

/-- Registers and counters of the units whose contents R12 names: chapters 02 to 10 and 12. -/
def wildKey (k : Nat) : Bool := decide (k / 4294967296 < 76) || (decide (92 ≤ k / 4294967296) && decide (k / 4294967296 ≤ 98))

/-- Words of m where p holds, of t elsewhere. -/
def overlay {α : Type} (p : Nat → Bool) (m t : Sparse α) : Sparse α :=
  (m.filter fun e => p e.1).foldl (fun a e => sset a e.1 e.2) (t.filter fun e => !p e.1)

/-- Cells as a memory in canonical form. -/
def cells (l : List Host.Cell) : List Host.Cell := l.foldl (fun m c => sput m 0 c.1 c.2) []

/-- The contents R12 names are those of w: forwarding, tables, buffers, measurement and the recorder; wrong journal entries may join
those that wait. -/
def State.spoil (s w : State) : State :=
  { s with
    regs := overlay wildKey w.regs s.regs
    cmt := overlay wildKey w.cmt s.cmt
    ctrs := w.ctrs
    ver := w.ver
    frames := w.frames
    tails := w.tails
    engines := w.engines
    codeLen := w.codeLen
    codeMap := w.codeMap
    copyWin := w.copyWin
    sideQ := w.sideQ
    sideRate := w.sideRate
    exm := w.exm
    exmSw := w.exmSw
    cur := w.cur
    oldS := w.oldS
    learnQ := w.learnQ
    flushQ := w.flushQ
    ageAt := w.ageAt
    lpm := w.lpm
    tcam := w.tcam
    tcamWin := w.tcamWin
    fhLog := w.fhLog
    pol := w.pol
    bufs := w.bufs
    quar := w.quar
    crcs := w.crcs
    poolPtr := w.poolPtr
    poolLow := w.poolLow
    capCnt := w.capCnt
    lookQ := w.lookQ
    queues := w.queues
    tx := w.tx
    sent := s.sent ++ w.sent
    shapers := w.shapers
    drr := w.drr
    rounds := w.rounds
    gates := w.gates
    qtelCnt := w.qtelCnt
    dd := w.dd
    cmp := w.cmp
    rcvy := w.rcvy
    hostRx := s.hostRx ++ w.hostRx
    p43 := s.p43 ++ w.p43
    dram := cells w.dram
    sram := cells w.sram
    phxWild := w.phxWild
    streams := w.streams
    harmAt := w.harmAt
    recs := w.recs
    recRows := w.recRows
    pairs := w.pairs
    pairBad := w.pairBad
    journal := { s.journal with queue := s.journal.queue ++ w.journal.queue } }

/-- A part beyond those is that of w. -/
def State.spoilArea (w s : State) : Area → State
  | .time => { s with clock := w.clock, gpio := w.gpio, regs := overlay (fun k => decide (76 ≤ k / 4294967296) && decide (k / 4294967296 < 92)) w.regs s.regs }
  | .events => { s with
      subs := w.subs
      conds := w.conds
      acts := w.acts
      gpub := w.gpub
      evtQ := w.evtQ
      evtLog := w.evtLog
      fswQ := w.fswQ }
  | .fabric => { s with
      links := w.links
      voq := w.voq
      cgReq := w.cgReq
      cgNext := w.cgNext
      cgAt := w.cgAt }
  | .supply => { s with pwr := w.pwr, pins := w.pins, regs := overlay (fun k => k / 4294967296 == 124) w.regs s.regs }
  | .faults => { s with
      flt := w.flt
      irq := w.irq
      regs := overlay (fun k => decide (130 ≤ k / 4294967296) && decide (k / 4294967296 < 142)) w.regs s.regs }
  | .journal => { s with journal := w.journal }
  | .dram => { s with dramCh := w.dramCh, dram := cells w.dram, dramSide := w.dramSide }

/-- While a case lasts, what it may corrupt is free (R12); keys, running image, lifecycle and debug state are never touched (R13). -/
def State.corrupt (s : State) : State :=
  if s.undef.isEmpty then s else
  let w := Config.wildState s.free
  (s.undef.flatMap Undef.reach).foldl (State.spoilArea w) (State.spoil { s with free := s.free + 1 } w)

/-! ## Readiness and identity -/

/-- A READY bit of HOST_READY (Table 16-2). -/
def State.ready (s : State) (b : Nat) : Bool := bit (s.reg .HOST_READY 0 0) b

/-- The member id (R585) and the batch-global number of a local port (R40). -/
def State.member (s : State) : Nat := s.fld F.FAB_STATE.MEMBER_ID 0
def State.gport (s : State) (p : Nat) : Nat := s.member * 64 + p

/-! ## Time (R440, R449, R469, R470) -/

/-- One second of the device clock's accumulator in its units; one nanosecond. -/
def ptpUnit : Nat := 4096000000000

/-- PTP time in nanoseconds. -/
def State.ptp (s : State) : Nat := (s.clock.ptp / (ptpUnit : Nat)).toNat

/-- PTP seconds and nanoseconds of a PTP instant. -/
def ptpSec (t : Nat) : Nat := t / 1000000000
def ptpNs (t : Nat) : Nat := t % 1000000000

/-- The FRC (R440). -/
def State.frc (s : State) : Nat := s.now % 18446744073709551616

/-- Grid cycle × 2^32 + angle, 64 bits (R469). -/
def State.gridNow (s : State) : Nat := s.clock.grid / 4294967296

/-- CORE cycles (1.1 GHz) completed at an instant. -/
def coreCycles (t : Nat) : Nat := t * 11 / 10

/-- The device clock after dt: scaled by TIME_RATE.ADJ (R449); until TIME is READY its value is the FRC (R443). -/
def clockAfter (s : State) (dt : Nat) : Clock :=
  let c := s.clock
  let rate : Int := (ptpUnit : Nat) + sgn (s.reg .TIME_RATE 0 0) 32
  let ptp : Int := if s.ready 3 then c.ptp + (dt : Nat) * rate else ((s.now + dt) * ptpUnit : Nat)
  if !c.pllLocked then { c with ptp := ptp } else
  let den := 1000000000 * ptpUnit
  let num := c.gridRem + c.gridFreq * 17592186044416 * dt * rate.toNat
  { c with ptp := ptp, grid := (c.grid + num / den) % 79228162514264337593543950336, gridRem := num % den }

/-! ## Interrupt controller (chapter 18) -/

/-- Effective fields of a source (Table 18-9). -/
def State.irqPrio (s : State) (i : Nat) : Nat := s.fld F.IRQ_SRC.PRIO i
def State.irqSense (s : State) (i : Nat) : Nat :=
  if i < 32 then 2 else let v := s.fld F.IRQ_SRC.SENSE i; if v > 4 then 2 else v
def State.irqWake (s : State) (i : Nat) : Bool := i < 32 || s.flag F.IRQ_SRC.WAKE i
def State.irqTarget0 (s : State) (i : Nat) : Nat :=
  let t := s.fld F.IRQ_SRC.TARGET i
  if i < 32 then (if t ≥ 4 then 0 else t) else if t > 4 then 4 else t

/-- The target a source goes to: FALLBACK once it is stale (R790). -/
def State.irqTarget (s : State) (i : Nat) : Nat :=
  let t := s.irqTarget0 i
  if s.irq.fall.contains i then
    let f := s.fld F.IRQ_TGT.FALLBACK t
    if i < 32 then (if f ≥ 4 then 0 else f) else if f > 4 then 4 else f
  else t

/-- Active at some target. -/
def State.irqActive (s : State) (i : Nat) : Bool := s.irq.stack.any fun e => e.2.any fun a => a.1 == i

/-- Pending (R785). -/
def State.irqPending (s : State) (i : Nat) : Bool :=
  let se := s.irqSense i
  if se ≤ 1 then (s.irq.lvl.contains i != (se == 1)) && !s.irqActive i else s.irq.pend.contains i

/-- Priority of the newest active source of a target. -/
def State.irqRunning (s : State) (t : Nat) : Nat := ((sget s.irq.stack [] t).head?.map (·.2)).getD 0

/-- Deliverable to a target but for its sleep (R786). -/
def State.irqReadyFor (s : State) (t i : Nat) : Bool :=
  s.irqPending i && s.flag F.IRQ_SRC.ENABLE i && !s.irqActive i && !s.irq.held.contains i &&
  s.irqTarget i == t && decide (s.irqPrio i > s.fld F.IRQ_TGT.THRESHOLD t) && decide (s.irqPrio i > s.irqRunning t)

/-- Deliverable (R786). -/
def State.irqDeliverable (s : State) (t i : Nat) : Bool := s.irqReadyFor t i && !s.irq.asleep.contains t

/-- Sources that can be pending. -/
def State.irqCands (s : State) : List Nat :=
  ((s.irq.pend ++ s.irq.lvl ++ (s.written .IRQ_SRC).map (·.1)).foldl ins [])

/-- A message on a vector: written where its entry is not masked, otherwise noted in the pending-bit array (R674, R786). -/
def Irq.message (x : Irq) (v : Nat) : Irq :=
  let e := sget x.msix {} v
  if e.masked then { x with pba := ins x.pba v } else { x with msi := x.msi ++ [(v, e)] }

/-- A word of the MSI-X table is written: clearing the mask of a pending vector writes its message (R675). -/
def Irq.msixWrite (x : Irq) (v k w : Nat) : Irq :=
  let e := sget x.msix {} v
  let e := match k with
    | 0 => { e with addr := putBits e.addr 0 32 w }
    | 1 => { e with addr := putBits e.addr 32 32 w }
    | 2 => { e with data := w }
    | _ => { e with masked := bit w 0 }
  let x := { x with msix := sput x.msix {} v e }
  if !e.masked && x.pba.contains v then { x with pba := del x.pba v, msi := x.msi ++ [(v, e)] } else x

/-- Arbitration after a change: MSI-X messages for sources newly deliverable to HOST, wakes, and the start of stale times. -/
def State.irqSettle (s : State) : State :=
  let cs := s.irqCands
  let host := cs.filter (s.irqDeliverable 4)
  let newly := host.filter fun i => !s.irq.told.contains i
  let waiting := cs.filter fun i => s.irqReadyFor (s.irqTarget i) i && s.irq.asleep.contains (s.irqTarget i)
  let wake := (waiting.filter s.irqWake).map s.irqTarget
  let stale := waiting.filter fun i => !s.irqWake i
  { s with irq := { newly.foldl (fun (x : Irq) i => x.message (s.fld F.IRQ_SRC.VECTOR i)) s.irq with
      told := host
      wakes := wake.foldl ins s.irq.wakes
      stale := stale.foldl (fun m i => if (sfind m i).isSome then m else sset m i s.now)
        (s.irq.stale.filter fun e => stale.contains e.1)
      fall := s.irq.fall.filter fun i => s.irqPending i || s.irqActive i } }

/-- Release a coalescing group (R789). -/
def State.irqRelease (s : State) (g : Nat) : State :=
  { s with irq := { s.irq with
      held := s.irq.held.filter fun i => s.fld F.IRQ_SRC.GROUP i != g
      count := sdel s.irq.count g
      first := sdel s.irq.first g } }

/-- An edge of an edge-sensed source's sense (R785, R789, Table 18-10). -/
def State.irqEdge (s : State) (i : Nat) : State :=
  let was := s.irq.pend.contains i
  let s := if was then s.bump .IRQ_MERGED i else { s with irq := { s.irq with pend := ins s.irq.pend i } }
  if i < 32 || !s.flag F.IRQ_SRC.COAL_EN i then s else
  let g := s.fld F.IRQ_SRC.GROUP i
  let n := sget s.irq.count 0 g + 1
  let s := { s with irq := { s.irq with
      held := if was then s.irq.held else ins s.irq.held i
      count := sset s.irq.count g n
      first := if (sfind s.irq.first g).isSome then s.irq.first else sset s.irq.first g s.now } }
  let c := s.fld F.IRQ_GROUP.COUNT g
  if n ≥ (if c = 0 then 1 else c) then s.irqRelease g else s

/-- A source's signal takes a level. -/
def State.irqSignal (s : State) (i : Nat) (b : Bool) : State :=
  if s.irq.lvl.contains i = b then s else
  let s := { s with irq := { s.irq with lvl := mark s.irq.lvl i b } }
  let se := s.irqSense i
  let s := if (se == 2 && b) || (se == 3 && !b) || se == 4 then s.irqEdge i else s
  s.irqSettle

/-- A pulse of a source: high for one cycle (R783). -/
def State.pulse (s : State) (i : Nat) : State := (s.irqSignal i true).irqSignal i false

/-- Set or clear a READY bit, which raises READY_CHANGE (R678). -/
def State.setReady (s : State) (b : Nat) (v : Bool) : State :=
  if s.ready b = v then s else
  (s.setReg .HOST_READY 0 0 (putBits (s.reg .HOST_READY 0 0) b 1 (b2n v))).pulse 48

/-- Set STAGE, which raises READY_CHANGE. -/
def State.setStage (s : State) (v : Nat) : State :=
  if s.fld F.HOST_READY.STAGE 0 = v then s else (s.setFld F.HOST_READY.STAGE 0 v).pulse 48

/-- The power state code (Table 17-2). -/
def State.power (s : State) : Nat := s.fld F.PWR_STAT.STATE 0

/-! ## Error lines and journal -/

/-- Raise an error line: it latches at the end of the step (R761). -/
def State.raise (s : State) (i : Nat) : State := { s with flt := { s.flt with raised := ins s.flt.raised i } }

/-- Queue a journal entry (R780); in OFF there is nothing to write it. -/
def State.journal1 (s : State) (typ code : Nat) : State :=
  if !s.pwr.on then s
  else if s.journal.queue.length ≥ 4096 then
    { s.bump .JOURNAL_DROP 0 with journal := { s.journal with dropped := s.journal.dropped + 1 } }
  else { s with journal := { s.journal with queue := s.journal.queue ++ [(typ, code, s.frc, s.ptp)] } }

/-! ## Event inputs (R531, R544, R545) -/

/-- The code of an input in EVT_COND.SRC for its TYPE: type, SRC bits. -/
def evKey : EvSrc → Option (Nat × Nat)
  | .qty st c => some (if c < 8 then 2 else 1, st + 4096 * c)
  | .goose sub m => some (3, sub + 4096 * m)
  | .subState sub => some (4, sub)
  | .input i => some (5, i)
  | .gpio p => some (6, p)
  | .line l => some (7, l)
  | .timer _ => none

/-- SRC bits a TYPE reads. -/
def evSrcMask (t : Nat) : Nat := [0, 1048575, 1048575, 29695, 1023, 2047, 31, 127].getD t 0

/-- Condition c names the input. -/
def State.evNames (s : State) (src : EvSrc) (c : Nat) : Bool :=
  match src, evKey src with
  | .timer c', _ => c == c'
  | _, some (t, k) =>
    s.fld F.EVT_COND.TYPE c == t && (s.reg .EVT_COND c 1 &&& evSrcMask t) == k
  | _, none => false

/-- Conditions whose words differ from reset: only these can be enabled. -/
def State.condList (s : State) : List Nat := ((s.written .EVT_COND).map (·.1)).foldl ins []

/-- An input update reaches the engine: queued when an enabled condition names it (R544, R545). -/
def State.evtIn (s : State) (e : EvIn) : State :=
  if !(s.condList.any (s.evNames e.src)) then s
  else if s.evtQ.length ≥ 8192 then (s.bump .EVT_INPUT_DROP 0).raise 18
  else { s with evtQ := s.evtQ ++ [{ e with frc := if e.frc = 0 then s.frc else e.frc, ptp := if e.ptp = 0 then s.ptp else e.ptp }] }

/-- An event line takes a level (Table 13-4). -/
def State.evtLine (s : State) (l : Nat) (b : Bool) : State := s.evtIn { src := .line l, value := b2n b }

/-- Change the power state (R729); event line 18 is high in HOLD. -/
def State.setPower (s : State) (v : Nat) : State :=
  let was := s.power
  if was = v then s else
  let s := (s.setFld F.PWR_STAT.STATE 0 v).pulse 49
  if (was == 3) != (v == 3) then s.evtLine 18 (v == 3) else s

/-- The state that the measures in force give (Table 17-2). -/
def State.measured (s : State) : Nat :=
  if s.pwr.quiesce then 2
  else if !s.pwr.gated.isEmpty || !s.pwr.banksOff.isEmpty || s.pwr.dramRef ||
    (s.written .PORT_STATUS).any (fun e => bit (s.reg .PORT_STATUS e.1 0) 3) then 1
  else 0

/-- The power state follows the measures; HOLD and SAFE take precedence (R728). -/
def State.settlePower (s : State) : State := if s.power ≥ 3 then s else s.setPower s.measured

/-! ## Performance counters (R818 to R824) -/

/-- Bytes into a ring of plain cells: the canonical write is in Memory. -/
def perfFilter (s : State) (n code pl port cls : Nat) : Bool :=
  let v := s.reg .PERF_CFG n 0
  let usePl := [1, 2, 3, 4, 5, 6, 7, 8, 10, 12, 13, 14].contains code
  let usePort := [2, 3, 6, 8, 9, 10, 11].contains code
  let useCls := [10, 11, 12, 13, 14].contains code
  bits v 0 8 == code && bits v 8 2 != 0 && !(bit v 10 && n % 2 == 1) &&
  (!usePl || bit (bits v 11 4) pl) && (!usePort || !bit v 21 || bits v 15 6 == port) &&
  (!useCls || !bit v 26 || bits v 22 4 == cls)

/-- Value of a performance counter. -/
def State.perf (s : State) (n : Nat) : Nat := s.reg .PERF_CTR n 0 + 4294967296 * bits (s.reg .PERF_CTR n 1) 0 16

/-- Set a performance counter. -/
def State.setPerf (s : State) (n v : Nat) : State := (s.setReg .PERF_CTR n 0 v).setReg .PERF_CTR n 1 (v / 4294967296 % 65536)

end Sys2Proof.Machine
end

