-- ==== Sys2Proof/Machine/Memory.lean ====
section
/-! DEFINITION. Addressed memory (DRAM and SRAM), the record rings in DRAM, and the checksums. -/
namespace Sys2Proof.Machine

/-- What a byte nothing has written reads as (DESIGN CHOICE, log 7). -/
def memDefault : Byte := 0

/-- Canonical form of a memory: rising addresses, no byte equal to what an unlisted address reads as. -/
def Memory.wf (m : List Host.Cell) : Bool := storeWf (fun _ => memDefault) m

/-- Read and write one byte. -/
def memRead (m : List Host.Cell) (a : Nat) : Byte := sget m memDefault a
def memWrite (m : List Host.Cell) (a : Nat) (b : Byte) : List Host.Cell := sput m memDefault a b

/-- Write a string of bytes from an address. -/
def memWriteBytes (m : List Host.Cell) (a : Nat) : Bytes → List Host.Cell
  | [] => m
  | b :: t => memWriteBytes (memWrite m a b) (a + 1) t

/-- Read n bytes from an address. -/
def memReadBytes (m : List Host.Cell) (a n : Nat) : Bytes := (List.range n).map fun i => memRead m (a + i)

/-- Bytes of DRAM (R802), and of the firmware region at its start (R346). -/
def dramSize : Nat := 34359738368
def fwRegion : Nat × Nat := (0, 1073741824)

/-- Areas of the recorder and of the record rings as a reading of their registers gives them: register, index, first byte and bytes. A ring that
is not enabled takes none; a recorder group has its area whether or not it records (R346, R350). -/
def ringAreasBy (rd : Reg → Nat → Nat → Nat) (named : Reg → List Nat) : List (Reg × Nat × Nat × Nat) :=
  [(Reg.CAP_RING, 576), (.QTEL_RING, 64), (.PERF_RING, 128), (.PHX_REC, 320)].flatMap fun (e : Reg × Nat) =>
    (named e.1).filterMap fun i =>
      if e.1 == .PHX_REC || bit (rd e.1 i 2) 0 then some (e.1, i, 64 * bits (rd e.1 i 0) 0 29, e.2 * bits (rd e.1 i 1) 0 24) else none

/-- Areas that hold undefined bytes as the committed registers stand (R350, R400, R530): those of a capture ring, a telemetry ring or the recorder
that overlap one another, and a recorder group's that overlaps the firmware region, with that region. Only a raw write can leave them so. -/
def State.wildNow (s : State) : List (Nat × Nat) :=
  let l := (ringAreasBy s.reg fun r => ((s.written r).map (·.1)).foldl ins []).filter fun a => a.1 != .PERF_RING
  l.flatMap fun a =>
    let others := (l.filter fun b => !(b.1 == a.1 && b.2.1 == a.2.1)).map (·.2.2) ++ if a.1 == .PHX_REC then [fwRegion] else []
    let hit := others.filter fun b => overlaps a.2.2 b
    if hit.isEmpty then [] else a.2.2 :: hit

/-- Read n bytes of DRAM: those of an area whose contents are undefined are free. -/
def State.dramBytes (s : State) (a n : Nat) : Bytes :=
  let l := s.wild ++ s.wildNow
  (List.range n).map fun i =>
    if l.any fun w => overlaps (a + i, 1) w then Config.wildByte s.now (a + i) else memRead s.dram (a + i)

/-- What n bytes written from an address leave of an area with undefined bytes. -/
def cutArea (a n : Nat) (w : Nat × Nat) : List (Nat × Nat) :=
  if !overlaps (a, n) w then [w] else
  (if w.1 < a then [(w.1, a - w.1)] else []) ++ (if a + n < w.1 + w.2 then [(a + n, w.1 + w.2 - (a + n))] else [])

/-- The stack that holds a DRAM address (R802). -/
def stackOf (a : Nat) : Nat := a % dramSize / 17179869184

/-- Block addresses of n bytes from an address. -/
def blocksOf (a n : Nat) : List Nat := if n = 0 then [] else (List.range ((a + n - 1) / 64 + 1 - a / 64)).map fun i => 64 * (a / 64 + i) % dramSize

/-- Requests of a client for the blocks of n bytes from an address arrive at their controllers (R804). -/
def State.dramAsk (s : State) (cls : Nat) (write : Bool) (a n : Nat) (own : Option Nat) : State :=
  { s with dramCh := (blocksOf a n).foldl (fun m b =>
      let c := sget m {} (stackOf b)
      sset m (stackOf b) { c with reqs := c.reqs ++ [DramReq.mk cls b write s.now false own] }) s.dramCh }

/-- The CRC-16 with polynomial 0x1021 and initial value 0xFFFF: of a C37.118.2 frame and of a DRAM block (R811). -/
def crcCcitt (b : Bytes) : Nat :=
  b.foldl (fun c x => (List.range 8).foldl (fun c i =>
    let top := bit c 15 != bit x.toNat (7 - i)
    ((c * 2) % 65536) ^^^ (if top then 0x1021 else 0)) c) 65535

/-- The CRC-16 of the block at an address whose data bytes are b (R811). -/
def blockCrc (a : Nat) (b : Bytes) : Nat := crcCcitt (toBE (a / 64) 4 ++ b)

/-- The side-band bits of the blocks written take their CRC (R811). -/
def sideBand (m : List Host.Cell) (l : List Nat) (x : Sparse Nat) : Sparse Nat :=
  l.foldl (fun x a => sset x (a / 64) (blockCrc a (memReadBytes m a 64))) x

/-- Store bytes in DRAM for a client of a service class; an address wraps at its end. R807 gives every later read of the block the
written data, so the contents, with their side-band bits, change as the request arrives. -/
def State.dramWrite (s : State) (cls a : Nat) (b : Bytes) : State :=
  let a := a % dramSize
  let n := dramSize - a
  let m := memWriteBytes (memWriteBytes s.dram a (b.take n)) 0 (b.drop n)
  State.dramAsk { s with
    dram := m
    dramSide := sideBand m (blocksOf a b.length) s.dramSide
    wild := (s.wild.flatMap (cutArea a (min n b.length))).flatMap (cutArea 0 (b.length - n)) } cls true a b.length none

/-! ## Checksums -/

/-- One bit of the reflected CRC-32C. -/
def crcBit (c : Nat) : Nat := if c % 2 = 1 then (c / 2) ^^^ 0x82F63B78 else c / 2

/-- One byte of the reflected CRC-32C (R162). -/
def crcByte (c b : Nat) : Nat :=
  crcBit (crcBit (crcBit (crcBit (crcBit (crcBit (crcBit (crcBit (c ^^^ b))))))))

/-- CRC-32C of bytes with a seed (R162, R326, R576). -/
def crc32c (seed : Nat) (b : Bytes) : Nat :=
  4294967295 - b.foldl (fun c x => crcByte c x.toNat) (4294967295 - seed % 4294967296)

/-- One bit, one byte and a string of the reflected CRC-32 of IEEE 802.3: the FCS of a frame, in the order it is sent (R70). -/
def fcsBit (c : Nat) : Nat := if c % 2 = 1 then (c / 2) ^^^ 0xEDB88320 else c / 2
def fcsByte (c b : Nat) : Nat := fcsBit (fcsBit (fcsBit (fcsBit (fcsBit (fcsBit (fcsBit (fcsBit (c ^^^ b))))))))
def fcs (b : Bytes) : Bytes := toLE (4294967295 - b.foldl (fun c x => fcsByte c x.toNat) 4294967295) 4

/-- The one's complement of bytes. -/
def inverted (b : Bytes) : Bytes := b.map fun x => ~~~x

/-- The hash of a key of w bits (R162). -/
def exmHash (key w seed : Nat) : Nat := crc32c seed (toLE key ((w + 7) / 8))

/-- One's complement sum of 16-bit words, folded. -/
def onesSum (b : Bytes) : Nat :=
  let t := ((List.range ((b.length + 1) / 2)).map fun i => 256 * byteAt b (2 * i) + byteAt b (2 * i + 1)).foldl (· + ·) 0
  let u := t % 65536 + t / 65536
  u % 65536 + u / 65536

/-- Internet checksum. -/
def inetSum (b : Bytes) : Nat := 65535 - onesSum b

/-! ## Record rings (Table 8-11) -/

/-- Function f has been shed in the current HOLD (Table 17-4). -/
def State.shed (s : State) (f : Nat) : Bool :=
  s.pwr.shedFns.contains f

/-- A full ring drops its oldest record. -/
def State.ringRoom (s : State) (r : Reg) (i : Nat) (full : Bool) (n rdx : Nat) (ovr : Ctr) : State :=
  if full then (s.setReg r i 4 ((rdx + 1) % n)).bump ovr i else s

/-- The capture writer may write a record of n bytes at an address: it lies in DRAM, outside the firmware region (R346). -/
def capMay (r : Reg) (a n : Nat) : Bool := r != .CAP_RING || (!overlaps (a, n) fwRegion && decide (a + n ≤ dramSize))

/-- A record goes to the ring's write index, which moves on. -/
def State.ringStore (s : State) (r : Reg) (i : Nat) (b : Bytes) (n wr : Nat) : State :=
  (s.dramWrite 2 (bits (s.reg r i 0) 0 29 * 64 + b.length * wr) b).setReg r i 3 ((wr + 1) % n)

/-- Write a record of n bytes into a ring: sampled, rate-limited, dropped when full, overwriting with WRAP (R343, R344, R395, R823); while DRAM is
not READY every event is counted as dropped (R345).
w is the window key of its rate, tot that of its writer with tl records a 10 µs window. -/
def State.ringPut (s : State) (r : Reg) (i : Nat) (b : Bytes) (sample : Bool) (drop ovr : Ctr) (w tot tl : Nat) : State :=
  let w2 := s.reg r i 2
  if !bit w2 0 then s else
  let win := s.now / 10000
  let (wn, cnt, ev) := sget s.capCnt (0, 0, 0) w
  let cnt := if wn = win then cnt else 0
  let s1 := { s with capCnt := sput s.capCnt (0, 0, 0) w (win, cnt, ev + 1) }
  if !s.ready 2 then s1.bump drop i else
  if sample && ev % 2 ^ bits w2 8 4 != 0 then s1 else
  let rate := bits w2 16 16
  let (tn, tc, te) := sget s1.capCnt (0, 0, 0) tot
  let tc := if tn = win then tc else 0
  let n := 4 * bits (s.reg r i 1) 0 24
  let wr := bits (s.reg r i 3) 0 26
  let rdx := bits (s.reg r i 4) 0 26
  let full := n = 0 || (wr + 1) % n = rdx
  if s.shed 1 || !capMay r (64 * bits (s.reg r i 0) 0 29 + b.length * wr) b.length || (rate != 0 && cnt ≥ rate) || tc ≥ tl || (full && (!bit w2 1 || n = 0)) then s1.bump drop i else
  ({ s1.ringRoom r i full n rdx ovr with
      capCnt := sput (sput s1.capCnt (0, 0, 0) w (win, cnt + 1, ev + 1)) (0, 0, 0) tot (win, tc + 1, te) } : State).ringStore r i b n wr

/-! ## Performance samples (R820 to R823) -/

/-- The event that a sample describes: its code, pipeline or stack, port, class, generation and CONTEXT. -/
structure PerfCtx where
  code : Nat
  pl   : Nat
  port : Nat
  cls  : Nat
  gen  : Nat
  ctx  : Nat

/-- Counter n samples an event precisely: precise mode, and an event marked precise in Table 19-3 (R822). -/
def State.perfPrecise (s : State) (n : Nat) (e : PerfCtx) : Bool :=
  bits (s.reg .PERF_CFG n 0) 8 2 == 3 && [2, 3, 5, 10, 11].contains e.code

/-- A performance sample record of an event taking place now (Table 19-5). -/
def State.perfRecord (s : State) (n skid : Nat) (e : PerfCtx) : Bytes :=
  wordsBytes [w32 (n + 64 * e.code + 16384 * skid + 1048576 * b2n (s.perfPrecise n e) + 4194304 * (e.pl % 4)),
    w32 (e.port % 64 + 64 * (e.cls % 16) + 65536 * e.gen), w32 s.frc, w32 (s.frc / 4294967296), w32 (ptpNs s.ptp), w32 e.ctx, 0, 0]

/-- The record of an overflow that no event has followed within 100 ns (R821). -/
def State.perfLost (s : State) (x : PerfSkid) : Bytes :=
  wordsBytes [w32 (x.ctr + 64 * bits (s.reg .PERF_CFG x.ctr 0) 0 8 + 2097152), 0, w32 x.at_, w32 (x.at_ / 4294967296), 0, 0, 0, 0]

/-- A record goes to the performance ring, at most 10 million a second (R823). -/
def State.perfPut (s : State) (b : Bytes) : State := s.ringPut .PERF_RING 0 b false .PERF_DROP .PERF_OVERRUN 200 201 100

/-- The sample of an overflow: precise at once; in skid mode the event that the sampling point sees, which is free within the 64 events
of R821 and may be the one that overflowed. -/
def State.perfSample (s : State) (n : Nat) (e : PerfCtx) : State :=
  if s.perfPrecise n e then s.perfPut (s.perfRecord n 0 e) else
  let (v, s) := s.fresh
  if v % 64 = 0 then s.perfPut (s.perfRecord n 0 e)
  else { s with perfSkid := s.perfSkid ++ [{ ctr := n, left := v % 64, skid := v % 64, at_ := s.frc }] }

/-- k events of counter n pass the sampling point: the samples that wait for one of them are written (R821). -/
def State.perfSeen (s : State) (n k : Nat) (e : PerfCtx) : State :=
  let l := s.perfSkid.filter fun x => x.ctr == n && decide (x.left ≤ k)
  let rest := (s.perfSkid.filter fun x => !(x.ctr == n && decide (x.left ≤ k))).map fun x =>
    if x.ctr = n then { x with left := x.left - k } else x
  l.foldl (fun s x => s.perfPut (s.perfRecord n x.skid e)) { s with perfSkid := rest }

/-- Samples whose 100 ns have passed without their event are written with NO_CONTEXT (R821). -/
def State.perfLate (s : State) : State :=
  let due (x : PerfSkid) : Bool := decide (x.at_ + 100 ≤ s.frc)
  (s.perfSkid.filter due).foldl (fun s x => s.perfPut (s.perfLost x)) { s with perfSkid := s.perfSkid.filter fun x => !due x }

/-- What an overflow in a sample mode loads (R820, R822). -/
def State.perfPreset (s : State) (n : Nat) : Nat :=
  let v := s.reg .PERF_PRESET n 0 + 4294967296 * bits (s.reg .PERF_PRESET n 1) 0 16
  if bits (s.reg .PERF_CFG n 0) 8 2 = 3 then min v (281474976710656 - 1024) else v

/-- Counter n reaches v: past its end it wraps, or loads PRESET and samples, once for each of at most k overflows (R820). -/
def State.perfStep (n : Nat) (e : PerfCtx) : Nat → Nat → State → State
  | 0, v, s => s.setPerf n (v % 281474976710656)
  | k + 1, v, s =>
    if v < 281474976710656 then s.setPerf n v
    else if bits (s.reg .PERF_CFG n 0) 8 2 < 2 then s.setPerf n (v % 281474976710656)
    else State.perfStep n e k (s.perfPreset n + (v - 281474976710656)) ((s.setPerf n (s.perfPreset n)).perfSample n e)

/-- k events of counter n's kind and filters. -/
def State.perfCount (s : State) (n k : Nat) (e : PerfCtx) : State := State.perfStep n e k (s.perf n + k) (s.perfSeen n k e)

/-- Add k events to counter n; in count mode its carries go to the next counter when that is chained and not off. -/
def State.perfAdd (s : State) (n k : Nat) (e : PerfCtx) : State :=
  let c := (s.perf n + k) / 281474976710656
  let s1 := s.perfCount n k e
  let next := s.reg .PERF_CFG (n + 1) 0
  if c ≠ 0 && bits (s.reg .PERF_CFG n 0) 8 2 < 2 && n % 2 = 0 && n + 1 < 64 && bit next 10 && bits next 8 2 ≠ 0 then s1.perfCount (n + 1) c e
  else s1

/-- k events of a code reach the performance counters. -/
def State.perfEv (s : State) (code k pl port cls gen ctx : Nat) : State :=
  (((s.written .PERF_CFG).map (·.1)).filter fun n => perfFilter s n code pl port cls).foldl
    (fun s n => s.perfAdd n k ⟨code, pl, port, cls, gen, ctx⟩) s

end Sys2Proof.Machine
end

