-- ==== Sys2Proof/Machine/Sides.lean ====
section
/-! DEFINITION. SIDE records at the event engine: GOOSE records of subscriptions and recipe inputs (R130, R131, R532 to R535). -/
namespace Sys2Proof.Machine

/-- A subscription's state changes: an input of SUB_STATE conditions (R535). -/
def State.setSub (s : State) (i v : Nat) : State :=
  let x := sget s.subs {} i
  if x.state = v then s else
  let s := ({ s with subs := sset s.subs i { x with state := v } } : State).evtIn { src := .subState i, value := v }
  if v = 1 then s else
  (List.range 7).foldl (fun s m => s.evtIn { src := .goose i m, value := 0, valid := false }) s

/-- A GOOSE_STATE record of a subscription: whether it is accepted, and the state after it (R533, R534). -/
def State.gooseState (s : State) (i : Nat) (d : Delivered) (sim : Bool) (st sq : Nat) : Bool × State :=
  let x := sget s.subs {} i
  if !s.flag F.EVT_SUB.EN i then (false, s)
  else if sim && !s.flag F.EVT_SUB.SIM_ACCEPT i then (false, s.bump .EVT_SUB_SIM i)
  else if d.failed && !s.flag F.EVT_SUB.FAILED_ACCEPT i then (false, s.bump .EVT_SUB_AUTH i)
  else
    let n := (sq + 4294967296 - x.sq) % 4294967296
    if x.state ≠ 0 && st = x.st && !(1 ≤ n && n < 2147483648) then (false, s.bump .EVT_SUB_DUP i)
    else
      let s := s.setSub i 1
      (true, { s with subs := sset s.subs i { sget s.subs {} i with st := st, sq := sq, last := s.now } })

/-- A GOOSE_VALUE record of an accepted frame: members 0 to 6 (R534). -/
def State.gooseValue (s : State) (i : Nat) (d : Delivered) (pos v : Nat) : State :=
  if pos > 6 then s else
  let x := sget s.subs {} i
  let tag := bits v 56 8
  let val := bits v 0 56
  let s := { s with subs := sset s.subs i { x with members := sset x.members pos (tag, val) } }
  s.evtIn { src := .goose i pos, value := val, tag := tag, frc := d.ts, ptp := d.tsPtp }

/-- One record: the fold carries whether the frame's GOOSE_STATE was accepted. -/
def State.sideRecord (x : Bool × State) (d : Delivered) : Bool × State :=
  let s := x.2
  match d.side with
  | .sv _ _ _ _ _ => x
  | .ev k index a b =>
    if k = 3 then (x.1, s.evtIn { src := .input index, value := a, vmask := b, frc := d.ts, ptp := d.tsPtp })
    else match d.sub with
    | none => (false, s.bump .EVT_NO_SUB 0)
    | some i =>
      if k = 1 then s.gooseState i d (bit index 0) (b % 4294967296) (b / 4294967296)
      else if x.1 then (true, s.gooseValue i d index b) else x

/-- A record of the event engine. -/
def Delivered.event (d : Delivered) : Bool := match d.side with | .ev _ _ _ _ => true | _ => false

/-- Sampled Values record that may go next: the oldest behind no held record of its port (R131, R298). -/
def readySv : List Delivered → List Nat → Option Delivered
  | [], _ => none
  | d :: t, blocked =>
    if d.event then readySv t blocked
    else if !d.hold && !blocked.contains d.port then some d
    else readySv t (ins blocked d.port)

/-- Event records that may go now: tagged, not held, and behind no such record of their port (R131). -/
def readySides : List Delivered → List Nat → List Delivered
  | [], _ => []
  | d :: t, blocked =>
    if !d.event then readySides t blocked
    else if d.ready && !d.hold && !blocked.contains d.port then d :: readySides t blocked
    else readySides t (ins blocked d.port)

/-- A subscription that was LOST is OK again: members its frame did not carry are valid again with their last values (R534, R535). -/
def State.subBack (s was : State) (d : Delivered) (l : List Delivered) : State :=
  match d.sub with
  | none => s
  | some i =>
    let x := sget s.subs {} i
    if (sget was.subs {} i).state ≠ 2 || x.state ≠ 1 then s else
    let carried (m : Nat) : Bool := l.any fun y => match y.side with | .ev 2 p _ _ => p == m | _ => false
    (x.members.filter fun e => !carried e.1).foldl (fun s e =>
      s.evtIn { src := .goose i e.1, value := e.2.2, tag := e.2.1, frc := d.ts, ptp := d.tsPtp }) s

/-- Take one frame's records at a time. -/
def State.drainFrames : Nat → State → State
  | 0, s => s
  | n + 1, s =>
    match readySides s.sideQ [] with
    | [] => s
    | d :: _ =>
      let mine (x : Delivered) : Bool := x.event && x.frame == d.frame && x.port == d.port
      let l := s.sideQ.filter mine
      let s := { s with sideQ := s.sideQ.filter fun x => !mine x }
      State.drainFrames n ((l.foldl State.sideRecord (false, s)).2.subBack s d l)

/-- Give the event engine every record that may go. -/
def State.drainSides (s : State) : State := State.drainFrames s.sideQ.length s

/-- The lookups of a frame have tagged its records (R532). -/
def State.tagSides (s : State) (fid : Nat) (sub : Option Nat) : State :=
  State.drainSides { s with sideQ := s.sideQ.map fun d => if d.frame = fid && !d.ready then { d with ready := true, sub := sub } else d }

end Sys2Proof.Machine
end

