-- ==== Sys2Proof/Machine/Buffers.lean ====
section
/-! DEFINITION. Ports, pools and buffers, the life of a frame and its copies, queues and occupancy (chapters 01, 02, 08). -/
namespace Sys2Proof.Machine

/-! ## Ports (R17, R31, R40, R44) -/

/-- The pipeline that serves a front-panel port (Table 1-2). -/
def portPl (p : Nat) : Nat := if p < 32 then p / 8 else (p - 32) / 2

/-- A local port number names a port (R32, R40). -/
def State.portExists (s : State) (p : Nat) : Bool :=
  if p < 32 then
    let m := s.fld F.PORT_QUAD_CFG.MODE (p / 4)
    m == 1 || ((m == 2 || m == 3 || m == 4) && p % 4 == 0)
  else decide (p < 44)

/-- The FENCE unit of a line, named by its first line: lines 0 to 11 share the pipelines (Table 18-1). -/
def unitOf (line : Nat) : Nat := if line < 12 then line % 4 else line

/-- Pipeline pl is fenced. -/
def State.plFenced (s : State) (pl : Nat) : Bool := s.flt.fenced.any fun l => l < 4 && l == pl

/-- Link up (R44). -/
def State.linkUp (s : State) (p : Nat) : Bool := bit (s.reg .PORT_STATUS p 0) 0

/-- Port rate in Mb/s (R44). -/
def State.rate (s : State) (p : Nat) : Nat :=
  let c := bits (s.reg .PORT_STATUS p 0) 5 3
  if c = 6 then (if s.fld F.PORT_QUAD_CFG.MODE (p / 4) = 2 then 40000 else 50000)
  else [0, 10, 100, 1000, 10000, 25000, 0, 100000].getD c 0

/-- MAX_FRAME as the device acts on it (R43). -/
def State.maxFrame (s : State) (p : Nat) : Nat :=
  if p < 40 then max 64 (min 16384 (s.fld F.PORT_CFG.MAX_FRAME p)) else 16384

/-- MAX_FRAME in force for a frame whose start-of-frame delimiter crossed the pins at instant t (R47). -/
def State.maxFrameAt (s : State) (p t : Nat) : Nat :=
  match ((sget s.ports {} p).maxWas.filter fun e => decide (t < e.1)).getLast? with
  | some e => e.2
  | none => s.maxFrame p

/-- Local port of a batch-global port of this member. -/
def State.localOf (s : State) (g : Nat) : Option Nat := if g / 64 = s.member then some (g % 64) else none

/-! ## Pools and buffers (R308 to R328) -/

/-- Size and blocks of a pool's buffers (Table 8-1). -/
def poolSize (k : Nat) : Nat := [256, 1024, 2048, 16384].getD k 16384
def poolBlocks (k : Nat) : Nat := [1, 4, 8, 64].getD k 64

/-- Smallest pool whose buffer holds n bytes. -/
def poolFor (n : Nat) : Nat := if n ≤ 256 then 0 else if n ≤ 1024 then 1 else if n ≤ 2048 then 2 else 3

/-- Buffers of a pool; free ones. -/
def State.poolCount (s : State) (k : Nat) : Nat := s.fld F.BUF_POOL_CFG.COUNT k
def State.poolFree (s : State) (k : Nat) : Nat :=
  s.poolCount k - (s.bufs.filter fun e => e.1 / 262144 == k).length - (s.quar.filter fun i => i / 262144 == k).length

/-- Block number at which a buffer begins (R312). -/
def State.bufBlock (s : State) (id : Nat) : Nat :=
  let k := id / 262144
  ((List.range k).map fun j => s.poolCount j * poolBlocks j).foldl (· + ·) 0 + id % 262144 * poolBlocks k

/-- Free buffer of lowest index of a pool (R316). -/
def State.lowestFree (s : State) (k : Nat) : Option Nat :=
  ((List.range (s.bufs.length + s.quar.length + 1)).map (· + k * 262144)).find? fun id =>
    decide (id % 262144 < s.poolCount k) && (sfind s.bufs id).isNone && !s.quar.contains id

/-- Grant a buffer of a pool to an owner. -/
def State.alloc (s : State) (k owner : Nat) : Option (Nat × State) :=
  match s.lowestFree k with
  | none => none
  | some id =>
    let s := { s with bufs := sset s.bufs id (owner, false) }
    some (id, { s with poolLow := sset s.poolLow k (min (sget s.poolLow (s.poolCount k) k) (s.poolFree k)) })

/-- A buffer for requester r alone in its cycle: of pool k, then of larger pools under its SPILL; the pool's pointer passes the requester
(R316 to R318). The answer names the pool and the buffer. -/
def State.allocFor (s : State) (r owner k : Nat) : Option (Nat × Nat × State) :=
  let spill := s.flag F.BUF_REQ_CFG.SPILL r
  ((List.range 4).filter fun j => j == k || (spill && decide (j > k))).findSome? fun j =>
    (s.alloc j owner).map fun x => (j, x.1, { x.2 with poolPtr := sput x.2.poolPtr 0 j ((r + 1) % 46) })

/-- Free a buffer (R321, R324, R325, R328). -/
def State.freeBuf (s : State) (id by_ : Nat) : State :=
  match sfind s.bufs id with
  | none => (s.bump .BUF_DOUBLE_FREE 0).raise 17
  | some (owner, bad) =>
    if owner ≠ by_ then (s.bump .BUF_OWNER_ERR 0).raise 17 else
    let s := { s with bufs := sdel s.bufs id }
    if bad then { (s.bump .BUF_QUARANTINE (id / 262144)) with quar := ins s.quar id } else s

/-- The CRC-32C of the blocks that a frame's bytes have completed, and at its tail of the one they partly fill (R326), by block number. -/
def State.seal (s : State) (f : Nat) : State :=
  match sfind s.frames f with
  | none => s
  | some x => match x.buf with
    | none => s
    | some id =>
      let n := if x.tail then cdiv x.bytes.length 256 else x.bytes.length / 256
      { s with crcs := (List.range (min n (poolBlocks (id / 262144)))).foldl (fun m j =>
          sset m (s.bufBlock id + j) (crc32c 0 ((x.bytes.drop (256 * j)).take 256))) s.crcs }

/-- A read of a frame's buffer mismatches its CRC-32C n times in a row (Table 8-6): the data is used unless all three reads fail. -/
def State.blockRead (s : State) (f n : Nat) : Bool × State :=
  if n = 0 then (true, s) else if n < 3 then (true, s.bump .BUF_CRC_RETRY 0) else
  let s := (s.bump .BUF_CRC_FAIL 0).raise 16
  match (sfind s.frames f).bind (·.buf) with
  | none => (false, s)
  | some id => (false, { s with bufs := match sfind s.bufs id with
      | some (o, _) => sset s.bufs id (o, true) | none => s.bufs })

/-! ## Frames -/

/-- Change a frame. -/
def State.modFrame (s : State) (f : Nat) (g : Frame → Frame) : State :=
  match sfind s.frames f with
  | none => s
  | some x => { s with frames := sset s.frames f (g x) }

/-- The time a port has spent in low-power idle since its entry is counted, whole microseconds at a time (R66). -/
def State.lpiCount (s : State) (p : Nat) : State :=
  if !s.flag F.PORT_STATUS.LPI_TX p then s else
  let x := sget s.ports {} p
  let n := x.lpiNs + (s.now - x.lpiAt)
  ({ s with ports := sset s.ports p { x with lpiAt := s.now, lpiNs := n % 1000 } } : State).add .LPI_TX_TIME_US p (n / 1000)

/-- A port leaves transmit low-power idle (R61). -/
def State.lpiExit (s : State) (p : Nat) : State :=
  if !s.flag F.PORT_STATUS.LPI_TX p then s else ((s.lpiCount p).setFld F.PORT_STATUS.LPI_TX p 0).settlePower

/-- The transmit side of a port is idle from now on (R60). -/
def State.txEnds (s : State) (p : Nat) : State := { s with ports := sset s.ports p { sget s.ports {} p with txIdle := s.now } }

/-- A PFC frame (IEEE 802.1Qbb): priority n is paused for the quanta, 0 to resume (R53, R55). -/
def pfcBytes (n quanta : Nat) : Bytes :=
  toBE 0x0180C2000001 6 ++ toBE Config.ownMac 6 ++ toBE 0x88080101 4 ++ toBE (2 ^ n) 2 ++
  ((List.range 8).flatMap fun k => toBE (if k = n then quanta else 0) 2) ++ List.replicate 26 0

/-- The transmitter of a front-panel port is in use: the link is up, its pipeline neither fenced nor proofing, and the device in no
safe state; otherwise it stays at electrical idle (Table 1-4, R773). -/
def State.txAlive (s : State) (p : Nat) : Bool :=
  s.linkUp p && s.ready (4 + portPl p) && !s.plFenced (portPl p) && !s.flt.safe && !s.pwr.closing

/-- Send a PFC frame at once, ahead of every queued frame and past every gate (R54). -/
def State.sendPfc (s : State) (p n quanta : Nat) : State :=
  if !s.txAlive p then s else
  let b := pfcBytes n quanta
  let s := ((((s.lpiExit p).bump .TX_PFC (p * 8 + n)).bump .TX_FRAMES p).add .TX_OCTETS p (b.length + 4)).txEnds p
  { s with sent := s.sent ++ [Sent.mk p b true s.now (fcs b)] }

/-- Ingress occupancy of a port and priority changes; PFC is sent when it reaches XOFF and released at XON (R53, R334). -/
def State.setIngOcc (s : State) (p n v : Nat) : State :=
  let i := p * 8 + n
  let s := s.setReg .ADM_ING_OCC i 0 v
  if p ≥ 32 || !bit (s.fld F.PORT_CFG.PFC_PRI p) n then s
  else if !s.pfcSent.contains i && v ≥ bits (s.reg .ADM_ING i 0) 0 19 then
    State.sendPfc { s with pfcSent := ins s.pfcSent i } p n (Config.pfcQuanta p)
  else if s.pfcSent.contains i && v ≤ bits (s.reg .ADM_ING i 1) 0 19 then
    State.sendPfc { s with pfcSent := del s.pfcSent i } p n 0
  else s

/-- A frame has reached END. -/
def Frame.ended (f : Frame) : Bool :=
  match f.phase with | .ended => true | .verdict => true | .tailWait => true | .admitted => true | _ => false

/-- A frame that leaves the device before its tail is remembered until the tail. -/
def State.keepTail (s : State) (f : Nat) (x : Frame) : State :=
  if x.tail || x.aborted.isSome then s else
  { s with tails := sset s.tails f {
      port := x.port
      pl := x.pl
      maxFrame := x.maxFrame
      len := x.bytes.length
      icnt := x.icnt
      parsed := x.ended
      maxE := if x.overrun then none else x.maxE
      exactE := if x.overrun then none else x.exactE
      off := x.off
      count := x.count } }

/-- The pairs that have waited for a frame's length count it now (R815). -/
def State.countPairs (s : State) (l : List Nat) (len : Nat) : State := l.foldl (fun s n => s.pairAdd n len) s

/-- A frame that ends without its verdict takes the records held for it along (R298). -/
def State.cancelSides (s : State) (f : Nat) : State :=
  let gone (d : Delivered) : Bool := d.hold && d.frame == f
  if s.sideQ.any gone then State.drainSides { s with sideQ := s.sideQ.filter fun d => !gone d } else s

/-- The frame leaves the device: its buffer is freed and its ingress occupancy released (R322, R334). -/
def State.endFrame (s : State) (f : Nat) : State :=
  match sfind s.frames f with
  | none => s
  | some x =>
    let s := ({ s with frames := sdel s.frames f } : State).keepTail f x
    let s := s.cancelSides f
    let s := if x.fwd && !x.looked then s.tagSides f none else s
    let s := match x.buf with | none => s | some id => s.freeBuf id x.owner
    match x.lossless with
    | none => s
    | some (p, n) => s.setIngOcc p n (s.reg .ADM_ING_OCC (p * 8 + n) 0 - x.blocks)

/-- One copy of a frame no longer holds it (R323). -/
def State.unref (s : State) (f : Nat) : State :=
  match sfind s.frames f with
  | none => s
  | some x => if x.refs ≤ 1 then s.endFrame f else s.modFrame f fun x => { x with refs := x.refs - 1 }

/-! ## Occupancy, queues and transmission -/

/-- Queue of a copy. -/
def State.queue (s : State) (q : Nat) : List Copy := sget s.queues [] q

/-- Set a queue. -/
def State.setQueue (s : State) (q : Nat) (l : List Copy) : State := { s with queues := sput s.queues [] q l }

/-- Charge or release k blocks of port p, class c (R332 step 6, R334). -/
def State.occ (s : State) (p c : Nat) : Nat := s.reg .ADM_OCC (p * 16 + c) 0
def State.charge (s : State) (cp : Copy) : State :=
  let s := if cp.voq.isSome || cp.port ≥ 44 then s else s.setReg .ADM_OCC (cp.port * 16 + cp.cls) 0 (s.occ cp.port cp.cls + cp.k)
  if cp.shared then s.setReg .ADM_SHARED_OCC 0 0 (s.reg .ADM_SHARED_OCC 0 0 + cp.k) else s
def State.release (s : State) (cp : Copy) : State :=
  let s := if cp.voq.isSome || cp.port ≥ 44 then s else s.setReg .ADM_OCC (cp.port * 16 + cp.cls) 0 (s.occ cp.port cp.cls - cp.k)
  if cp.shared then s.setReg .ADM_SHARED_OCC 0 0 (s.reg .ADM_SHARED_OCC 0 0 - cp.k) else s

/-- Discard a copy that waits in a queue. -/
def State.discard (s : State) (cp : Copy) : State := (s.release cp).unref cp.frame

/-- The bytes of a protected copy: the part in clear and the protected bytes, with the ICV where all of them are there. -/
def SecTx.sent (y : SecTx) (whole : Bool) : Bytes :=
  y.head ++ (fit (y.plain.length + 16) (Config.macsecProtect y.key y.pn y.plain)).take (if whole then y.plain.length + 16 else y.plain.length)

/-- What its frame has received since a transmission's rewrite, which it sends unchanged. -/
def State.txMore (s : State) (t : Tx) : Bytes :=
  if !t.ct then [] else ((sfind s.frames t.copy.frame).map fun f => f.bytes.drop t.took).getD []

/-- The bytes of a transmission as far as they are known: the rewritten head, and what its frame has received since. -/
def State.txBytes (s : State) (t : Tx) : Bytes :=
  match t.sec with
  | some y => if t.ct then { y with plain := y.plain ++ s.txMore t }.sent false else t.bytes
  | none => t.bytes ++ s.txMore t

/-- Bytes a transmission has begun to send: those that have left and the one in transmission now (R70). -/
def State.txBegun (s : State) (t : Tx) : Nat := (s.now - t.start) * s.rate t.copy.port / 8000 + 1

/-- The data of a transmission that leave when it stops at byte n, with its PRP trailer behind the last of them, which is still appended or
finishes (R288). The trailer of a protected copy passes stage 6 like the data before it, and no ICV follows (DESIGN CHOICE, log 59). -/
def State.txCut (s : State) (t : Tx) (n : Nat) : Bytes :=
  if t.trailer.isEmpty then (s.txBytes t).take n else
  let own := if t.bytes.length + 4 = t.len then t.trailer.length else 0
  match t.sec with
  | none => (t.bytes.take (t.bytes.length - own) ++ s.txMore t).take n ++ t.trailer
  | some y =>
    let d := y.plain.take (y.plain.length - own) ++ s.txMore t
    { y with head := y.head.take n, plain := d.take (n - y.head.length) ++ t.trailer }.sent false

/-- What leaves of a transmission that is stopped now (R70): its bytes, and the FCS that follows inverted, or whose remaining bytes do. -/
def txSentBytes (s : State) (t : Tx) (lim : Option Nat) : Bytes × Bytes :=
  let b := s.txBytes t
  let n := (lim.map (min (s.txBegun t))).getD (s.txBegun t)
  let out := s.txCut t n
  if !t.ct && n > b.length then (out, (fcs out).take (n - b.length) ++ inverted ((fcs out).drop (n - b.length)))
  else (out, inverted (fcs out))

/-- End the transmission of a node with an inverted FCS (R70) at the byte in transmission, n at most, counted under c on the egress port. -/
def State.stompAt (s : State) (node : Nat) (c : Option Ctr) (n : Option Nat) : State :=
  match sfind s.tx node with
  | none => s
  | some t =>
    let out := txSentBytes s t n
    let s := State.txEnds { s with tx := sdel s.tx node, sent := s.sent ++ [Sent.mk node out.1 false s.now out.2] } node
    let s := match c with | some c => if node < 40 then s.bump c node else s | none => s
    s.unref t.copy.frame

/-- End it at the byte in transmission. -/
def State.stomp (s : State) (node : Nat) (c : Option Ctr) : State := s.stompAt node c none

/-- Lose the transmission of a node (R50). -/
def State.loseTx (s : State) (node : Nat) : State :=
  match sfind s.tx node with
  | none => s
  | some t => (((({ s with tx := sdel s.tx node } : State).txEnds node).bump .TX_ABORT node)).unref t.copy.frame

/-- Queues that hold copies with p. -/
def State.dropCopies (s : State) (p : Copy → Bool) (c : Copy → State → State) : State :=
  s.queues.foldl (fun s e =>
    let gone := (s.queue e.1).filter p
    if gone.isEmpty then s else
    gone.foldl (fun s cp => c cp (s.discard cp)) (s.setQueue e.1 ((s.queue e.1).filter fun cp => !p cp))) s

/-- A frame is found bad after its END: copies not begun are discarded, copies in transmission end under R70. -/
def State.killCopies (s : State) (f : Nat) : State :=
  let s := s.tx.foldl (fun s e => if e.2.copy.frame = f then s.stomp e.1 (some .TX_STOMP) else s) s
  (s.dropCopies (fun cp => cp.frame == f) (fun _ s => s)).endFrame f

/-! ## Generations (R163 to R172) -/

/-- Generation a is at or after generation b (R164). -/
def genGe (a b : Nat) : Bool := decide ((a + 65536 - b % 65536) % 65536 < 32768)

/-- Class age limit in ns, as the device acts on it (R331). -/
def State.ageLimit (s : State) (c : Nat) : Nat :=
  let v := s.fld F.ADM_CLASS.AGE_LIMIT c
  1000 * (if v = 0 || v > 16000000 then 16000000 else v)

/-- A of R171: the largest age limit over the classes. -/
def State.maxAge (s : State) : Nat := ((List.range 16).map s.ageLimit).foldl max 0

/-- A frame has been dispatched. -/
def Frame.dispatched (f : Frame) : Bool :=
  match f.phase with | .waitBuf _ => false | .pending => false | _ => true

/-- OLD (R171, R172). -/
def State.old (s : State) : Nat :=
  let a := s.maxAge + 500000
  let live := s.frames.filter fun e => e.2.dispatched && decide (s.now < e.2.ts + a)
  let back := (live.map fun e => (s.cur + 65536 - e.2.gen) % 65536).foldl max 0
  (s.cur + 65536 - back) % 65536

/-- Visible to generation g (R165). -/
def visAt (used settled retired : Bool) (from_ until_ g : Nat) : Bool :=
  used && (settled || genGe g from_) && (!retired || !genGe g until_)

/-- The version of a versioned entry a copy of generation g uses: the newest whose FROM is at or before g (R269); versions
are listed oldest first. -/
def State.verAt (s : State) (t : VTab) (i g : Nat) : List Word :=
  match ((sget s.ver [] (t.code * 4294967296 + i)).filter fun v => v.settled || genGe g v.from_).getLast? with
  | some v => v.words
  | none => List.replicate t.words 0

end Sys2Proof.Machine
end

