-- ==== Sys2Proof/Machine/Outcome.lean ====
section
/-! DEFINITION. The side records a parse leaves: when they are released, held for a verdict and delivered (R97, R130, R131, R296,
R298). -/
namespace Sys2Proof.Machine

/-- What AUTH_VCFG asks of a frame (R296): 1, verify the extension it names; 2, it lacks the extension REQUIRE asks for; 0, nothing. -/
def State.authNeed (s : State) (f : Frame) : Nat :=
  let idx := sget f.fields 0 8 % 32
  if idx ≠ 31 then (if s.flag F.AUTH_VCFG.VERIFY f.port then 1 else 0)
  else if s.flag F.AUTH_VCFG.REQUIRE f.port && f.hdrs.any (fun h => h % 256 == 0x0D || h % 256 == 0x0E) then 2 else 0

/-- Value length of an algorithm code (R129); 0: none. -/
def macLen (alg : Nat) : Nat := [0, 10, 16, 32, 8, 16, 0, 0].getD alg 0

/-- The entries of a key identifier that qualify at a PTP second, the later FROM first (R638). -/
def State.groupKeys (s : State) (kid sec : Nat) : List GKey :=
  let l := (sget s.sec.gkeys [] kid).filter fun k => decide (k.from_ ≤ sec) && decide (sec < k.until_)
  match l with
  | [a, b] => if b.from_ > a.from_ then [b, a] else [a, b]
  | l => l

/-- Take one HMAC computation (R299: 64 in a microsecond, oldest first): whether it starts within so many 64ths of a microsecond. AES-GMAC
runs at line rate. -/
def State.hmac (s : State) (alg limit : Nat) : Bool × State :=
  if alg = 0 || alg > 3 then (true, s) else
  let t := s.now * 64 / 1000
  let start := max t s.authBusy
  if start > t + limit then (false, s) else (true, { s with authBusy := start + 1 })

/-- The verification of a frame is requested: its keys, and whether it is beyond capacity, which is when its computation would start later
than the 600 ns its verdict may take (DEDUCED, log 57). -/
def State.authAsk (s : State) (f : Frame) : AuthReq × State :=
  let a := sget f.fields 0 8
  let keys := s.groupKeys (bits a 8 8) (ptpSec f.tsPtp)
  if !keys.any (fun k => k.alg == bits a 5 3) then ({ keys := keys, overload := false }, s) else
  let (ok, s) := s.hmac (bits a 5 3) 38
  ({ keys := keys, overload := !ok }, s)

/-- A frame to be verified asks for it at the later of its END and its tail (R298). -/
def State.authStart (s : State) (f : Frame) : Frame × State :=
  if s.authNeed f ≠ 1 || !f.tail || f.auth.isSome then (f, s) else
  let (q, s) := s.authAsk f
  ({ f with auth := some q }, s)

/-- Sampled Values records that arrive at more than 160 million a second, in a window of 10 us, leave measurement undefined (R491,
R528). -/
def State.sideArrives (s : State) : State :=
  let n := (if s.sideRate.1 = s.now / 10000 then s.sideRate.2 else 0) + 1
  { s with sideRate := (s.now / 10000, n), phxWild := s.phxWild || decide (n > 1600) }

/-- A record of a known kind (Table 4-3), or a Sampled Values record. -/
def Side.known : Side → Bool
  | .sv _ _ _ _ _ => true
  | .ev k _ _ _ => decide (1 ≤ k) && decide (k ≤ 3)

/-- One record of a frame enters the side queue (R97, R130, R131); one of a frame under verification is held there until the verdict
(R298). -/
def State.putSide (fid : Nat) (f : Frame) (s : State) (x : Side) : State :=
  if !x.known then s.bump .PARSE_SIDE_UNKNOWN f.pl
  else if s.sideQ.length ≥ Config.sideQueue then s.bump .PHX_SIDE_DROP 0
  else
    let d : Delivered := {
      side := x
      port := f.port
      ts := f.ts
      tsPtp := f.tsPtp
      gen := f.gen
      frame := fid
      pl := f.pl
      ready := !f.fwd || f.looked
      sub := f.sub
      hold := s.authNeed f != 0 }
    { s with sideQ := s.sideQ ++ [d] }

/-- The records of a frame enter the side queue in slot order. -/
def State.putSides (s : State) (fid : Nat) (f : Frame) : State :=
  State.drainSides (f.sides.foldl (State.putSide fid f) s)

/-- The verdict of a frame whose records are held: they go on, flagged FAILED after a failure under ACTION 1, or are discarded (R298). -/
def State.sideVerdict (s : State) (fid : Nat) (keep failed : Bool) : State :=
  let mine (d : Delivered) : Bool := d.hold && d.frame == fid
  let q : List Delivered :=
    if keep then s.sideQ.map (fun d => if mine d then { d with hold := false, failed := failed } else d)
    else s.sideQ.filter (fun d => !mine d)
  State.drainSides { s with sideQ := q }

/-- A frame's records are released: it goes on to its lookups or to P43; one that waited for nothing else ends, or awaits its verdict. -/
def State.releaseSides (s : State) (e : Nat × Frame) : State :=
  let s := (s.putSides e.1 e.2).modFrame e.1 fun f => { f with sides := [] }
  if e.2.fwd || e.2.slow ≠ 0 then s
  else if s.authNeed e.2 = 0 then s.endFrame e.1
  else s.modFrame e.1 fun f => { f with phase := .verdict }

/-- Insert by dispatch order. -/
def insDisp (x : Nat × Frame) : List (Nat × Frame) → List (Nat × Frame)
  | [] => [x]
  | y :: t => if x.2.disp < y.2.disp then x :: y :: t else y :: insDisp x t

/-- Release what the ended frames of a port hold, in dispatch order, up to the first frame still in parse (R77, R131). -/
def State.flushSides (s : State) (p : Nat) : State :=
  let inParse := s.frames.filter fun e => e.2.port == p && (match e.2.phase with | .parsing _ => true | _ => false)
  let lim := (inParse.map (·.2.disp)).foldl min s.nextDisp
  let l := s.frames.filter fun e => e.2.port == p && decide (e.2.phase = .ended) && decide (e.2.disp < lim) && !e.2.sides.isEmpty
  (l.foldl (fun acc x => insDisp x acc) []).foldl State.releaseSides s

/-! ## Lookup space (R239) -/

/-- Frames of a pipeline that await lookup, those in the release queues among them; a frame whose lookups are done awaits none. -/
def State.awaiting (s : State) (pl : Nat) : Nat :=
  (s.frames.filter fun e => e.2.pl == pl && decide (e.2.phase = .ended)).length

/-- Frames that engines of a pipeline keep at their END, in dispatch order. -/
def State.heldAtEnd (s : State) (pl : Nat) : List (Nat × Frame) :=
  ((List.range 8).filterMap fun k => (sfind s.engines (pl * 8 + k)).bind fun e =>
    if e.done then (sfind s.frames e.frame).map fun f => (e.frame, f) else none).foldl (fun l x => insDisp x l) []

/-- The oldest frame kept at its END moves on when there is space. -/
def State.releaseOne (s : State) (pl : Nat) : State :=
  match s.heldAtEnd pl with
  | [] => s
  | (fid, f) :: _ =>
    if s.awaiting pl ≥ 256 then s else
    let s := { s with engines := s.engines.filter fun e => !(e.1 / 8 == pl && e.2.done && e.2.frame == fid) }
    (s.modFrame fid fun f => { f with phase := .ended }).flushSides f.port

/-- Lookup space has freed: the engines kept at their END give up their frames, oldest first. -/
def State.releaseHeld (s : State) (pl : Nat) : State := (List.range 8).foldl (fun s _ => s.releaseOne pl) s

/-- Release what the ended frames of a port hold, and what waited for the space that frees. -/
def State.flushRelease (s : State) (p : Nat) : State := (List.range 4).foldl State.releaseHeld (s.flushSides p)

end Sys2Proof.Machine
end

