-- ==== Sys2Proof/Machine/Reset.lean ====
section
/-! DEFINITION. Cold, warm and host-interface reset (R676, R745 to R749) and the security domain's share of them. -/
namespace Sys2Proof.Machine

/-- Registers after a warm reset: only RWS fields keep their value (R9, Table 17-9). -/
def keepRws (regs : Sparse Word) (all : List Reg) : Sparse Word :=
  regs.foldl (fun m e =>
    match all.find? fun r => r.code == e.1 / 4294967296 with
    | none => m
    | some r =>
      let i := e.1 % 4294967296 / 256
      let k := e.1 % 256
      let v := (r.resetNat i k &&& (4294967295 - (r.masks k).rws)) ||| (e.2.toNat &&& (r.masks k).rws)
      sput m (w32 (r.resetNat i k)) e.1 (w32 v)) []

/-- Registers with RWS fields. -/
def rwsRegs : List Reg := [.FLT_FIRST, .FLT_ESC, .FLT_SAFE_CAUSE, .SEC_BOOT]

/-- Sessions and exchanges end; the transaction is discarded with everything it staged (R657, R694). -/
def closeSessions (x : Sec) : Sec := { x with sessions := [], opening := [] }

/-- The security domain after a reset that runs the starter: persistent items kept, sessions closed, measurements cleared
(Table 15-1, R645, R657). -/
def secAfterReset (x : Sec) (cold : Bool) : Sec :=
  { closeSessions x with
    debug := if cold then 0 else x.debug
    rngFail := false
    challenge := none
    fails := []
    lockout := []
    running := none
    meas := List.replicate 16 (List.replicate 64 0)
    log := []
    logLost := false }

/-- What the outside world keeps of the module across every reset: the command queue, the counter of free values, what has left
the module. -/
def outside (s t : State) : State :=
  { t with
    pending := s.pending
    free := s.free
    rd := s.rd
    sent := s.sent
    hostRx := s.hostRx
    cpls := s.cpls
    pmuTx := s.pmuTx
    startCfg := s.startCfg
    i2cAddr := s.i2cAddr }

/-- The identity that follows the member id (R585, Table 14-4). -/
def setMember (s : State) (m : Nat) : State :=
  let s := s.setFld F.FAB_STATE.MEMBER_ID 0 m
  let s := s.setFld F.FAB_STATE.LEADER 0 m
  let s := s.setReg .FAB_STATE 0 0 (putBits (s.reg .FAB_STATE 0 0) 23 9 m)
  s.setReg .HOST_ID 0 0 (0x4816 + 65536 * Config.siliconRev.toNat + 16777216 * (if m < 256 then m else 0))

/-- The cause of a reset (R749). -/
def setCause (s : State) (c : Nat) : State := s.setReg .PWR_LAST_RESET 0 0 c

/-- What a report of the charging store gives the estimate of its capacitance (R724): from the first report at or above 40 V to the one that
reaches 80 V it has charged at 50 mA. -/
def Pwr.estimate (x : Pwr) (now mv : Nat) : Pwr :=
  if x.chargeAt.isNone || mv < 40000 then { x with from40 := none } else
  match x.from40 with
  | none => if mv < 80000 then { x with from40 := some (now, mv) } else x
  | some (t, v) => if mv < 80000 then x else { x with from40 := none, cap := max 1 (50 * (now - t) / (mv - v)) }

/-- The store's voltage (R723 to R725): ARMED at 80 V, clear below 76 V; CARRY_MS from the estimate. -/
def State.setStore (s : State) (mv : Nat) : State :=
  let s := { s with pwr := { s.pwr.estimate s.now mv with store := mv } }
  let s := if mv ≥ 80000 then s.setFld F.PWR_STAT.ARMED 0 1 else if mv < 76000 then s.setFld F.PWR_STAT.ARMED 0 0 else s
  s.setFld F.PWR_STAT.CARRY_MS 0 (min 65535 (s.pwr.cap * (mv * mv - 1600000000) / 42000000000000))

/-- A warm reset (Table 17-9): RWS fields, the FRC, the grid accumulator, member id, debug state, DRAM contents (the firmware region is
loaded again) and the persistent items stay; lines still asserted latch again. Undefined behaviour ends (R12), but that of the supply,
which the reset leaves as it is (R757). -/
def State.warmReset (s : State) (cause : Nat) (tryB : Bool) : State :=
  let t : State := { State.reset with
    now := s.now
    regs := keepRws s.regs rwsRegs
    ctrs := sput [] 0 (ckey .CDC_FLUSH 0) (s.ctr .CDC_FLUSH 0)
    clock := {
      ptp := (s.now * ptpUnit : Nat)
      grid := s.clock.grid
      gridRem := s.clock.gridRem
      pllLocked := s.clock.pllLocked
      ref25 := s.clock.ref25 }
    dram := s.dram.filter fun e => decide (fwRegion.2 ≤ e.1)
    dramSide := s.dramSide.filter fun e => decide (fwRegion.2 ≤ 64 * e.1)
    undef := s.undef.filter fun u => u == .supplyControl
    wild := s.wild
    sec := secAfterReset s.sec false
    txSa := s.txSa
    rxSa := s.rxSa
    pwr := { s.pwr with
      closing := false
      shedDone := 0
      shedFns := []
      undoAt := none
      deferred := 0
      gated := []
      quiesce := false
      banksOff := []
      dramRef := false
      onStore := false
      phxWas := false
      plWas := false
      from40 := none
      budgetAt := []
      okAt := []
      wake := [] }
    flt := { cond := s.flt.cond, raised := s.flt.cond, lastAt := s.flt.lastAt, escAt := s.flt.escAt, modeSet := s.flt.modeSet }
    journal := s.journal
    batch := { config := s.batch.config } }
  let t := outside s t
  let t := setMember t s.member
  let t := t.setReg .FLT_CTL 0 0 (s.reg .FLT_CTL 0 0)
  let t := t.setReg .TIME_CTL 0 0 (putBits (t.reg .TIME_CTL 0 0) 4 1 (b2n s.clock.ref25))
  let t := (List.range 2).foldl (fun t i => t.setReg .DRAM_STAT i 0 (bits (s.reg .DRAM_STAT i 0) 0 1 + 2)) t
  let t := if tryB then t.setFld F.SEC_BOOT.TRY_B 0 1 else t
  ((setCause t cause).setStore t.pwr.store).journal1 4 cause

/-- A cold reset (Table 17-9): everything restarts but the journal, the persistent store, OTP, the hold-up store and the flash. Undefined
behaviour ends, unless a misuse of the supply has worn the hardware (R14, R757). -/
def State.coldReset (s : State) (cause : Nat) (tryB high ref25 : Bool) (member : Nat) : State :=
  let t : State := { State.reset with
    sec := secAfterReset s.sec true
    clock := { ref25 := ref25 }
    pwr := {
      on := true
      high := high
      vin := s.pwr.vin
      store := s.pwr.store
      cap := s.pwr.cap
      power := s.pwr.power
      chargeAt := s.pwr.chargeAt.map fun _ => 0
      lost := s.pwr.lost
      hot := s.pwr.hot }
    journal := { s.journal with signAt := 0 }
    undef := if s.undef.contains .supplyControl && Config.worn s.free then [.supplyControl] else [] }
  let t := outside s t
  let t := setMember t member
  let t := t.setReg .TIME_CTL 0 0 (putBits (t.reg .TIME_CTL 0 0) 4 1 (b2n ref25))
  let t := if tryB then t.setFld F.SEC_BOOT.TRY_B 0 1 else t
  ((setCause t cause).setStore t.pwr.store).journal1 4 cause

/-- A start configuration is used (R750, R751): its digest matches and, in PROVISIONED and FIELD, the owner root key or an ADMIN
operator key signs it. -/
def State.cfgOk (s : State) (c : StartCfg) : Bool :=
  c.digestOk && (s.sec.lifecycle = 0 || s.sec.lifecycle = 3 ||
    Config.ed448Verify s.sec.ownerRoot c.content c.sig ||
    s.sec.operators.any fun e => e.2.role == 2 && Config.ed448Verify e.2.key c.content c.sig)

/-- The start configuration in use; the reset values where it is rejected. -/
def State.cfgUsed (s : State) : StartCfg :=
  match s.startCfg with
  | some c => if s.cfgOk c then c else { digestOk := false, sig := [], content := [] }
  | none => { digestOk := false, sig := [], content := [] }

/-- A reset is requested (R745 to R747): during HOLD it is deferred and carried out as a warm reset; the safe state of an EXTEST is
left by a cold reset only (R775). -/
def State.doReset (s : State) (cold : Bool) (cause : Nat) (tryB : Bool) : State :=
  if s.power = 3 || s.pwr.onStore then { s with pwr := { s.pwr with deferred := cause + 16 * b2n tryB } }
  else if cold then s.coldReset cause tryB s.pwr.high s.cfgUsed.ref25 s.cfgUsed.memberId
  else if s.flt.cold then s
  else s.warmReset cause tryB

/-- A staged transaction is discarded (R694): staged CMT values, staged versions and uncommitted entries go, uncommitted
retirements are taken back. -/
def State.discardStaged (s : State) : State :=
  let g := (s.cur + 1) % 65536
  let unret (e : Entry) : Entry := if e.retired && e.until_ == g then { e with retired := false, until_ := 0 } else e
  { s with
    cmt := []
    ver := s.ver.filterMap fun e =>
      let l := e.2.filter fun v => v.settled || genGe s.cur v.from_
      if l.isEmpty then none else some (e.1, l)
    exm := (s.exm.filter fun e => e.2.settled || genGe s.cur e.2.from_).map fun e => (e.1, unret e.2)
    lpm := (s.lpm.filter fun e => e.2.settled || genGe s.cur e.2.from_).map fun e =>
      (e.1, if e.2.retired && e.2.until_ == g then { e.2 with retired := false, until_ := 0 } else e.2)
    tcam := (s.tcam.filter fun e => e.2.settled || genGe s.cur e.2.from_).map fun e =>
      (e.1, if e.2.retired && e.2.until_ == g then { e.2 with retired := false, until_ := 0 } else e.2)
    load := none
    rehash := s.rehash.filter fun r => s.fld F.EXM_LTBL_CTL.ACTIVE r.table == r.desc
    flushQ := s.flushQ.filter fun f => !f.staged }

/-- The open transaction of a channel is aborted (R676, R694). -/
def State.abortTxn (s : State) : State :=
  { s.discardStaged with
    txn := none
    batch := { s.batch with
      leading := none
      waits := none } }

/-- The effects of R676 on one mailbox channel (R681): its registers are reset, its commands discarded, its session closed and
its transaction aborted. -/
def State.stopChan (s : State) (ch : Nat) : State :=
  let s := (List.range 7).foldl (fun s k => s.setReg .MBX_RING ch k (Reg.MBX_RING.resetNat ch k)) s
  let s := if (s.txn.map (·.ch)) = some ch then s.abortTxn else s
  { s with
    mbx := sdel s.mbx ch
    sec := { s.sec with sessions := sdel s.sec.sessions ch, opening := sdel s.sec.opening ch } }

/-- The P40 rings are reset (R676, Table 17-11). -/
def State.ringsReset (s : State) : State :=
  let s := (List.range 8).foldl (fun s r => (List.range 4).foldl (fun s k =>
    (s.setReg .HDMA_TX r k (Reg.HDMA_TX.resetNat r k)).setReg .HDMA_RX r k (Reg.HDMA_RX.resetNat r k)) s) s
  { s with rings := [] }

/-- The host-interface reset (R676). -/
def State.hostReset (s : State) : State :=
  let s := ((List.range 16).foldl State.stopChan s).ringsReset
  { s with
    irq := { s.irq with asleep := ins s.irq.asleep 4, msix := [], pba := [] } }

end Sys2Proof.Machine
end

