-- ==== Sys2Proof/Machine/Units.lean ====
section
/-! DEFINITION. Events on units that several chapters name: a MAC abort, a port going down, a Niben link going down, a stream
changing state, the bypass drivers, and the block reset and fence of a unit (R50, R51, R433, R500, R621, R766, R849). -/
namespace Sys2Proof.Machine

/-- The counter of a MAC abort's cause (R849, Table 2-8). -/
def abortCtr : AbortCause → Ctr
  | .linkLoss => .RX_ABORT
  | .speedOrMode => .RX_ABORT
  | .fcs => .RX_FCS_ERR
  | .fec => .RX_FCS_ERR
  | .tooLong => .RX_OVERSIZE

/-- A MAC abort of a frame whose tail has not arrived (R849): in parse it acts at the next boundary, after END on the copies; a frame not
yet dispatched is discarded at once (DESIGN CHOICE, log 224). One abort of a frame counts; L of a
frame cut off is what has been received of it (DEDUCED, log 255). -/
def State.macAbort (s : State) (f : Nat) (c : AbortCause) : State :=
  match sfind s.frames f with
  | none => match sfind s.tails f with
    | some t => { (s.bump (abortCtr c) t.port).countPairs t.count (t.len + t.off) with tails := sdel s.tails f }
    | none => s
  | some x =>
    if x.tail || x.aborted.isSome then s else
    let s := if x.port < 40 then s.bump (abortCtr c) x.port else s
    let s := s.countPairs x.count (x.bytes.length + x.off)
    let s := s.modFrame f fun x => { x with aborted := some c, count := [] }
    match x.phase with
    | .parsing _ => s
    | .ended => s
    | .admitted => s.killCopies f
    | _ => s.endFrame f

/-- Frames of a port that are still being received. -/
def State.receiving (s : State) (p : Nat) : List Nat :=
  (s.frames.filter fun e => e.2.port == p && !e.2.tail).map (·.1) ++ (s.tails.filter fun e => e.2.port == p).map (·.1)

/-- The flush of a link-down event (R51). -/
def State.linkFlush (s : State) (p : Nat) : State :=
  if s.flag F.PORT_CFG.LINKDOWN_FLUSH p then
    { s with flushQ := s.flushQ ++ [{ table := 0, gport := s.gport p, staged := false, static_ := false, tell := true }] }
  else s

/-- A port's link goes down (R50, R51): the frame in transmission is lost, those in reception are aborted, the port reports down
and, with LINKDOWN_FLUSH, its FDB entries are flushed. -/
def State.portDown (s : State) (p : Nat) : State :=
  if !s.linkUp p then s else
  let s := (s.loseTx p).lpiExit p
  let s := (s.receiving p).foldl (fun s f => s.macAbort f .linkLoss) s
  let v := s.reg .PORT_STATUS p 0
  let s := s.setReg .PORT_STATUS p 0 (v &&& 0x6)
  (s.irqSignal (128 + p) false).linkFlush p

/-- State of a Niben link (Table 14-2): a change raises FAB_LINK_CHANGE (R582). -/
def State.linkState (s : State) (l : Nat) : Nat := s.fld F.FAB_LINK_STAT.STATE l
def State.setLinkState (s : State) (l v : Nat) : State :=
  if s.linkState l = v then s else (s.setFld F.FAB_LINK_STAT.STATE l v).pulse 52

/-- The header words of a FRAME message (R590, Table 14-6). -/
def FrameMsg.header (m : FrameMsg) (age : Nat) : List Nat :=
  [ 1 + 16 * (8 + m.hdrs.length + cdiv m.bytes.length 4) + 131072 * m.src + 67108864 * m.hops,
    m.dest + 32768 * b2n m.group + 65536 * m.cls + 1048576 * m.colour + 4194304 * b2n m.markDei + 8388608 * m.hdrs.length +
      268435456 * b2n m.rewrite.isSome + 536870912 * b2n m.suspect + 1073741824 * b2n m.untrace,
    m.rewrite.getD 0 + 65536 * m.bytes.length, m.tsNs, m.tsSec % 4294967296, m.tsSec / 4294967296 + 65536 * m.srcGport, age,
    m.hdrIndex + 2097152 * m.pcp ]

/-- A FRAME message as the link carries it: header words, header stack, frame bytes without FCS, padded to 4 bytes. -/
def FrameMsg.wire (m : FrameMsg) (age : Nat) : Bytes :=
  (m.header age).flatMap (fun w => toBE w 4) ++ m.hdrs.flatMap (fun h => toBE h.toNat 4) ++ m.bytes ++
  List.replicate (4 * cdiv m.bytes.length 4 - m.bytes.length) 0

/-- Blocks a message takes: a FRAME message by its length, any other one (DESIGN CHOICE, log 133: the spec gives the others no length). -/
def FabMsg.blocks : FabMsg → Nat
  | .frame _ _ age m => cdiv (m.wire age).length 244
  | _ => 1

/-- A control message goes before the FRAME messages that wait (R591). -/
def FabMsg.isFrame : FabMsg → Bool
  | .frame .. => true
  | _ => false

/-- A message's blocks enter the retry buffer and are sent (R576, R579). -/
def Link.enter (k : Link) (now : Nat) (m : FabMsg) : Link :=
  let x : LinkTx := { seq := k.nextSeq, n := m.blocks, msg := m }
  { k with
    kept := k.kept ++ [x]
    out := k.out ++ [x]
    retry := k.retry + x.n
    nextSeq := (k.nextSeq + x.n) % 65536
    retryAt := if k.retry = 0 then now else k.retryAt }

/-- Messages that wait enter the retry buffer of 8,192 blocks while it has room; without room the link sends IDLE blocks (R579). A copy counts
as transmitted when the last block that holds it enters (R595). -/
def State.pumpLink (s : State) (l : Nat) : List FabMsg → State
  | [] => { s with links := smod s.links {} l fun k => { k with wait := [] } }
  | m :: rest =>
    let k := sget s.links {} l
    if k.retry + m.blocks > 8192 then { s with links := sset s.links l { k with wait := m :: rest } } else
    let s : State := { s with links := sset s.links l (k.enter s.now m) }
    State.pumpLink (match m with | .frame cp _ _ _ => s.unref cp.frame | _ => s) l rest

/-- Put a message on a link: a control message before the FRAME messages that wait (R591). -/
def State.sendOn (s : State) (l : Nat) (m : FabMsg) : State :=
  let w := (sget s.links {} l).wait
  s.pumpLink l (if m.isFrame then w ++ [m] else w.filter (fun x => !x.isFrame) ++ m :: w.filter FabMsg.isFrame)

/-- Every block from a SEQ onward is sent again, in order (R578, R580). -/
def Link.resend (k : Link) (seq : Nat) : Link :=
  { k with out := k.out ++ k.kept.filter fun x => decide (serial k.acked seq 16 < serial k.acked (x.seq + x.n) 16) }

/-- Send a control message to the batch: once on every UP link. -/
def State.sendAll (s : State) (x : FabMsg) : State :=
  ((List.range 8).filter fun l => s.linkState l == 3).foldl (fun s l => s.sendOn l x) s

/-- Quads in NIBEN mode, the lower first (R575). -/
def State.nibenQuads (s : State) : List Nat := (List.range 8).filter fun q => s.fld F.PORT_QUAD_CFG.MODE q == 5

/-- Link l may come up: its quad runs in NIBEN mode, the member takes part in a batch, the link is enabled and not fenced. -/
def State.linkAllowed (s : State) (l : Nat) : Bool :=
  decide (l / 4 < s.nibenQuads.length) && s.flag F.FAB_CTL.EN 0 && s.flag F.FAB_LINK_CFG.EN l &&
  !s.flt.fenced.contains (20 + l) && !s.flt.safe

/-- The members one hop beyond a set of members with the first links that lead to them, members seen left out. -/
def State.hopFrom (s : State) (seen : Sparse (Nat × Nat)) (front : Sparse Nat) : Sparse Nat :=
  front.foldl (fun m e =>
    (sget s.peers {} e.1).links.foldl (fun m k =>
      if k.2.1 = s.member || (sfind seen k.2.1).isSome then m else smod m 0 k.2.1 fun x => x ||| e.2) m) []

/-- Shortest paths over the link states known: hops and first links of every member reached. -/
def State.paths (s : State) : Nat → Nat → Sparse Nat → Sparse (Nat × Nat) → Sparse (Nat × Nat)
  | 0, _, _, seen => seen
  | n + 1, hops, front, seen =>
    if front.isEmpty then seen else
    let seen := front.foldl (fun m e => sset m e.1 (hops, e.2)) seen
    State.paths s n (hops + 1) (s.hopFrom seen front) seen

/-- Members one hop away: the peers of the links that are UP. -/
def State.neighbours (s : State) : Sparse Nat :=
  ((List.range 8).filter fun l => s.linkState l == 3).foldl (fun m l =>
    smod m 0 (s.fld F.FAB_LINK_STAT.PEER l) fun x => x ||| 2 ^ l) []

/-- The epoch and the digest of this member (R586). -/
def State.epoch (s : State) : Nat := s.reg .FAB_EPOCH 0 0 + 4294967296 * s.reg .FAB_EPOCH 0 1
def State.digest (s : State) : Bytes := wordsBytes ((List.range 16).map fun i => w32 (s.reg .FAB_EPOCH 0 (2 + i)))

/-- Members reachable, this one among them. -/
def State.reachable (s : State) : List Nat :=
  ins (((s.written .FAB_ROUTE).map (·.1)).filter fun m => bit (s.reg .FAB_ROUTE m 0) 12) s.member

/-- Epoch of a member as far as it is known. -/
def State.epochOf (s : State) (m : Nat) : Nat := if m = s.member then s.epoch else (sget s.peers {} m).epoch

/-- The leader, the time reference and the batch state follow reachability and epochs (R609, R614, R616, R621, R622). -/
def State.batchSettle (s : State) : State :=
  let l := s.reachable
  let top := (l.map s.epochOf).foldl max 0
  let lead := (l.find? fun m => s.epochOf m == top).getD s.member
  let s := s.setFld F.FAB_STATE.LEADER 0 lead
  let ref := (l.find? fun m => if m = s.member then s.flag F.TIME_STATUS.TRACEABLE 0 else (sget s.peers {} m).trace).getD lead
  let s := s.setReg .FAB_STATE 0 0 (putBits (s.reg .FAB_STATE 0 0) 23 9 ref)
  if !((List.range 8).any fun l => s.linkState l == 3) then s.setFld F.FAB_STATE.STATE 0 0
  else
    let p := sget s.peers {} lead
    let st := if lead = s.member || (p.epoch == s.epoch && p.digest == s.digest) then 2
      else if p.digest.isEmpty then max 1 (s.fld F.FAB_STATE.STATE 0) else 3
    s.setFld F.FAB_STATE.STATE 0 st

/-- Firmware writes the routes that the link states give (R587), and notes which members have become unreachable (R620). -/
def State.routesUpdate (s : State) : State :=
  let was := s.reachable
  let p := s.paths 512 1 s.neighbours []
  let all := (p.map (·.1)).foldl ins ((s.written .FAB_ROUTE).map (·.1))
  let s := all.foldl (fun (s : State) m => s.setReg .FAB_ROUTE m 0
    (match sfind p m with | some (h, k) => k + 256 * min 15 h + 4096 | none => 0)) s
  let lost := was.filter fun m => m != s.member && (sfind p m).isNone
  let near := s.peers.map fun e => if (sfind p e.1).isSome then (e.1, { e.2 with unreachAt := none }) else e
  let now := s.now
  State.batchSettle { s with peers := lost.foldl (fun x m => sset x m { sget x {} m with unreachAt := some now }) near }

/-- Flood this member's own link state (R587): its UP links with their peers, and its local ports. -/
def State.announce (s : State) : State :=
  let up := (List.range 8).filter fun l => s.linkState l == 3
  s.sendAll (.linkState s.member (up.map fun l => (l, s.fld F.FAB_LINK_STAT.PEER l, s.fld F.FAB_LINK_STAT.PEER_LINK l))
    ((List.range 44).filter s.portExists))

/-- A Niben link goes down with a reason (Table 14-3); what it held is gone, and it trains again while it may. -/
def State.nibenDown (s : State) (l reason : Nat) : State :=
  let s := s.setFld F.FAB_LINK_STAT.REASON l reason
  let s := s.setLinkState l 0
  let s := (sget s.links {} l).wait.foldl (fun (s : State) m => match m with | .frame cp _ _ _ => s.unref cp.frame | _ => s) s
  (State.routesUpdate { s with links := sset s.links l { lockAt := some s.now } }).announce

/-- Links follow their settings: one that may come up starts training, one that may not goes down. -/
def State.linksSettle (s : State) : State :=
  (List.range 8).foldl (fun (s : State) l =>
    if s.linkAllowed l then
      if s.linkState l = 0 then State.setLinkState { s with links := sset s.links l { lockAt := some s.now } } l 1 else s
    else if s.linkState l = 0 then s else s.nibenDown l 0) s

/-- Digest of a batch configuration. -/
def cfgDigest (l : List Word) : Bytes := Config.shake256 (wordsBytes l)

/-- A received batch configuration is staged once no transaction is open, and its digest is reported (R611, R612). -/
def State.batchTry (s : State) : State :=
  let b := s.batch
  if !b.whole || b.staged.isSome || b.noReport || s.txn.isSome then s else
  let d := cfgDigest b.segs
  State.sendAll { s with batch := { b with staged := some b.segs, own := some d } } (.config b.epoch [] (some (s.member, d)))

/-- A stream changes state (R500): its status, the event engine's STATE quantity and, on entry to LOST, STREAM_LOSS. -/
def State.setStream (s : State) (i v : Nat) : State :=
  let x := sget s.streams {} i
  if x.state = v then s else
  let s := { s with streams := sput s.streams {} i { x with state := v } }
  let s := s.setFld F.PHX_STREAM_STAT.STATE i v
  let s := s.evtIn { src := .qty i 64, value := v }
  if v = 3 then s.pulse (200 + i / 1024) else s

/-- Conditions on phasor values of these streams lose their input: held false and flagged (Table 1-4, Table 18-3). -/
def State.phxInvalid (s : State) (p : Nat → Bool) : State :=
  s.condList.foldl (fun s c =>
    let t := s.fld F.EVT_COND.TYPE c
    let v := s.reg .EVT_COND c 1
    if (t == 1 || t == 2) && p (v % 4096) then s.evtIn { src := .qty (v % 4096) (v / 4096 % 256), value := 0, valid := false } else s) s

/-- The conditions under which bypass driver d is on (Table 10-5). -/
def State.bypCond (s : State) (d : Nat) : Bool :=
  s.ready 8 && !s.flt.safe && !bit (s.reg .PRED_BYP_CTL 0 0) d && !s.pwr.closing &&
  (List.range 16).any fun k =>
    s.fld F.PRED_PAIR.ROLE k == 2 && s.fld F.PRED_PAIR.BYP k == d + 1 &&
    (let pl := portPl (s.fld F.PRED_PAIR.PORT_A k)
     !s.plFenced pl && (s.ready (4 + pl) || s.pwr.gated.contains pl))

/-- Drivers whose conditions no longer hold go off; those whose conditions hold start their 10 ms (R433, R434). -/
def State.bypSettle (s : State) : State :=
  let s := (List.range 2).foldl (fun (s : State) d =>
    if s.bypCond d then { s with bypAt := if (sfind s.bypAt d).isSome then s.bypAt else sset s.bypAt d s.now }
    else { s with bypAt := sdel s.bypAt d, pins := { s.pins with byp := del s.pins.byp d } }) s
  s.setReg .PRED_BYP_CTL 0 0 (putBits (s.reg .PRED_BYP_CTL 0 0) 4 2
    (b2n (s.pins.byp.contains 0) + 2 * b2n (s.pins.byp.contains 1)))

/-- Frames in parse of a pipeline that is fenced or reset end, each counted (order 1 of Table 3-10); what waited behind them goes. One
parked at its END has ended its parse and is discarded with the rest (R239). -/
def State.endParse (s : State) (pl : Nat) : State :=
  let l := s.frames.filter fun e => e.2.pl == pl && (match e.2.phase with | .parsing _ => true | _ => false)
  let s := l.foldl (fun s e =>
    let s := s.bump .PARSE_FENCED pl
    match e.2.phase with
    | .parsing k => { s with engines := sdel s.engines (pl * 8 + k) }.endFrame e.1
    | _ => s) s
  ((l.map (·.2.port)).foldl ins []).foldl State.flushRelease s

/-- Host-written entries come back from firmware's copy after a block reset; learned ones are gone. -/
def keepHost (m : Sparse Entry) (bank : Nat) : Sparse Entry :=
  m.filter fun e => !(e.1 < 1048576 && e.1 / 262144 == bank && e.2.learned)

/-- The counters a block keeps of its own, with how many of them each block has; port counters follow the port's pipeline. Every reset
clears them (R113, R147, R260, R304, R527, R623, R814); the MAC counters of its ports are the ports' (DESIGN CHOICE, log 253). -/
def plCtrs : List (Ctr × Nat) :=
  [(.PARSE_FRAMES, 1), (.PARSE_SLOTS, 1), (.PARSE_OVER_BUDGET, 1), (.PARSE_STALL_CYCLES, 1), (.PARSE_ABORTED, 1), (.PARSE_FENCED, 1),
   (.PARSE_SIDE_EXCESS, 1), (.PARSE_ILLEGAL_OP, 1), (.PARSE_CALL_DEPTH, 1), (.PARSE_RET_EMPTY, 1), (.PARSE_WINDOW, 1),
   (.PARSE_STACK_FULL, 1), (.PARSE_OUTCOME, 6), (.PARSE_MALFORMED, 256), (.PARSE_SLOWPATH, 256), (.PARSE_LATE_MALFORMED, 1),
   (.PARSE_COPY_SUPPRESSED, 1), (.PARSE_SIDE_UNKNOWN, 1), (.TCAM_SEARCHES, 2), (.TCAM_HITS, 2), (.TCAM_NO_PROFILE, 1),
   (.TCAM_FALSE_HIT, 1), (.TCAM_FH_MISS, 1), (.TCAM_SCRUB_FIX, 1), (.TCAM_SHADOW_UE, 1), (.TCAM_THROTTLE_WAIT, 1), (.NO_DEST, 1),
   (.NH_MISS, 1)]
def plPortCtrs : List Ctr := [.PARSE_STALL_DROP, .PARSE_MAL_PORT]
def phxCtrs : List (Ctr × Nat) :=
  [(.PHX_BANK_WAKE, 1024), (.PHX_SMPCNT_RANGE, 1024), (.PHX_RESYNC, 1024), (.PHX_SAMPLES, 1024), (.PHX_REORDERED, 1024),
   (.PHX_DUP, 1024), (.PHX_DUP_DIFFER, 1024), (.PHX_LATE, 1024), (.PHX_INTERP, 1024), (.PHX_ABSENT, 1024)]
def fabCtrs : List (Ctr × Nat) := [(.FAB_BLK_CRC, 1), (.FAB_BLK_SEQ, 1), (.FAB_REPLAY_TIMEOUT, 1)]
def dramCtrs : List (Ctr × Nat) :=
  [(.DRAM_REQ, 8), (.DRAM_PROMOTE, 8), (.DRAM_CRC_RETRY, 2), (.DRAM_CRC_FAIL, 2), (.DRAM_SECDED_CORR, 2)]

/-- Block b's share of some counters is cleared. -/
def State.wipeCtrs (s : State) (l : List (Ctr × Nat)) (b : Nat) : State :=
  { s with ctrs := s.ctrs.filter fun e => !l.any fun c => c.1.code == e.1 / 4294967296 && e.1 % 4294967296 / c.2 == b }

/-- A pipeline's share. -/
def State.wipePl (s : State) (pl : Nat) : State :=
  let s := s.wipeCtrs plCtrs pl
  { s with ctrs := s.ctrs.filter fun e =>
      !(plPortCtrs.any (fun c => c.code == e.1 / 4294967296) && e.1 % 4294967296 < 40 && portPl (e.1 % 4294967296) == pl) }

/-- Block reset of a line's block (Table 18-1, R768): its state is wiped and it proofs again. None: the line has no block. -/
def State.blockReset (s : State) (line : Nat) : Option State :=
  if line < 12 then
    let pl := line % 4
    let s := ((s.wipePl pl).endParse pl).setReady (4 + pl) false
    some (State.bypSettle { s with
      tcam := s.tcam.map fun e => (e.1, if e.1 / 8192 == pl then { e.2 with shBad := false, key := e.2.shKey, mask := e.2.shMask, prio := e.2.shPrio } else e.2)
      tcamWin := sdel s.tcamWin pl })
  else if line < 16 then some { s with exm := keepHost s.exm (line - 12) }
  else if 20 ≤ line && line < 28 then some ((s.nibenDown (line - 20) 0).wipeCtrs fabCtrs (line - 20))
  else if 28 ≤ line && line < 32 then
    let k := line - 28
    let s := (s.streams.filter fun e => e.1 / 1024 == k).foldl (fun (s : State) e => s.setStream e.1 0) s
    some (State.wipeCtrs { s with streams := s.streams.filter fun e => e.1 / 1024 != k } phxCtrs k)
  else if line = 32 then
    let s := (s.setReady 2 false).setReady 11 false
    let s := (s.setReg .DRAM_STAT 0 0 0).setReg .DRAM_STAT 1 0 0
    some (State.wipeCtrs { s with dramCh := [] } dramCtrs 0)
  else none

/-- The unit a line fences: its kind by the line's range (Table 18-1). -/
def fenceUnit (line : Nat) : Bool := line < 16 || (20 ≤ line && line < 32)

/-- The effects of a fence (Table 18-3). -/
def State.fence (s : State) (line : Nat) : State :=
  let s := { s with flt := { s.flt with fenced := ins s.flt.fenced (unitOf line) } }
  if line < 12 then
    let pl := line % 4
    let s := (s.endParse pl).setReady (4 + pl) false
    let s := (List.range 40).foldl (fun s p => if portPl p = pl then s.stomp p none else s) s
    s.bypSettle
  else if 20 ≤ line && line < 28 then s.nibenDown (line - 20) 6
  else if 28 ≤ line && line < 32 then
    State.phxInvalid ((s.streams.filter fun e => e.1 / 1024 == line - 28).foldl (fun (s : State) e => s.setStream e.1 3) s)
      fun i => i / 1024 == line - 28
  else s

/-- Whether a unit's fence may act (R765): the member is in a batch with another member reachable, or the unit is a pipeline all
of whose enabled front-panel ports belong to pairs. -/
def State.fenceOk (s : State) (line : Nat) : Bool :=
  fenceUnit line &&
  ((s.fld F.FAB_STATE.STATE 0 == 2 && (s.written .FAB_ROUTE).any fun e => e.1 != s.member && bit (s.reg .FAB_ROUTE e.1 0) 12) ||
   (line < 12 && ((List.range 40).filter fun p => portPl p == line % 4 && s.flag F.PORT_CFG.ENABLE p).all fun p =>
      (List.range 16).any fun k => (s.fld F.PRED_PAIR.ROLE k == 1 || s.fld F.PRED_PAIR.ROLE k == 2) &&
        (s.fld F.PRED_PAIR.PORT_A k == p || s.fld F.PRED_PAIR.PORT_B k == p)))

end Sys2Proof.Machine
end

