-- ==== Sys2Proof/Machine/Measures.lean ====
section
/-! DEFINITION. The measures that the latency budgets allow: the budget and the condition of each, and since when both hold (R730,
Table 17-3). -/
namespace Sys2Proof.Machine

/-- The budget of function f has been n µs or more for 1 ms (R730). -/
def State.budgetHeld (s : State) (f n : Nat) : Bool :=
  decide (s.fld F.PWR_BUDGET.BUDGET_US f ≥ n) && decide (s.now ≥ sget s.pwr.budgetAt 0 (f + 4 * n) + 1000000)

/-- Every port of a pipeline is off, disabled or down, and no injection names it: no frame of it is in the module and no P40 ring holds
one back for it. -/
def State.plQuiet (s : State) (pl : Nat) : Bool :=
  !((List.range 40).any fun p => portPl p == pl && s.linkUp p) && !(s.frames.any fun (e : Nat × Frame) => e.2.pl == pl) &&
  !(s.rings.any fun (e : Nat × Ring) => (e.2.held.map fun t => (t.pipeline.getD (s.fld F.HDMA_TX.PIPELINE e.1)) % 4) == some pl)

/-- A phasor bank has no enabled stream (R492). -/
def State.bankIdle (s : State) (b : Nat) : Bool :=
  !(((s.written .PHX_STREAM).map (·.1)).any fun i => i / 1024 == b && s.flag F.PHX_STREAM.EN i)

/-- An enabled ring that lies in DRAM stack 1 (Table 17-3). -/
def State.ringUpper (s : State) (r : Reg) (i : Nat) : Bool := bit (s.reg r i 2) 0 && stackOf (64 * bits (s.reg r i 0) 0 29) == 1

/-- No recorder group, capture or telemetry ring lies in stack 1. -/
def State.stackFree (s : State) : Bool :=
  [Reg.CAP_RING, .QTEL_RING, .PERF_RING, .PHX_REC].all fun r => ((s.written r).map (·.1)).all fun i => !s.ringUpper r i

/-- The code of a measure in `Pwr.okAt`. -/
def Measure.code : Measure → Nat
  | .gatePipeline pl => pl
  | .quiesce => 4
  | .bankOff b => 8 + b
  | .dramRefresh => 12

/-- Budget and condition of a measure hold now (Table 17-3). -/
def State.measureHolds (s : State) (m : Measure) : Bool :=
  let budget (f n : Nat) : Bool := decide (s.fld F.PWR_BUDGET.BUDGET_US f ≥ n)
  match m with
  | .gatePipeline pl => budget 0 2000 && s.plQuiet pl
  | .quiesce => budget 0 20000 && (List.range 4).all fun pl => s.pwr.gated.contains pl
  | .bankOff b => budget 1 20000 && s.bankIdle b
  | .dramRefresh => budget 2 5000 && s.stackFree

/-- Every measure of Table 17-3 but transmit low-power idle. -/
def measures : List Measure := [.gatePipeline 0, .gatePipeline 1, .gatePipeline 2, .gatePipeline 3, .quiesce, .bankOff 0, .bankOff 1,
  .bankOff 2, .bankOff 3, .dramRefresh]

/-- Since when each measure's budget and condition hold (R730). With no budget granted none holds. -/
def State.holdsSince (s : State) : Sparse Nat :=
  if s.pwr.okAt.isEmpty && (List.range 3).all (fun f => s.fld F.PWR_BUDGET.BUDGET_US f == 0) then [] else
  measures.foldl (fun l m =>
    if !s.measureHolds m then sdel l m.code else if (sfind l m.code).isSome then l else sset l m.code s.now) s.pwr.okAt

/-- A step notes since when each measure may be applied. -/
def State.measureSettle (s : State) : State := { s with pwr := { s.pwr with okAt := s.holdsSince } }

/-- A measure's budget and condition have held for 1 ms (R730). -/
def State.measureHeld (s : State) (m : Measure) : Bool :=
  s.measureHolds m && (match sfind s.pwr.okAt m.code with | some t => decide (t + 1000000 ≤ s.now) | none => false)

end Sys2Proof.Machine
end

