-- ==== Sys2Proof/Machine/Faults.lean ====
section
/-! DEFINITION. The fault collector's shared operations (chapter 18): latching a line with its reaction, the safe state, the
journal, and the end of every step. -/
namespace Sys2Proof.Machine

/-! ## Journal (R776 to R779) -/

/-- The first slot of an entry, 64 bytes (Table 18-7); a SIGNED entry carries its data in the slots that follow (R779). -/
def jBytes (e : JEntry) : Bytes :=
  wordsBytes [w32 (e.typ + 256 * (if e.typ = 16 then 3 else 0) + 65536 * e.code), w32 e.seq, w32 (e.seq / 4294967296),
    w32 e.frc, w32 (e.frc / 4294967296), w32 (ptpNs e.ptp), w32 (ptpSec e.ptp),
    w32 (ptpSec e.ptp / 4294967296 % 65536 + 65536 * b2n e.unt)] ++
  fit 32 (if e.typ = 16 then Config.journalData e.typ e.code e.seq else e.data)

/-- Every slot of an entry. -/
def jSlots (e : JEntry) : Bytes := jBytes e ++ (if e.typ = 16 then e.data else [])

/-- Entries the ring retains (R776). -/
def jRing : Nat := 258048

/-- The newest entries that n slots hold. -/
def keepSlots : Nat → List JEntry → List JEntry
  | _, [] => []
  | n, e :: t => let k := if e.typ = 16 then 4 else 1; if n < k then [] else e :: keepSlots (n - k) t

/-- Write an entry: chained and given the next SEQ; the oldest is overwritten when the ring is full (R776, R778). SEQ
rises by one for each entry, a SIGNED one (type 0x10) too. -/
def State.jWrite (s : State) (typ code frc ptp : Nat) : State :=
  let j := s.journal
  let h : JEntry := { typ := typ, code := code, seq := j.seq, frc := frc, ptp := ptp, unt := !s.ready 3, data := [] }
  let data := if typ = 16 then j.chain ++ Config.signDik (jBytes h ++ j.chain) ++ List.replicate 14 0
    else Config.journalData typ code j.seq
  let e : JEntry := { h with data := data }
  { s with journal := { j with
      seq := j.seq + 1
      chain := Config.shake256 (j.chain ++ jBytes e)
      newest := keepSlots jRing (e :: j.newest)
      fresh := typ != 16
      signAt := if typ = 16 then s.now else j.signAt } }

/-- Write a SIGNED entry now (R779). -/
def State.jSign (s : State) : State := s.jWrite 16 0 s.frc s.ptp

/-- Write the oldest queued entry; a DROPPED entry follows when the queue has drained below 2,048 (R780). -/
def State.jDrain (s : State) : State :=
  match s.journal.queue with
  | [] => s
  | (t, c, f, p) :: q =>
    let s := { s with journal := { s.journal with queue := q } }
    let s := s.jWrite t c f p
    if s.journal.dropped > 0 && q.length < 2048 then
      let n := s.journal.dropped
      let s := { s with journal := { s.journal with dropped := 0 } }
      s.jWrite 9 (n % 65536) s.frc s.ptp
    else s

/-- Write every queued entry. -/
def State.jFlush : Nat → State → State
  | 0, s => s
  | n + 1, s => if s.journal.queue.isEmpty then s else State.jFlush n s.jDrain

/-! ## The safe state (R772 to R775) -/

/-- Cause codes (Table 18-5) and HOST_READY.FAIL. -/
def safeCode : SafeCause → Nat
  | .escalation => 1 | .thermal => 2 | .collector => 3 | .watchdog => 4 | .bootFail => 5 | .extest => 6 | .force => 7
def safeFail : SafeCause → Nat
  | .thermal => 3 | .bootFail => 1 | .extest => 4 | _ => 2

/-- A GPIO output takes its SAFE level (Table 18-6). -/
def safePin (s : State) (e : Nat × Gpio) : Nat × Gpio :=
  (e.1, { e.2 with out := if e.2.drive then s.flag F.GPIO_OUT_CFG.SAFE e.1 else e.2.out, pulse := none })

/-- Enter the safe state (Table 18-6); a further cause only writes a journal entry (R775). -/
def State.safeEnter (s : State) (c : SafeCause) (line : Nat) : State :=
  if s.flt.safe then
    let s := s.journal1 3 (safeCode c)
    if c = .extest then { s with flt := { s.flt with cold := true } } else s
  else
  let s := (List.range 4).foldl (fun s pl => s.endParse pl) s
  let s := s.tx.foldl (fun s e => s.stomp e.1 none) s
  let s := { s with
    flt := { s.flt with safe := true, cold := decide (c = SafeCause.extest) }
    gpio := s.gpio.map (safePin s)
    pins := Pins.mk false (s.flag F.PWR_STAT.STORE_FAULT 0 || s.flag F.PWR_STAT.VIN_LOW 0) true [] }
  let s := s.bypSettle
  let s := [4, 5, 6, 7, 8, 9, 10, 12].foldl (fun s b => s.setReady b false) s
  let s := s.setReg .FLT_SAFE_CAUSE 0 0 (safeCode c + 256 * line)
  let s := s.setReg .HOST_READY 0 0 (putBits (s.reg .HOST_READY 0 0) 24 8 (safeFail c))
  let s := (s.setStage 3).pulse 10
  let s := s.setPower 4
  let s := s.linksSettle
  let s := State.jFlush 4096 (s.journal1 3 (safeCode c))
  s.jSign

/-! ## Latching a line (R761, R765, R768, R769) -/

/-- FAULT_WORD as a 64-bit number. -/
def State.faultWord (s : State) : Nat := s.reg .FAULT_WORD 0 0 + 4294967296 * s.reg .FAULT_WORD 0 1

/-- WATCH_MS of a line in ns (Table 18-2). -/
def State.watchNs (s : State) (i : Nat) : Nat :=
  let v := s.fld F.FLT_LINE_CFG.WATCH_MS i
  1000000 * (if v = 0 || v > 10000 then 1000 else v)

/-- The recorded line and stage of the escalation. -/
def State.escLine (s : State) : Nat := s.fld F.FLT_ESC.LINE 0
def State.escStage (s : State) : Nat := s.fld F.FLT_ESC.STAGE 0

/-- A line latches: it sets its bit, is recorded and reported, and its reaction starts (R761). A line already latched sets
nothing; a timer that runs goes on (R763), and a proof under UNFENCE in which the line latches has failed (R767). An escalation whose line has
not latched for 60 s is over (R769). -/
def State.latch (s : State) (i : Nat) : State :=
  let fw := s.faultWord
  if bit fw i || !s.pwr.on then s else
  let before := decide (sget s.flt.lastAt 0 s.escLine + 60000000000 ≤ s.now)
  let s := s.setReg .FAULT_WORD 0 (i / 32) (s.reg .FAULT_WORD 0 (i / 32) ||| 2 ^ (i % 32))
  let s := (s.journal1 1 i).evtLine (32 + i) true
  let s :=
    if s.fld F.FLT_CTL.MODE 0 = 1 then
      let s := if fw = 0 && !s.flag F.FLT_FIRST.VALID 0 then
          ((s.setReg .FLT_FIRST 0 0 (i + 64)).setReg .FLT_FIRST 0 1 s.frc).setReg .FLT_FIRST 0 2 (s.frc / 4294967296)
        else s
      s.pulse 4
    else s.irqSignal (64 + i) true
  let s := { s with flt := { s.flt with
      lastAt := sset s.flt.lastAt i s.now
      proof := if (sfind s.flt.proof (unitOf i)).isSome then sset s.flt.proof (unitOf i) 0 else s.flt.proof } }
  if i = 39 then s.safeEnter .thermal 39
  else if i = 40 then s
  else if s.flt.safe || !s.flt.copyOk then s
  else
    let s := if s.escStage > 0 && before then s.setFld F.FLT_ESC.STAGE 0 0 else s
    let s := if s.escStage > 0 && s.escLine ≠ i then (s.setFld F.FLT_ESC.STAGE 0 0).setFld F.FLT_ESC.LINE 0 i else s
    if s.escStage = 2 && s.escLine = i && s.now < s.flt.escAt + 60000000000 then s.safeEnter .escalation i
    else
      let fence := s.fld F.FLT_LINE_CFG.REACTION i = 1
      if fence && s.fenceOk i then ((s.fence i).journal1 2 i).pulse 5
      else
        let s := if fence then s.bump .FLT_FENCE_DENIED i else s
        { s with flt := { s.flt with
            watch := if (sfind s.flt.watch i).isSome then s.flt.watch else sset s.flt.watch i (s.now + s.watchNs i) } }

/-- Latch every line raised so far. -/
def State.latchPass (s : State) : State :=
  s.flt.raised.foldl State.latch { s with flt := { s.flt with raised := [] } }

/-- Latch every raised line. A latch can itself fill the event engine's queue and raise line 18 (R545): a second pass latches it, and
what is raised after that is latched already. -/
def State.latchAll (s : State) : State :=
  let t := s.latchPass.latchPass
  { t with flt := { t.flt with raised := [] } }

/-! ## The end of a step -/

/-- What ends every step: a batch configuration that waited for a transaction is staged, the error lines raised are latched, and the measures
whose budget and condition hold are noted (R730). -/
def State.settle (s : State) : State := s.batchTry.latchAll.measureSettle

/-- A step's answer. -/
def finish (s : State) : Out := .next s.settle

end Sys2Proof.Machine
end

