-- ==== Sys2Proof/Machine/Advance.lean ====
section
/-! DEFINITION. The passing of time before a command: the clocks and what counts with them (R107, R239, R440, R449, R469, R819). -/
namespace Sys2Proof.Machine

/-- A free engine exists in a pipeline (Table 3-3: eight engines). -/
def State.freeEngine (s : State) (pl : Nat) : Option Nat :=
  (List.range 8).find? fun e => (sfind s.engines (pl * 8 + e)).isNone

/-- Lane-port frames of a pipeline wait for an engine and none is free (R107). -/
def State.stalled (s : State) (pl : Nat) : Bool :=
  (s.freeEngine pl).isNone && s.frames.any fun e => e.2.pl == pl && decide (e.2.port < 32) && decide (e.2.phase = .pending)

/-- Engines of a pipeline that ended and are kept for want of lookup space (R239). -/
def State.heldEngines (s : State) (pl : Nat) : Nat := (s.engines.filter fun e => e.1 / 8 == pl && e.2.done).length

/-- The CORE clock of a pipeline runs (Table 19-1). -/
def State.coreRuns (s : State) (pl : Nat) : Bool := s.pwr.on && !s.pwr.quiesce && !s.flt.safe && !s.pwr.gated.contains pl

/-- dt nanoseconds pass for the clocks and for what counts with them. -/
def State.elapse (s : State) (dt : Nat) : State :=
  let n := coreCycles (s.now + dt) - coreCycles s.now
  let s1 := State.perfLate { s with now := s.now + dt, clock := clockAfter s dt }
  if n = 0 then s1 else
  (List.range 4).foldl (fun (t : State) pl =>
    let t := if s.coreRuns pl then t.perfEv 1 n pl 0 0 0 0 else t
    let t := if s.stalled pl then (t.add .PARSE_STALL_CYCLES pl n).perfEv 4 n pl 0 0 0 0 else t
    let k := s.heldEngines pl
    if k = 0 then t else t.add .TCAM_THROTTLE_WAIT pl (k * n)) s1

/-- Beyond its bound, measurement gives an undefined angle to a timebase that tracks a stream, and so to every gate and time point on it (R487,
R528). -/
def State.wildGrid (s : State) : State :=
  if !s.phxWild || !s.flag F.TIME_GRID_CFG.EN 0 then s else
  let (v, s) := s.fresh
  { s with clock := { s.clock with grid := v % 79228162514264337593543950336 } }

/-- dt nanoseconds pass; what undefined behaviour may corrupt is free while it lasts (R12). -/
def State.advance (s : State) (dt : Nat) : State := s.corrupt.wildGrid.elapse dt

end Sys2Proof.Machine
end

