-- ==== Sys2Proof/Machine/Operands.lean ====
section
/-! DEFINITION. The recipe word, its operand forms and the window (R78 to R82, R85, R86, R89, R139). -/
namespace Sys2Proof.Machine

/-- A 64-bit register's values. -/
def w64 (v : Nat) : Nat := v % 18446744073709551616

/-- The fields of a recipe word (Table 3-1). -/
structure RWord where
  opc  : Nat
  cond : Nat
  dst  : Nat
  sa   : Nat
  sb   : Nat
  wid  : Nat
  off  : Nat
  tgt  : Nat
  imm  : Nat
  deriving DecidableEq, Repr

/-- A recipe word of 128 bits. -/
def rword (v : Nat) : RWord :=
  { opc := bits v 120 8
    cond := bits v 116 4
    dst := bits v 112 4
    sa := bits v 108 4
    sb := bits v 104 4
    wid := bits v 98 6
    off := bits v 80 16
    tgt := bits v 64 16
    imm := bits v 0 64 }

/-- The bank number pl × 2 + b. -/
def bankNo (pl b : Nat) : Nat := pl * 2 + b

/-- Word w of a bank (R112). -/
def State.codeWord (s : State) (bank w : Nat) : Nat :=
  let i := bank * 8192 + w
  s.reg .PARSE_WCS i 0 + 4294967296 * (s.reg .PARSE_WCS i 1 + 4294967296 * (s.reg .PARSE_WCS i 2 + 4294967296 * s.reg .PARSE_WCS i 3))

/-- Dispatch entry of an opcode (Table 3-2). -/
structure Disp where
  oper  : Nat
  valid : Bool
  sf    : Bool
  sx    : Bool
  le    : Bool
  na    : Bool
  abs   : Bool
  deriving DecidableEq, Repr

def State.dispatchOf (s : State) (bank opc : Nat) : Disp :=
  let v := s.reg .PARSE_DISPATCH (bank * 256 + opc) 0
  { oper := bits v 0 6, valid := bit v 7, sf := bit v 8, sx := bit v 9, le := bit v 10, na := bit v 11, abs := bit v 12 }

/-- Defined operation numbers (Table 3-6). -/
def operDefined (o : Nat) : Bool := decide (o ≤ 29) && o != 2

/-- Work register n: W0 reads as zero. -/
def Engine.reg (e : Engine) (n : Nat) : Nat := if n = 0 then 0 else e.w.getD n 0

/-- Write work register n: W0 discards writes. -/
def Engine.setReg (e : Engine) (n v : Nat) : Engine := if n = 0 then e else { e with w := e.w.set n (w64 v) }

/-- Operand B (R78). -/
def Engine.opB (e : Engine) (w : RWord) : Nat := if w.sb = 0 then w.imm else e.reg w.sb

/-- Field width in bits: 0 means 64. -/
def RWord.width (w : RWord) : Nat := if w.wid = 0 then 64 else w.wid

/-- OFF as a signed number. -/
def RWord.soff (w : RWord) : Int := sgn w.off 16

/-- FLEN as a recipe sees it: the frame's own once the tail has arrived, MAX_FRAME − 4 before (R139). -/
def Frame.flen (f : Frame) : Nat := if f.tail then f.bytes.length else f.maxFrame - 4

/-- Window byte i: zero at and beyond FLEN (R85). -/
def Frame.winByte (f : Frame) (i : Nat) : Nat := if i < 512 && i < f.flen then byteAt f.bytes i else 0

/-- Window byte i is not known yet: 509 to 511 before 516 bytes or the tail (R139). -/
def Frame.unknown (f : Frame) (i : Nat) : Bool := decide (509 ≤ i) && decide (i ≤ 511) && !f.tail && decide (f.bytes.length < 516)

/-- Some byte of lo to hi is not known yet. -/
def Frame.waits (f : Frame) (lo hi : Nat) : Bool :=
  (f.unknown 509 && decide (lo ≤ 509) && decide (509 ≤ hi)) || (f.unknown 510 && decide (lo ≤ 510) && decide (510 ≤ hi)) ||
  (f.unknown 511 && decide (lo ≤ 511) && decide (511 ≤ hi))

/-- Window bytes from i, n of them, as a number in network order. -/
def Frame.winBE (f : Frame) (i : Nat) : Nat → Nat
  | 0 => 0
  | n + 1 => f.winByte i * 256 ^ n + f.winBE (i + 1) n

/-- field(b, n) of Table 3-6: n bits from bit b of the window. -/
def Frame.field (f : Frame) (b n : Nat) : Nat :=
  let lo := b / 8
  let hi := (b + n - 1) / 8
  (f.winBE lo (hi + 1 - lo) >>> (8 * (hi + 1) - (b + n))) % 2 ^ n

/-- Reverse the byte order of a field of n bits (LE); unchanged when n is not a multiple of 8. -/
def revBytes (v n : Nat) : Nat := if n % 8 = 0 then ofLE (toBE v (n / 8)) else v

/-- Sign-extend a field of n bits to 64 (SX). -/
def sext64 (v n : Nat) : Nat := if v.testBit (n - 1) then w64 (v + (18446744073709551616 - 2 ^ n)) else v

/-- What a load answers: the value with flag O, WINDOW, or a wait for bytes. -/
inductive Load64 where
  | value (v : Nat) (o : Bool)
  | window
  | wait
  deriving DecidableEq, Repr

/-- Load n bits (n above 0) that start at bit b of the window (R84 to R86, R139). -/
def Frame.load (f : Frame) (d : Disp) (b : Int) (n : Nat) : Load64 :=
  if b < 0 || b + n > 4096 then .window else
  let b := b.toNat
  if f.waits (b / 8) ((b + n - 1) / 8) then .wait else
  let v := f.field b n
  let v := if d.le then revBytes v n else v
  let v := if d.sx then sext64 v n else v
  .value v (decide ((b + n - 1) / 8 ≥ f.flen))

/-- budget(L) of R27. -/
def budget (l : Nat) : Nat := 352 * (l + 20) / 1000

/-- Special values of LDS (Table 3-5). -/
def specialValue (s : State) (f : Frame) (e : Engine) (i : Nat) : Nat :=
  match i with
  | 0 => f.flen
  | 1 => e.cur
  | 2 => f.hdrs.length
  | 3 => f.port
  | 4 => f.gen
  | 5 => ptpNs f.tsPtp
  | 6 => min 65535 (e.icnt + 1)
  | 7 => budget (f.flen + 4)
  | 8 => f.bank
  | 9 => s.fld F.PORT_VLAN.PVID f.port
  | _ => 0

/-! ## What a frame's bytes say -/

/-- The type field of a VLAN tag. -/
def isVlan (t : Nat) : Bool := t == 0x8100 || t == 0x88A8

/-- Bytes of the addresses and of up to two VLAN tags. -/
def tagEnd (b : Bytes) : Nat :=
  if !isVlan (beNat b 12 2) then 12 else if isVlan (beNat b 16 2) then 20 else 16

/-- Where the type field stands behind VLAN tags and an HSR tag or R-tag. -/
def typeAt (b : Bytes) : Nat :=
  let i := tagEnd b
  if beNat b i 2 == 0x892F || beNat b i 2 == 0xF1C1 then i + 6 else i

/-- A PTP frame (Table 11-3): type 0x88F7, or UDP over IPv4 or IPv6 to port 319 or 320. -/
def isPtp (b : Bytes) : Bool :=
  let i := typeAt b
  let t := beNat b i 2
  let udp (o : Nat) : Bool := beNat b (o + 2) 2 == 319 || beNat b (o + 2) 2 == 320
  t == 0x88F7 ||
  (t == 0x0800 && byteAt b (i + 11) == 17 && beNat b (i + 8) 2 % 16384 == 0 && udp (i + 2 + 4 * (byteAt b (i + 2) % 16))) ||
  (t == 0x86DD && byteAt b (i + 8) == 17 && udp (i + 42))

/-- A header of the stack describes the bytes at its OFFSET and LENGTH (R91, R154); an HSR tag or R-tag may be pushed with its type field or
from behind it (DESIGN CHOICE, log 28). -/
def hdrFits (b : Bytes) (h : Nat) : Bool :=
  let t := h % 256
  let o := bits h 8 10
  let n := bits h 18 10
  let before (y : Nat) : Bool := decide (o ≥ 14) && beNat b (o - 2) 2 == y
  decide (o + n ≤ b.length) &&
  (if t = 1 then o == 0 && n == 14
   else if t = 2 then decide (o ≥ 14) && isVlan (beNat b (o - 2) 2) && n == 4
   else if t = 3 then beNat b o 2 == 0x892F || before 0x892F
   else if t = 4 then beNat b o 2 == 0xF1C1 || before 0xF1C1
   else if t = 5 then beNat b o 2 == 0x88E5 || before 0x88E5
   else if t = 6 then byteAt b o / 16 == 4 && decide (byteAt b o % 16 ≥ 5) && n == 4 * (byteAt b o % 16)
   else if t = 7 then byteAt b o / 16 == 6 && n == 40
   else if t = 9 then n == 8
   else if t = 10 then n == 4 * (byteAt b (o + 12) / 16)
   else if t = 13 || t = 14 then n == 8
   else t != 0)

/-- Every header of a frame's stack describes its bytes (R154). -/
def Frame.hdrsFit (f : Frame) : Bool := f.hdrs.all (hdrFits f.bytes)

end Sys2Proof.Machine
end

