-- ==== Sys2Proof/Machine/Flags.lean ====
section
/-! DEFINITION. Flags and conditions of the recipe engines (R82 to R84). -/
namespace Sys2Proof.Machine

/-- The condition field (Table 3-5): none where it is reserved. -/
def Engine.cond (e : Engine) (c : Nat) : Option Bool :=
  match c with
  | 0 => some true
  | 1 => some e.z
  | 2 => some (!e.z)
  | 3 => some e.c
  | 4 => some (!e.c)
  | 5 => some e.n
  | 6 => some (!e.n)
  | 7 => some e.o
  | 8 => some (!e.o)
  | 9 => some (!e.c && !e.z)
  | 10 => some (e.c || e.z)
  | 15 => some false
  | _ => none

/-- Z and N of a 64-bit result. -/
def flagZ (v : Nat) : Bool := w64 v == 0
def flagN (v : Nat) : Bool := v.testBit 63

/-- Carry out of an addition, and borrow of a subtraction. -/
def carryAdd (a b : Nat) : Bool := decide (a + b ≥ 18446744073709551616)
def borrowSub (a b : Nat) : Bool := decide (a < b)

/-- The difference modulo 2^64. -/
def sub64 (a b : Nat) : Nat := w64 (a + 18446744073709551616 - b)

/-- Z and N of a logic result, when SF is set. -/
def Engine.logicFlags (e : Engine) (sf : Bool) (v : Nat) : Engine := if sf then { e with z := flagZ v, n := flagN v } else e

/-- Z, C and N of an arithmetic result, when SF is set. -/
def Engine.arithFlags (e : Engine) (sf : Bool) (v : Nat) (c : Bool) : Engine :=
  if sf then { e with z := flagZ v, n := flagN v, c := c } else e

end Sys2Proof.Machine
end

