-- ==== Sys2Proof/Machine/Package.lean ====
section
/-! DEFINITION. What binds a parse by the standard recipe package (R132 to R138, R148): its length checks, the records it emits, its
MALFORMED and SLOWPATH reasons. The package itself, with the keys, metadata and header stack it writes, is `Config.standardPackage`. The
layouts the rules take from IEC 61850-8-1, IEC 61850-9-2, IEC 61850-90-5 and IEC 62351-6 are those standards' (PRESUMED, log 225). -/
namespace Sys2Proof.Machine

/-- An object as a bank keeps it (R117, R118). -/
def objOf (l : List Word) : BankObj :=
  { version := wAt l 2, compat := wAt l 3, digest := wordsBytes ((l.drop 8).take 16) }

/-- A bank holds the standard package (R132). -/
def State.standard (s : State) (bank : Nat) : Bool := sfind s.bankObj bank == some (objOf Config.standardPackage)

/-! ## Length checks (R94, R95, R139, R140) -/

/-- A check of a claimed end E with its mode and reason: the frame after it, or none where it ends the parse with MALFORMED. Before the
tail it is deferred. -/
def Frame.chkLen (f : Frame) (en : Int) (exact pad : Bool) (rs : Nat) : Option Frame :=
  if f.tail then
    let fl : Int := (f.flen : Nat)
    if en > fl || (exact && en < fl && !(pad && en < 64 && fl ≤ 64)) then none else some f
  else if en > ((f.maxFrame - 4 : Nat) : Int) || (exact && en < 509) ||
      (exact && (match f.exactE with | some x => decide (x.1 ≠ en.toNat) | none => false)) then none
  else
    let m := en.toNat
    some { f with
      maxE := (match f.maxE with | some x => if m > x.1 then some (m, rs) else some x | none => some (m, rs))
      exactE := (match f.exactE with | some x => some x | none => if exact then some (m, rs) else none) }

/-- A BER tag and length at a byte of the window (R93): tag, tag bytes, header bytes, length, and whether the form is indefinite
or longer than three bytes. -/
def berHead (f : Frame) (i : Nat) : Nat × Nat × Nat × Nat × Bool :=
  let t0 := f.winByte i
  let tb := if t0 % 32 = 31 then 2 else 1
  let tag := if tb = 2 then t0 * 256 + f.winByte (i + 1) else t0
  let l0 := f.winByte (i + tb)
  if l0 < 128 then (tag, tb, tb + 1, l0, false)
  else if l0 = 128 || l0 > 131 then (tag, tb, tb + 1, 0, true)
  else (tag, tb, tb + 1 + (l0 - 128), f.winBE (i + tb + 1) (l0 - 128), false)

/-! ## The package's parse -/

/-- How a rule of the package ends a parse: outcome, reason and exception code. -/
structure PkgStop where
  o   : Nat
  r   : Nat
  exc : Nat := 0
  deriving DecidableEq, Repr

/-- What the rules require of a parse so far: the frame with its checks and its records, the ASDUs past the eighth, and whether the frame
is Sampled Values or GOOSE, which is forwarded. -/
structure Pkg where
  f      : Frame
  sides  : List Side := []
  excess : Nat := 0
  subst  : Bool := false
  deriving DecidableEq, Repr

abbrev PkgR (α : Type) := Except PkgStop α

def pkgBad (r : Nat) : PkgStop := { o := 3, r := r }
def pkgSlow (r : Nat) : PkgStop := { o := 2, r := r }
def pkgWindow : PkgStop := { o := 4, r := 0, exc := 4 }

/-- Read n bytes from byte i of the window. -/
def Pkg.rd (p : Pkg) (i n : Nat) : PkgR Nat := if i + n > 512 then .error pkgWindow else .ok (p.f.winBE i n)

/-- A length check of Table 4-4. -/
def Pkg.chk (p : Pkg) (en : Nat) (exact pad : Bool) (r : Nat) : PkgR Pkg :=
  match p.f.chkLen (en : Nat) exact pad r with
  | some f => .ok { p with f := f }
  | none => .error (pkgBad r)

/-- A BER element: its tag, the first byte and the length of its content. -/
structure Elem where
  tag : Nat
  at_ : Nat
  len : Nat
  deriving DecidableEq, Repr

/-- The element at byte i of a container that ends at lim (R134): one that reaches past it ends the parse with reason r. -/
def Pkg.elem (p : Pkg) (i lim r : Nat) : PkgR Elem :=
  if i ≥ 511 then .error pkgWindow else
  let (tag, _, hb, len, bad) := berHead p.f i
  if i + hb > 512 then .error pkgWindow
  else if bad || i + hb + len > lim then .error (pkgBad r)
  else .ok { tag := tag, at_ := i + hb, len := len }

/-- At most n elements from byte i to the end of their container. -/
def Pkg.elems (p : Pkg) (lim r : Nat) : Nat → Nat → PkgR (List Elem)
  | 0, _ => .ok []
  | n + 1, i =>
    if i ≥ lim then .ok [] else
    match p.elem i lim r with
    | .error e => .error e
    | .ok x => match Pkg.elems p lim r n (x.at_ + x.len) with
      | .error e => .error e
      | .ok l => .ok (x :: l)

/-- The element with a tag. -/
def elemOf (l : List Elem) (tag : Nat) : Option Elem := l.find? fun x => x.tag == tag

/-- The content of an element as a number, of its last eight bytes at most; 0 where it is absent. -/
def Pkg.num (p : Pkg) (x : Option Elem) : PkgR Nat :=
  match x with
  | none => .ok 0
  | some x => let n := min x.len 8; p.rd (x.at_ + x.len - n) n

/-- One ASDU of a Sampled Values APDU (R133, R134): its record, which only the first eight have. -/
def Pkg.asdu (p : Pkg) (key k : Nat) (x : Elem) : PkgR Pkg := do
  let l ← p.elems (x.at_ + x.len) 8 64 x.at_
  match elemOf l 0x87 with
  | none => .error (pkgBad 8)
  | some d =>
    if d.len = 0 || d.len % 8 ≠ 0 then .error (pkgBad 8) else
    if k ≥ 8 then .ok { p with excess := p.excess + 1 } else
    let n := min 8 (d.len / 8)
    let cnt ← p.num (elemOf l 0x82)
    let syn ← p.num (elemOf l 0x85)
    if d.at_ + 8 * n > 512 then .error pkgWindow else
    .ok { p with sides := p.sides ++ [.sv key (cnt % 65536) (syn % 256) k ((List.range n).map fun j => p.f.winBE (d.at_ + 8 * j) 8)] }

/-- A Sampled Values APDU at byte i of a container that ends at lim (R133, R134): the byte after it. -/
def Pkg.sv (p : Pkg) (key i lim : Nat) : PkgR (Pkg × Nat) := do
  let u ← p.elem i lim 8
  let l ← p.elems (u.at_ + u.len) 8 64 u.at_
  let n ← p.num (elemOf l 0x80)
  match elemOf l 0xA2 with
  | none => .error (pkgBad 8)
  | some q =>
    let as ← p.elems (q.at_ + q.len) 8 512 q.at_
    if u.tag ≠ 0x60 || n ≠ as.length then .error (pkgBad 8) else
    let p ← (as.zip (List.range as.length)).foldlM (fun p x => p.asdu key x.2 x.1) { p with subst := true }
    .ok (p, u.at_ + u.len)

/-- A GOOSE APDU at byte i of a container that ends at lim (R135): the byte after it. -/
def Pkg.goose (p : Pkg) (key i lim : Nat) : PkgR (Pkg × Nat) := do
  let u ← p.elem i lim 10
  let l ← p.elems (u.at_ + u.len) 10 64 u.at_
  let st ← p.num (elemOf l 0x85)
  let sq ← p.num (elemOf l 0x86)
  let sim ← p.num (elemOf l 0x87)
  let nds ← p.num (elemOf l 0x89)
  let ms ← match elemOf l 0xAB with
    | none => .ok []
    | some d => p.elems (d.at_ + d.len) 10 7 d.at_
  let state : Side := .ev 1 (b2n (sim != 0) + 2 * b2n (nds != 0)) key (st % 4294967296 + 4294967296 * (sq % 4294967296))
  let p ← (ms.zip (List.range ms.length)).foldlM (fun (p : Pkg) (x : Elem × Nat) => do
    let v ← p.num (some x.1)
    .ok { p with sides := p.sides ++ [.ev 2 x.2 key (v % 72057594037927936 + 72057594037927936 * (x.1.tag % 256))] })
    { p with sides := p.sides ++ [state], subst := true }
  .ok (p, u.at_ + u.len)

/-- The IEC 62351-6 extension of n bytes between the end of the APDU and the end the header claims (R137): pushed with TYPE 0x10, and
named in AUTH with its algorithm code and key identifier. -/
def Pkg.ext (p : Pkg) (at_ n lim : Nat) : PkgR Pkg :=
  if n = 0 then .ok p
  else if at_ + n > lim then .error (pkgBad 13)
  else
    let h := 0x10 + 256 * at_ + 262144 * (n % 1024)
    let have_ := p.f.hdrs.contains h
    if at_ + n > 512 then .error pkgWindow
    else if !have_ && p.f.hdrs.length ≥ 16 then .error { o := 4, r := 0, exc := 5 } else
    let hs := if have_ then p.f.hdrs else p.f.hdrs ++ [h]
    let (alg, kid) := Config.authRead ((p.f.bytes.drop at_).take n)
    .ok { p with f := { p.f with hdrs := hs, fields := sput p.f.fields 0 8 (hs.idxOf h % 32 + 32 * (alg % 8) + 256 * (kid % 256)) } }

/-- Sampled Values or GOOSE from its APPID at byte o on (R133 to R137). -/
def Pkg.layer2 (p : Pkg) (goose : Bool) (o : Nat) : PkgR Pkg := do
  let appid ← p.rd o 2
  let len ← p.rd (o + 2) 2
  let p ← p.chk (o + len) true true (if goose then 9 else 7)
  let key := appid + 65536 * p.f.winBE 0 6
  let (p, e) ← if goose then p.goose key (o + 8) (o + len) else p.sv key (o + 8) (o + len)
  let x ← p.rd (o + 5) 1
  p.ext e x (o + len)

/-- IEC 61850-90-5 from its UDP payload at byte u to lim on (R136): the key holds the destination address and port. -/
def Pkg.session (p : Pkg) (dst u lim : Nat) : PkgR Pkg := do
  let si ← p.rd (u + 2) 1
  if si ≠ 0xA1 && si ≠ 0xA2 then .ok p else
  let n ← p.rd (u + 6) 4
  let e := u + 10 + n
  if e > lim then .error (pkgBad 14) else
  let p ← p.chk e true false 14
  let apdu ← p.rd (u + 36) 2
  let key := 102 + 65536 * (dst % 281474976710656)
  let lim := u + 38 + apdu
  if lim > e then .error (pkgBad (if si = 0xA1 then 10 else 8)) else
  let (p, _) ← if si = 0xA1 then p.goose key (u + 38) lim else p.sv key (u + 38) lim
  .ok p

/-- A PTP message at byte o of a container that ends at lim (Table 4-4, Table 4-8). -/
def Pkg.ptp (p : Pkg) (o : Nat) (lim : Option Nat) : PkgR Pkg := do
  let t ← p.rd o 1
  let n ← p.rd (o + 2) 2
  if (lim.map fun e => decide (o + n > e)).getD false then .error (pkgBad 12) else
  let p ← p.chk (o + n) false true 12
  if t % 16 = 12 || t % 16 = 13 then .error (pkgSlow 6) else .ok p

/-- The layer above IP at byte o; the packet ends at byte e (Table 4-4). -/
def Pkg.layer4 (p : Pkg) (proto dst o e : Nat) : PkgR Pkg := do
  if proto = 17 then
    let port ← p.rd (o + 2) 2
    let n ← p.rd (o + 4) 2
    if n < 8 || o + n ≠ e then .error (pkgBad 5) else
    let p ← p.chk (o + n) true true 5
    if port = 319 || port = 320 then p.ptp (o + 8) (some (o + n))
    else if port = 102 then p.session dst (o + 8) (o + n)
    else .ok p
  else if proto = 6 then
    let d ← p.rd (o + 12) 1
    if d / 16 < 5 || o + 4 * (d / 16) > e then .error (pkgBad 6) else .ok p
  else .ok p

/-- IPv4 at byte o (Table 4-4, Table 4-8). -/
def Pkg.ip4 (p : Pkg) (o : Nat) : PkgR Pkg := do
  let v ← p.rd o 20
  let b (i n : Nat) : Nat := v / 256 ^ (20 - i - n) % 256 ^ n
  let ihl := b 0 1 % 16
  if ihl < 5 || 4 * ihl > b 2 2 then .error (pkgBad 2) else
  let p ← p.chk (o + b 2 2) true true 3
  if ihl > 5 then .error (pkgSlow 2)
  else if b 6 2 % 16384 ≠ 0 then .error (pkgSlow 1)
  else p.layer4 (b 9 1) (b 16 4) (o + 20) (o + b 2 2)

/-- Options of a Hop-by-Hop header from byte i to e are only padding. -/
def Pkg.padding (p : Pkg) (e : Nat) : Nat → Nat → PkgR Bool
  | 0, _ => .ok false
  | n + 1, i =>
    if i ≥ e then .ok true else
    match p.rd i 1 with
    | .error x => .error x
    | .ok 0 => Pkg.padding p e n (i + 1)
    | .ok 1 => match p.rd (i + 1) 1 with
      | .error x => .error x
      | .ok k => Pkg.padding p e n (i + 2 + k)
    | .ok _ => .ok false

/-- IPv6 at byte o (Table 4-4, Table 4-8). -/
def Pkg.ip6 (p : Pkg) (o : Nat) : PkgR Pkg := do
  let n ← p.rd (o + 4) 2
  let nh ← p.rd (o + 6) 1
  let dst ← p.rd (o + 24) 16
  let e := o + 40 + n
  let p ← p.chk e true true 4
  let up (nh i : Nat) : PkgR Pkg :=
    if nh = 44 then .error (pkgSlow 1)
    else if [0, 43, 50, 51, 60, 135, 139, 140].contains nh then .error (pkgSlow 3)
    else p.layer4 nh dst i e
  if nh ≠ 0 then up nh (o + 40) else
  let next ← p.rd (o + 40) 1
  let k ← p.rd (o + 41) 1
  let h := o + 48 + 8 * k
  if h > e then .error (pkgBad 4) else
  let pad ← p.padding h 2048 (o + 42)
  if pad then up next h else .error (pkgSlow 3)

/-- The bytes of the type field behind up to two VLAN tags, an HSR tag with its length check, and an R-tag. -/
def Pkg.tags (p : Pkg) : PkgR (Pkg × Nat) :=
  let vlan (i : Nat) : Bool := p.f.winBE i 2 == 0x8100 || p.f.winBE i 2 == 0x88A8
  let i := if vlan 12 then 16 else 12
  let i := if i = 16 && vlan 16 then 20 else i
  if p.f.winBE i 2 = 0x892F then
    match p.chk (i + 2 + p.f.winBE (i + 2) 2 % 4096) true true 11 with
    | .error e => .error e
    | .ok p => .ok (p, i + 6)
  else .ok (p, if p.f.winBE i 2 = 0xF1C1 then i + 6 else i)

/-- What the rules require of the parse of a frame. -/
def pkgParse (own : Nat) (f : Frame) : PkgR Pkg := do
  let p : Pkg := { f := f }
  let dst := f.winBE 0 6
  let (p, i) ← p.tags
  let t := p.f.winBE i 2
  if dst / 16 = 0x0180C200000 && t ≠ 0x8808 && t ≠ 0x88F7 then .error (pkgSlow 5) else
  let p ← if t < 0x0600 then p.chk (i + 2 + t) true true 1
    else if t = 0x0800 then p.ip4 (i + 2)
    else if t = 0x86DD then p.ip6 (i + 2)
    else if t = 0x88F7 then p.ptp (i + 2) none
    else if t = 0x88BA then p.layer2 false (i + 2)
    else if t = 0x88B8 then p.layer2 true (i + 2)
    else .ok p
  if dst = own then .error (pkgSlow 4) else .ok p

/-- The end of a parse by the standard package, whatever its program ended with: outcome, reason and exception, and the frame with its
records, checks and AUTH. A frame to which no rule gives an end keeps a FORWARD, DROP, PARSE_DEPTH or TRAP of the program; Sampled Values
and GOOSE are forwarded. -/
def pkgEnd (f : Frame) (o r exc : Nat) : Nat × Nat × Nat × Nat × Frame :=
  match pkgParse Config.ownMac { f with maxE := none, exactE := none, fields := sput f.fields 0 8 (0x1F) } with
  | .error x => (x.o, x.r, x.exc, 0, { f with sides := [] })
  | .ok p =>
    let g := { p.f with sides := p.sides }
    if p.subst || o = 2 || o = 3 then (0, 0, 0, p.excess, g) else (o, r, exc, p.excess, g)

end Sys2Proof.Machine
end

