-- ==== Sys2Proof/Machine/Recipe.lean ====
section
/-! DEFINITION. The recipe engines (chapter 03) and what a parse leaves at its end (R97, R106, R123 to R147). -/
namespace Sys2Proof.Machine

/-! ## The end of a parse -/

/-- A copy to P43 within COPY_LIMIT of the millisecond (R144, R145). -/
def State.copyAllowed (s : State) (pl : Nat) : Bool × State :=
  let lim := s.fld F.PARSE_OUTCOME_CTL.COPY_LIMIT pl
  if lim = 0 then (true, s) else
  let win := s.frc / 1000000
  let (w, n) := sget s.copyWin (0, 0) pl
  let n := if w = win then n else 0
  if n ≥ lim then (false, s.bump .PARSE_COPY_SUPPRESSED pl)
  else (true, { s with copyWin := sset s.copyWin pl (win, n + 1) })

/-- L of a frame whose tail has arrived, as received: FCS, SecTAG and ICV included. -/
def Frame.len (f : Frame) : Nat := f.bytes.length + 4 + f.off

/-- Count a finished parse against its budget (R106). -/
def State.overBudget (s : State) (f : Frame) : State := if f.icnt > budget f.len then s.bump .PARSE_OVER_BUDGET f.pl else s

/-- A parse ends with an outcome, a reason and an exception code (Table 3-10, Table 4-6). The PVID is written into an untagged frame's VID
however its parse ended (DESIGN CHOICE, log 224: R127 speaks of END alone). A frame that needs nothing more leaves, and the records that
waited behind it go. -/
def State.parseEnd (s : State) (pl k icnt fid : Nat) (f : Frame) (o r exc : Nat) (byAbort : Bool) : State :=
  let s := ((s.bump .PARSE_FRAMES pl).add .PARSE_SLOTS pl icnt).bump .PARSE_OUTCOME (pl * 6 + o)
  let s := if o = 2 then s.bump .PARSE_SLOWPATH (pl * 256 + r) else s
  let s := if o = 3 then (s.bump .PARSE_MALFORMED (pl * 256 + r)).bump .PARSE_MAL_PORT f.port else s
  let s := if byAbort then s.bump .PARSE_ABORTED pl else s
  let s := match exc with
    | 1 => s.bump .PARSE_ILLEGAL_OP pl
    | 2 => s.bump .PARSE_CALL_DEPTH pl
    | 3 => s.bump .PARSE_RET_EMPTY pl
    | 4 => s.bump .PARSE_WINDOW pl
    | 5 => s.bump .PARSE_STACK_FULL pl
    | _ => s
  let vid := sget f.fields 0 3
  let fields := if bit vid 12 then sset f.fields 3 (putBits vid 0 12 (s.fld F.PORT_VLAN.PVID f.port)) else f.fields
  let act := s.fld F.PARSE_OUTCOME_CTL.DEPTH_ACTION pl
  let fwd := o == 0 || (o == 4 && act == 2)
  let want := (o == 3 && s.flag F.PARSE_OUTCOME_CTL.MAL_COPY pl) || (o == 5 && s.flag F.PARSE_CTL.TRAP_COPY pl) ||
    (o == 4 && act != 1 && s.flag F.PARSE_OUTCOME_CTL.DEPTH_COPY pl)
  let (ok, s) := if want then s.copyAllowed pl else (false, s)
  let f := { f with
    outcome := o
    reason := r
    exc := exc
    icnt := icnt
    fields := fields
    fwd := fwd
    slow := if o = 2 || (o = 4 && act = 1) then 1 else if ok then 2 else 0
    sides := if o ≤ 1 && !byAbort then f.sides else [] }
  let s := if f.tail then s.overBudget f else s
  let keep := f.fwd || f.slow != 0 || !f.sides.isEmpty
  let (f, s) := if f.fwd || !f.sides.isEmpty then s.authStart f else (f, s)
  if !keep then ({ s with engines := sdel s.engines (pl * 8 + k), frames := sset s.frames fid { f with phase := .ended } }.endFrame fid).flushRelease f.port
  else if s.awaiting pl ≥ 256 then
    { s with frames := sset s.frames fid f
             engines := match sfind s.engines (pl * 8 + k) with
               | some e => sset s.engines (pl * 8 + k) { e with done := true }
               | none => s.engines }
  else State.flushRelease { s with frames := sset s.frames fid { f with phase := .ended }, engines := sdel s.engines (pl * 8 + k) } f.port

/-! ## One instruction -/

/-- What an instruction sees. -/
structure RCtx where
  s  : State
  pl : Nat
  e  : Engine
  f  : Frame
  w  : RWord
  d  : Disp

/-- What an instruction does: it goes on with a new engine and frame, slots used and a branch target; it raises an exception
(Table 4-9); it waits for bytes (R139); it ends the parse. -/
inductive Eff where
  | go (e : Engine) (f : Frame) (slots : Nat) (pc : Option Nat) (excess : Bool)
  | exc (k : Nat) (slots : Nat := 1)
  | wait
  | fin (e : Engine) (f : Frame) (o r : Nat)

/-- A one-slot instruction that only changes its engine. -/
def RCtx.eng (c : RCtx) (e : Engine) : Eff := .go e c.f 1 none false

/-- The code a bank holds, in words; a program counter at or past it is outside (R119). -/
def State.codeOf (s : State) (bank : Nat) : Nat := sget s.codeLen 0 bank

/-- Outcome of an exception code (Table 3-10). -/
def excOutcome (k : Nat) : Nat := if k ≤ 3 then 5 else 4

/-- Put the engine and frame back after an instruction that goes on. -/
def State.keepEngine (s : State) (pl k fid : Nat) (e : Engine) (f : Frame) : State :=
  { s with engines := sset s.engines (pl * 8 + k) e, frames := sset s.frames fid f }

/-- The recipe's own end of a parse: an outcome, a reason and an exception; by the standard package, what its rules require of it. -/
def State.recipeEnd (s : State) (pl k icnt fid : Nat) (f : Frame) (o r exc : Nat) : State :=
  if !s.standard (bankNo pl f.bank) then s.parseEnd pl k icnt fid f o r exc false else
  let (o, r, exc, n, f) := pkgEnd f o r exc
  (s.add .PARSE_SIDE_EXCESS pl n).parseEnd pl k icnt fid f o r exc false

/-- An event from outside ends the parse at this boundary (order 3 of Table 3-10). -/
def Frame.stopped (f : Frame) : Bool := f.aborted.isSome || f.overrun

/-- An instruction's slots are spent, n of the frame's with them (R100): a recipe that no LOAD_RECIPE has checked and that passes 4,096
slots is R120 (DESIGN CHOICE, log 224: the case begins at the 4,097th slot). -/
def State.spendSlots (s : State) (pl : Nat) (f : Frame) (pc slots n : Nat) : State :=
  let s := s.perfEv 3 slots pl f.port 0 f.gen pc
  if n > 4096 && (sfind s.bankObj (bankNo pl f.bank)).isNone then s.undefined .endlessRecipe else s

/-- The boundary after an instruction (R101 to R104); a wait of R139 begins at one. -/
def State.boundary (s : State) (pl k fid : Nat) (e : Engine) (f : Frame) (r : Eff) : State :=
  match r with
  | .wait => if f.stopped then s.parseEnd pl k e.icnt fid f 1 0 0 true else s.keepEngine pl k fid { e with waitW := true } f
  | .fin e' f' o rs =>
    (s.perfEv 3 1 pl f.port 0 f.gen e.pc).recipeEnd pl k (min 65535 (e'.icnt + 1)) fid f' o rs 0
  | .exc x slots =>
    let n := min 65535 (e.icnt + slots)
    let s := s.perfEv 3 slots pl f.port 0 f.gen e.pc
    if f.stopped then s.parseEnd pl k n fid f 1 0 0 true else s.recipeEnd pl k n fid f (excOutcome x) 0 x
  | .go e' f' slots pc excess =>
    let n := min 65535 (e'.icnt + slots)
    let s := s.spendSlots pl f e.pc slots n
    let s := if excess && !s.standard (bankNo pl f.bank) then s.bump .PARSE_SIDE_EXCESS pl else s
    if f.stopped then s.parseEnd pl k n fid f' 1 0 0 true
    else s.keepEngine pl k fid { e' with pc := (match pc with | some t => t | none => e.pc + 1), icnt := n } f'

/-- One recipe row: the engine's next instruction when its operation is the row's, or an illegal opcode, which any row raises
(R80, R83, R102). An engine that has no such instruction is unchanged. -/
def recipeRow (oper dt : Nat) (pl : Fin 4) (k : Fin 8) (s : State) (run : RCtx → Eff) : Out :=
  let s := s.advance dt
  match sfind s.engines (pl * 8 + k) with
  | none => finish s
  | some e =>
    if e.waitW || e.done then finish s else
    match sfind s.frames e.frame with
    | none => finish s
    | some f =>
      let bank := bankNo pl f.bank
      if e.pc ≥ s.codeOf bank then finish (s.undefined .outsideCode) else
      let w := rword (s.codeWord bank e.pc)
      let d := s.dispatchOf bank w.opc
      if d.valid && operDefined d.oper && d.oper != oper then finish s else
      let r := if !d.valid || !operDefined d.oper then Eff.exc 1 else
        match e.cond w.cond with
        | none => Eff.exc 1
        | some false => Eff.go e f 1 none false
        | some true => run { s := s, pl := pl, e := e, f := f, w := w, d := d }
      finish (s.boundary pl k e.frame e f r)

/-! ## The operations (Table 3-6) -/

/-- NOP. -/
def execRecipeNop (dt : Nat) (pl : Fin 4) (e : Fin 8) (s : State) : Out :=
  recipeRow 0x00 dt pl e s fun c => c.eng c.e

/-- A load's answer into Wd and O. -/
def RCtx.loaded (c : RCtx) : Load64 → Eff
  | .value v o => c.eng { c.e.setReg c.w.dst v with o := o }
  | .window => .exc 4
  | .wait => .wait

/-- First bit of a load: CUR × 8 + OFF, or OFF with ABS. -/
def RCtx.loadBit (c : RCtx) : Int := if c.d.abs then (c.w.off : Nat) else (c.e.cur * 8 : Nat) + c.w.soff

/-- LDF. -/
def execLdf (dt : Nat) (pl : Fin 4) (e : Fin 8) (s : State) : Out :=
  recipeRow 0x01 dt pl e s fun c => c.loaded (c.f.load c.d c.loadBit c.w.width)

/-- LDV: min(B[3:0], 8) bytes; none gives zero and clears O, wherever the field would start (DESIGN CHOICE, log 224). -/
def execLdv (dt : Nat) (pl : Fin 4) (e : Fin 8) (s : State) : Out :=
  recipeRow 0x03 dt pl e s fun c =>
    let n := min (c.e.opB c.w % 16) 8
    if n = 0 then c.loaded (.value 0 false) else c.loaded (c.f.load c.d c.loadBit (8 * n))

/-- MOVI. -/
def execMovi (dt : Nat) (pl : Fin 4) (e : Fin 8) (s : State) : Out :=
  recipeRow 0x04 dt pl e s fun c => c.eng (c.e.setReg c.w.dst c.w.imm)

/-- ADD. -/
def execAluAdd (dt : Nat) (pl : Fin 4) (e : Fin 8) (s : State) : Out :=
  recipeRow 0x05 dt pl e s fun c =>
    let a := c.e.reg c.w.sa
    let b := c.e.opB c.w
    c.eng ((c.e.setReg c.w.dst (a + b)).arithFlags c.d.sf (w64 (a + b)) (carryAdd a b))

/-- SUB. -/
def execAluSub (dt : Nat) (pl : Fin 4) (e : Fin 8) (s : State) : Out :=
  recipeRow 0x06 dt pl e s fun c =>
    let a := c.e.reg c.w.sa
    let b := c.e.opB c.w
    c.eng ((c.e.setReg c.w.dst (sub64 a b)).arithFlags c.d.sf (sub64 a b) (borrowSub a b))

/-- A logic result into Wd. -/
def RCtx.logic (c : RCtx) (v : Nat) : Eff := c.eng ((c.e.setReg c.w.dst v).logicFlags c.d.sf (w64 v))

/-- AND. -/
def execAluAnd (dt : Nat) (pl : Fin 4) (e : Fin 8) (s : State) : Out :=
  recipeRow 0x07 dt pl e s fun c => c.logic (c.e.reg c.w.sa &&& c.e.opB c.w)

/-- OR. -/
def execAluOr (dt : Nat) (pl : Fin 4) (e : Fin 8) (s : State) : Out :=
  recipeRow 0x08 dt pl e s fun c => c.logic (c.e.reg c.w.sa ||| c.e.opB c.w)

/-- XOR. -/
def execAluXor (dt : Nat) (pl : Fin 4) (e : Fin 8) (s : State) : Out :=
  recipeRow 0x09 dt pl e s fun c => c.logic (c.e.reg c.w.sa ^^^ c.e.opB c.w)

/-- SHL by B[5:0]. -/
def execAluShl (dt : Nat) (pl : Fin 4) (e : Fin 8) (s : State) : Out :=
  recipeRow 0x0A dt pl e s fun c => c.logic (c.e.reg c.w.sa <<< (c.e.opB c.w % 64))

/-- SHR by B[5:0], logical. -/
def execAluShr (dt : Nat) (pl : Fin 4) (e : Fin 8) (s : State) : Out :=
  recipeRow 0x0B dt pl e s fun c => c.logic (c.e.reg c.w.sa >>> (c.e.opB c.w % 64))

/-- EXT. -/
def execExtract (dt : Nat) (pl : Fin 4) (e : Fin 8) (s : State) : Out :=
  recipeRow 0x0C dt pl e s fun c => c.eng (c.e.setReg c.w.dst ((c.e.reg c.w.sa >>> (c.w.off % 64)) % 2 ^ c.w.width))

/-- CMP. -/
def execCmp (dt : Nat) (pl : Fin 4) (e : Fin 8) (s : State) : Out :=
  recipeRow 0x0D dt pl e s fun c =>
    let a := c.e.reg c.w.sa
    let b := c.e.opB c.w
    c.eng (c.e.arithFlags true (sub64 a b) (borrowSub a b))

/-- TST. -/
def execTst (dt : Nat) (pl : Fin 4) (e : Fin 8) (s : State) : Out :=
  recipeRow 0x0E dt pl e s fun c => c.eng { c.e with z := flagZ (c.e.reg c.w.sa &&& c.e.opB c.w) }

/-- BR. -/
def execBr (dt : Nat) (pl : Fin 4) (e : Fin 8) (s : State) : Out :=
  recipeRow 0x0F dt pl e s fun c => .go c.e c.f 1 (some (c.w.tgt % 8192)) false

/-- BRX. -/
def execBrx (dt : Nat) (pl : Fin 4) (e : Fin 8) (s : State) : Out :=
  recipeRow 0x10 dt pl e s fun c => .go c.e c.f 1 (some (c.w.tgt % 8192 + (c.e.reg c.w.sa &&& (c.w.imm % 8192)))) false

/-- CALL. -/
def execCall (dt : Nat) (pl : Fin 4) (e : Fin 8) (s : State) : Out :=
  recipeRow 0x11 dt pl e s fun c =>
    if c.e.calls.length ≥ 4 then .exc 2
    else .go { c.e with calls := (c.e.pc + 1) :: c.e.calls } c.f 1 (some (c.w.tgt % 8192)) false

/-- RET. -/
def execRet (dt : Nat) (pl : Fin 4) (e : Fin 8) (s : State) : Out :=
  recipeRow 0x12 dt pl e s fun c =>
    match c.e.calls with
    | [] => .exc 3
    | a :: t => .go { c.e with calls := t } c.f 1 (some a) false

/-- ADV. -/
def execAdv (dt : Nat) (pl : Fin 4) (e : Fin 8) (s : State) : Out :=
  recipeRow 0x13 dt pl e s fun c =>
    let n := c.e.cur + c.e.opB c.w % 16777216
    if n > 512 then .exc 4 else c.eng { c.e with cur := n }

/-- PUSH. -/
def execPush (dt : Nat) (pl : Fin 4) (e : Fin 8) (s : State) : Out :=
  recipeRow 0x14 dt pl e s fun c =>
    let n := if c.w.sb = 0 then bits c.w.imm 16 10 else c.e.reg c.w.sb % 1024
    if c.e.cur + n > 512 then .exc 4
    else if c.f.hdrs.length ≥ 16 then .exc 5
    else
      let o := decide (c.e.cur + n > c.f.flen)
      let h := c.w.imm % 256 + 256 * c.e.cur + 262144 * n + 268435456 * b2n o
      .go { c.e with cur := c.e.cur + n, o := o } { c.f with hdrs := c.f.hdrs ++ [h] } 1 none false

/-- DECBER. Before the tail O compares with MAX_FRAME − 4, and the header bytes of an indefinite or over-long length are its tag bytes alone
(DESIGN CHOICE, log 224). -/
def execDecber (dt : Nat) (pl : Fin 4) (e : Fin 8) (s : State) : Out :=
  recipeRow 0x15 dt pl e s fun c =>
    let i := c.e.cur
    if i > 511 then .exc 4
    else if c.f.waits i i then .wait
    else
      let tb := if c.f.winByte i % 32 = 31 then 2 else 1
      if i + tb > 511 then .exc 4
      else if c.f.waits i (i + tb) then .wait
      else
        let (tag, _, hb, len, bad) := berHead c.f i
        if i + hb > 512 then .exc 4
        else if c.f.waits i (i + hb - 1) then .wait
        else
          let n := if bad then tb else hb
          let e' := c.e.setReg c.w.dst (len + 16777216 * tag + 1099511627776 * n)
          c.eng { e' with
            cur := if c.d.na then c.e.cur else c.e.cur + n
            c := bad
            z := len == 0
            o := decide (i + n + len > c.f.flen) }

/-- CHKLEN (R94, R95, R139, R140). -/
def execChklen (dt : Nat) (pl : Fin 4) (e : Fin 8) (s : State) : Out :=
  recipeRow 0x16 dt pl e s fun c =>
    match c.f.chkLen ((c.e.cur : Nat) + c.w.soff + (c.e.opB c.w % 16777216 : Nat)) (bit c.w.imm 0) (bit c.w.imm 1) (bits c.w.imm 8 8) with
    | none => .fin c.e c.f 3 (bits c.w.imm 8 8)
    | some f => .go c.e f 1 none false

/-- LDS. -/
def execLds (dt : Nat) (pl : Fin 4) (e : Fin 8) (s : State) : Out :=
  recipeRow 0x17 dt pl e s fun c => c.eng (c.e.setReg c.w.dst (specialValue c.s c.f c.e (c.w.imm % 16)))

/-- KEY. -/
def execKeyWrite (dt : Nat) (pl : Fin 4) (e : Fin 8) (s : State) : Out :=
  recipeRow 0x18 dt pl e s fun c =>
    let b := c.w.tgt % 4
    let n := min c.w.width (640 - c.w.off)
    .go c.e { c.f with kb := c.f.kb.set b (putBits (c.f.kb.getD b 0) c.w.off n (c.e.reg c.w.sa)) } 1 none false

/-- Bits of a metadata field (Table 4-2); 0 for an index not defined. -/
def metaBits (i : Nat) : Nat :=
  if 32 ≤ i && i ≤ 39 then 32 else [7, 32, 32, 13, 5, 11, 21, 32, 16].getD i 0

/-- META (R88). -/
def execMetaWrite (dt : Nat) (pl : Fin 4) (e : Fin 8) (s : State) : Out :=
  recipeRow 0x19 dt pl e s fun c =>
    let i := c.w.tgt % 64
    if metaBits i = 0 then c.eng c.e
    else .go c.e { c.f with fields := sput c.f.fields 0 i (c.e.reg c.w.sa % 2 ^ metaBits i) } 1 none false

/-- Place a side record in the next slot; a ninth is discarded (R97). -/
def RCtx.side (c : RCtx) (x : Side) : Eff :=
  if c.f.sides.length ≥ 8 then .go c.e c.f 1 none true
  else .go c.e { c.f with sides := c.f.sides ++ [x] } 1 none false

/-- SIDE. -/
def execSideRec (dt : Nat) (pl : Fin 4) (e : Fin 8) (s : State) : Out :=
  recipeRow 0x1A dt pl e s fun c => c.side (.ev (c.w.imm % 256) (bits c.w.imm 8 16) (c.e.reg c.w.sa) (c.e.opB c.w))

/-- SVX (R96). -/
def execSvx (dt : Nat) (pl : Fin 4) (e : Fin 8) (s : State) : Out :=
  recipeRow 0x1B dt pl e s fun c =>
    let n := c.w.imm % 16
    let n := if n = 0 || n > 8 then 8 else n
    let b := c.e.opB c.w
    if c.e.cur + 8 * n > 512 then .exc 4
    else if c.f.waits c.e.cur (c.e.cur + 8 * n - 1) then .wait
    else c.side (.sv (c.e.reg c.w.sa) (b % 65536) (bits b 16 8) (bits c.w.imm 8 4)
      ((List.range n).map fun i => c.f.winBE (c.e.cur + 8 * i) 8))

/-- Pattern i of a bank matches at byte a of the window (R99). -/
def patAt (s : State) (f : Frame) (bank i a : Nat) : Bool :=
  let r := bank * 64 + i
  let n := bits (s.reg .PARSE_PAT_CTL r 0) 0 4 + 1
  (List.range n).all fun j =>
    let m := bits (s.reg .PARSE_PAT_MASK r (j / 4)) (8 * (j % 4)) 8
    let v := bits (s.reg .PARSE_PAT_VAL r (j / 4)) (8 * (j % 4)) 8
    (f.winByte (a + j) &&& m) == (v &&& m)

/-- The match vector of a region of n bytes from byte a (R98, R99). -/
def patVector (s : State) (f : Frame) (bank a n : Nat) : Nat :=
  ((List.range 64).map fun i =>
    let ctl := s.reg .PARSE_PAT_CTL (bank * 64 + i) 0
    let len := bits ctl 0 4 + 1
    if !bit ctl 5 || len > n then 0
    else if ((List.range (if bit ctl 4 then 1 else n - len + 1)).any fun j => patAt s f bank i (a + j)) then 2 ^ i else 0).foldl (· + ·) 0

/-- PAT (R98). Before the tail the region is truncated to MAX_FRAME − 4; one of length 0 after truncation matches nothing, wherever it
starts (DESIGN CHOICE, log 224). -/
def execPat (dt : Nat) (pl : Fin 4) (e : Fin 8) (s : State) : Out :=
  recipeRow 0x1C dt pl e s fun c =>
    let a : Int := (c.e.cur : Nat) + c.w.soff
    let n := min (c.e.opB c.w % 512) 256
    let n := (min (a + (n : Nat)) ((c.f.flen : Nat) : Int) - a).toNat
    if n = 0 then .go { c.e.setReg c.w.dst 0 with z := true } c.f 1 none false
    else if a < 0 || a + (n : Nat) > 512 then .exc 4 (max 1 ((n + 63) / 64))
    else if c.f.waits a.toNat (a.toNat + n - 1) then .wait
    else
      let v := patVector c.s c.f (bankNo c.pl c.f.bank) a.toNat n
      .go { c.e.setReg c.w.dst v with z := v == 0 } c.f (max 1 ((n + 63) / 64)) none false

/-- END (R100). -/
def execEndParse (dt : Nat) (pl : Fin 4) (e : Fin 8) (s : State) : Out :=
  recipeRow 0x1D dt pl e s fun c =>
    let o := c.w.imm % 16
    .fin c.e c.f (if o ≥ 6 then 5 else o) (bits c.w.imm 8 8)

/-- More bytes of a frame that has left the device. -/
def State.moreTail (s : State) (f : Nat) (more : Bytes) : State :=
  match sfind s.tails f with
  | none => s
  | some t => { s with tails := sset s.tails f { t with len := t.len + more.length } }

/-- PARSE_WINDOW_WAIT_END (R139): more bytes have arrived; with 516 the engine goes on. -/
def execParseWindowWaitEnd (dt : Nat) (f : Nat) (more : Bytes) (s : State) : Out :=
  let s := s.advance dt
  match sfind s.frames f with
  | none => finish (s.moreTail f more)
  | some x =>
    if x.tail then finish s else
    let x := { x with bytes := x.bytes ++ more }
    let s := State.seal { s with frames := sset s.frames f x } f
    if x.bytes.length < 516 then finish s else
    finish { s with engines := s.engines.map fun e => (e.1, if e.2.frame == f then { e.2 with waitW := false } else e.2) }

/-! ## Dispatch (R72 to R75, R81, R109, R111) -/

/-- The head-ready frame the dispatcher takes next (R72, R73): lane ports first, oldest first, ties to the lower port; not before the
cycle after its buffer's grant. -/
def State.nextHeadReady (s : State) (pl : Nat) : Option (Nat × Frame) :=
  let l := s.frames.filter fun e => e.2.pl == pl && decide (e.2.phase = .pending) && decide (coreCycles e.2.readyAt < coreCycles s.now)
  let best (l : Sparse Frame) : Option (Nat × Frame) := l.foldl (fun m e => match m with
    | none => some e
    | some x => if e.2.headSeq < x.2.headSeq || (e.2.headSeq = x.2.headSeq && e.2.port < x.2.port) then some e else some x) none
  match best (l.filter fun e => e.2.port < 32) with
  | some e => some e
  | none => best l

/-- The metadata a parse starts with (Table 4-2). -/
def State.meta0 (s : State) (pl p : Nat) : Sparse Nat :=
  let d (k : Nat) := s.reg .PARSE_LKP_DEF ((pl * 44 + p) * 3 + k) 0
  (([(0, d 0 % 128), (1, d 1), (2, d 2), (3, 0x1000), (4, 0x10), (6, 0x1F1F1F), (8, 0x1F)] : List (Nat × Nat)).foldl
    (fun m e => sput m 0 e.1 e.2) [])

/-- ENGINE_DISPATCH (R73, R74, R81, R109, R111, R327): badReads reads of the frame's first block mismatch. -/
def execEngineDispatch (dt : Nat) (pl : Fin 4) (badReads : Nat) (s : State) : Out :=
  let s := s.advance dt
  if !s.ready (4 + pl) || s.plFenced pl || s.pwr.gated.contains pl then finish s else
  match s.freeEngine pl, s.nextHeadReady pl with
  | some k, some (fid, f) =>
    let (ok, s) := s.blockRead fid badReads
    if !ok then finish (s.endFrame fid) else
    let bank := s.fld F.PARSE_CTL.ACTIVE_BANK pl
    let f := { f with
      gen := s.cur
      bank := bank
      disp := s.nextDisp
      phase := .parsing k
      fields := s.meta0 pl f.port
      kb := [0, 0, 0, 0]
      hdrs := [] }
    let entry := s.reg .PARSE_ENTRY (bankNo pl bank * 44 + f.port) 0
    let e : Engine := { frame := fid, w := List.replicate 16 0, pc := entry % 8192, since := s.now }
    let s := ({ s with nextDisp := s.nextDisp + 1 } : State).keepEngine pl k fid e f
    let s := s.perfEv 2 1 pl f.port 0 f.gen (f.flen % 16384)
    if bit entry 31 then finish s else finish (s.parseEnd pl k 0 fid f 5 0 6 false)
  | _, _ => finish s

end Sys2Proof.Machine
end

