-- ==== Sys2Proof/Machine/Ports.lean ====
section
/-! DEFINITION. Ports and MACs: frames that become head-ready, their buffers, links, flow control and low-power idle (chapters 02
and 08). -/
namespace Sys2Proof.Machine

/-! ## Buffer grants (R313 to R318) -/

/-- Requester numbers of the frames that wait for a buffer of pool k, in serving order from the pointer. -/
def State.requests (s : State) (k : Nat) : List (Nat × Frame) :=
  let l := s.frames.filter fun e => decide (e.2.phase = .waitBuf k)
  let ptr := sget s.poolPtr 0 k
  let by_ (p : Frame → Bool) : List (Nat × Frame) :=
    (List.range 44).flatMap fun r => l.filter fun e => e.2.port == r && p e.2
  by_ (fun f => decide (f.port ≥ ptr)) ++ by_ (fun f => decide (f.port < ptr))

/-- The owner of a frame's buffer from its allocation (Table 8-5). -/
def allocOwner (p : Nat) : Nat := if p = 40 then 1 else if p = 42 then 2 else if p = 43 then 3 else 0

/-- A frame gets a buffer of pool k and its bytes are written into it (R313, R317). -/
def State.grant (s : State) (k : Nat) (e : Nat × Frame) : State :=
  match s.alloc k (allocOwner e.2.port) with
  | none => s
  | some (id, s) =>
    let s := { s with poolPtr := sput s.poolPtr 0 k ((e.2.port + 1) % 46) }
    let s := s.perfEv 9 1 e.2.pl e.2.port 0 0 (e.2.flen % 16384)
    (s.modFrame e.1 fun f => { f with
      buf := some id
      phase := .pending
      blocks := poolBlocks k
      owner := allocOwner f.port
      readyAt := s.now }).seal e.1

/-- A requester left with none (R318). -/
def State.refused (s : State) (k : Nat) (e : Nat × Frame) : State :=
  if s.flag F.BUF_REQ_CFG.SPILL e.2.port && k < 3 then s.modFrame e.1 fun f => { f with phase := .waitBuf (k + 1) }
  else if e.2.port ≥ 40 && e.2.port ≠ 41 then s.modFrame e.1 fun f => { f with phase := .waitBuf f.pool0 }
  else ({ s.bump .BUF_NONE (e.2.port * 4 + e.2.pool0) with frames := sdel s.frames e.1 } : State).keepTail e.1 e.2

/-- One cycle of the pools: each serves its requests, at most two (R316, R317). -/
def State.grantCycle (s : State) : State :=
  let l := (List.range 4).map fun k => (k, s.requests k)
  l.foldl (fun s x =>
    let n := min 2 (s.poolFree x.1)
    (x.2.drop n).foldl (fun s e => s.refused x.1 e) ((x.2.take n).foldl (fun s e => s.grant x.1 e) s)) s

/-- BUF_SPILL_RETRY (R318). -/
def execBufSpillRetry (dt : Nat) (s : State) : Out := finish (s.advance dt).grantCycle

/-! ## Head-ready (R72, R75, R76, R89, R293, R314, R315) -/

/-- Where the type field stands after up to two VLAN tags and one HSR tag or R-tag (R315). -/
def probeType (b : Bytes) : Nat :=
  let tag (i : Nat) : Bool := beNat b i 2 == 0x8100 || beNat b i 2 == 0x88A8
  let i := 12
  let i := if tag i then i + 4 else i
  let i := if i = 16 && tag i then i + 4 else i
  if beNat b i 2 == 0x892F || beNat b i 2 == 0xF1C1 then i + 6 else i

/-- The length probe (R315). -/
def lengthProbe (b : Bytes) (maxF : Nat) : Option Nat :=
  let i := probeType b
  let t := beNat b i 2
  let e : Option Nat :=
    if t = 0x0800 then some (i + 2 + beNat b (i + 4) 2)
    else if t = 0x86DD then some (i + 2 + 40 + beNat b (i + 6) 2)
    else if t = 0x88BA || t = 0x88B8 then some (i + 2 + beNat b (i + 4) 2)
    else if t < 0x0600 then some (i + 2 + t)
    else none
  match e with
  | none => none
  | some e => if e + 10 ≤ 512 || e + 10 > maxF then none else some (e + 10)

/-- The pool of a frame (Table 8-3). -/
def choosePool (long : Bool) (l : Nat) (b : Bytes) (maxF : Nat) : Nat :=
  if !long then poolFor l else match lengthProbe b maxF with
  | some h => poolFor h
  | none => 3

/-- Frames in the parse pending queue of a port, those that still wait for a buffer included (R75). -/
def State.pendingOf (s : State) (p : Nat) : Nat :=
  (s.frames.filter fun e => e.2.port == p && (match e.2.phase with | .pending | .waitBuf _ => true | _ => false)).length

/-- PTP nanoseconds n ns ago: a step since then does not move an instant before it (R450). -/
def State.ptpAgo (s : State) (n : Nat) : Nat :=
  ((s.ptp : Int) - n - ((s.clock.steps.filter fun e => decide (s.now < e.1 + n)).map (·.2)).foldl (· + ·) 0).toNat

/-- A timestamp taken now is flagged untraceable: until TIME is READY, whatever TRACEABLE says (R23, R443, R453). -/
def State.untraced (s : State) : Bool := !s.ready 3

/-- The index of TIME_CAL for a port's current rate and FEC setting (R447). -/
def State.calMode (s : State) (p : Nat) : Nat :=
  let fec := b2n (s.fld F.PORT_CFG.FEC p != 0)
  match s.rate p with
  | 10000 => 1 + fec
  | 25000 => 3 + fec
  | 40000 => 5 + fec
  | 50000 => 7 + fec
  | 100000 => 9 + fec
  | _ => 0

/-- What the calibration in TIME_CAL leaves of a port's internal delay, which the factory data hold (R446, R448): receive (0) or transmit (1), in
units of 2^-16 ns. -/
def State.calErr (s : State) (p w : Nat) : Int :=
  let i := 11 * p + s.calMode p
  ((Config.factoryCal (2 * i + w) % 16777216 : Nat) : Int) - (bits (s.reg .TIME_CAL i w) 0 24 : Nat)

/-- How far a port's timestamps lie from the instant at the pins, in units of 2^-16 ns: what the calibration leaves and the board's delay (R446,
Table 11-1). The corrected internal delay is taken off a receive timestamp and added to a transmit one. -/
def State.rxDelay (s : State) (p : Nat) : Int := s.calErr p 0 + sgn (s.fld F.TIME_BOARD_DLY.RX_PS p) 16 * 65536 / 1000
def State.txDelay (s : State) (p : Nat) : Int := sgn (s.fld F.TIME_BOARD_DLY.TX_PS p) 16 * 65536 / 1000 - s.calErr p 1

/-- A timestamp of t ns moved by d units of 2^-16 ns: its nanoseconds and its fraction. -/
def stampNs (t : Nat) (d : Int) : Nat := ((t : Int) + d / 65536).toNat
def stampSub (d : Int) : Nat := (d % 65536).toNat

/-- Where the receive SA of a port, an SCI and an association number is kept. -/
def saKey (p sci an : Nat) : Nat := (p * 18446744073709551616 + sci % 18446744073709551616) * 4 + an % 4

/-- The MACsec check of a received frame of bytes b (R293): a counter that discards it, and the port's SAs after it. A frame without a
SecTAG passes on the uncontrolled port when it is of type 0x888E, or PTP under PTP_CLEAR. For a long frame the ICV and the replay window are
judged at the tail. -/
def State.macsecIn (s : State) (p : Nat) (t : Option SecTag) (b : Bytes) (tailed : Bool) : Option Ctr × State :=
  if p ≥ 32 || !s.flag F.MSEC_CTL.RX_EN p then (none, s) else
  match t with
  | none =>
    if beNat b (tagEnd b) 2 == 0x888E || (isPtp b && s.flag F.MSEC_CTL.PTP_CLEAR p) then (none, s) else (some .MSEC_RX_UNTAGGED, s)
  | some t =>
    if t.malformed then (some .MSEC_RX_BAD_TAG, s) else
    match sfind s.rxSa (saKey p t.sci t.an) with
    | none => (some .MSEC_RX_NO_SA, s)
    | some sa =>
      if !tailed then (none, s)
      else if !t.icvOk then (some .MSEC_RX_NOT_VALID, s)
      else if s.flag F.MSEC_CTL.REPLAY_EN p && t.pn + s.reg .MSEC_REPLAY_WIN p 0 < sa.nextPn then (some .MSEC_RX_LATE, s)
      else (none, { s with rxSa := sset s.rxSa (saKey p t.sci t.an) { sa with nextPn := max sa.nextPn (t.pn + 1) } })

/-- A received PFC frame (R55, R56): one for a priority that is not set, or on P32 to P39, counts once; the priorities that are set
act (DESIGN CHOICE, log 223). -/
def State.pfcFrame (s : State) (p enable : Nat) (quanta : List Nat) : State :=
  let on (n : Nat) : Bool := decide (p < 32) && bit (s.fld F.PORT_CFG.PFC_PRI p) n
  let s := if p ≥ 32 || (List.range 8).any fun n => bit enable n && !on n then s.bump .RX_PFC_IGNORED p else s
  (List.range 8).foldl (fun (s : State) n =>
    if !bit enable n || !on n then s
    else
      let q := quanta.getD n 0
      let s := s.bump .RX_PFC (p * 8 + n)
      if q = 0 || s.rate p = 0 then { s with pfcPause := sdel s.pfcPause (p * 8 + n) }
      else { s with pfcPause := sset s.pfcPause (p * 8 + n) (s.now + cdiv (q * 512000) (s.rate p)) }) s

/-- Enter a frame whose bytes the MAC or an injector holds: its buffer is requested (R313). -/
def State.enterFrame (s : State) (f : Frame) : State :=
  { s with frames := sset s.frames s.nextFrame f, nextFrame := s.nextFrame + 1 }

/-- The head of a frame is discarded; one longer than 512 B is still counted at its tail. -/
def State.headLost (s : State) (a : Arrival) : State :=
  if !a.long then s else
  { s with
    tails := sset s.tails s.nextFrame { port := a.port, pl := portPl a.port, maxFrame := s.maxFrameAt a.port (s.now - a.age), len := a.bytes.length }
    nextFrame := s.nextFrame + 1 }

/-- What the PCS of a port has counted since its last report (R66). -/
def State.pcsCount (s : State) (a : Arrival) : State :=
  ((s.add .RX_SYMBOL_ERR a.port a.symErr).add .FEC_CORRECTED a.port a.fecFix).add .FEC_UNCORRECTED a.port a.fecLost

/-- A port receives frames: it exists, is enabled and its link is up (Table 2-4); receivers stay stopped in the safe state (R774). -/
def State.rxAlive (s : State) (p : Nat) : Bool := s.portExists p && s.flag F.PORT_CFG.ENABLE p && s.linkUp p && !s.flt.safe

/-- One arriving frame, up to its request for a buffer. One cut off before it was head-ready is counted when it is reported. -/
def State.arrive (s : State) (a : Arrival) : State :=
  let p := a.port
  let pl := portPl p
  let maxF := s.maxFrameAt p (s.now - a.age)
  let ty := beNat a.bytes 12 2
  let s := if p < 40 then s.pcsCount a else s
  if a.cut then (if p < 40 then s.bump .RX_ABORT p else s)
  else if !s.rxAlive p then s
  else if !a.long && a.len < 64 then s.bump .RX_RUNT p
  else if !a.long && (!a.fcsOk || a.fecBad) then s.bump .RX_FCS_ERR p
  else if (if a.long then 512 else a.len) ≥ maxF + (if a.long then 0 else 1) then s.bump .RX_OVERSIZE p
  else
    let s := if a.long then s else (s.bump .RX_FRAMES p).add .RX_OCTETS p a.len
    if beNat a.bytes 0 6 = 0x0180C2000001 && ty = 0x8808 && beNat a.bytes 14 2 = 1 then s.bump .RX_PAUSE_IGNORED p
    else if beNat a.bytes 0 6 = 0x0180C2000001 && ty = 0x8808 && beNat a.bytes 14 2 = 0x0101 then
      s.pfcFrame p (beNat a.bytes 16 2) ((List.range 8).map fun n => beNat a.bytes (18 + 2 * n) 2)
    else match s.macsecIn p a.secTag a.bytes (!a.long) with
    | (some c, s) => (s.bump c p).headLost a
    | (none, s) =>
      if !s.ready (4 + pl) || s.plFenced pl || s.pwr.gated.contains pl then (s.bump .RX_NOT_READY p).headLost a
      else if s.pendingOf p ≥ 128 then (s.bump .PARSE_STALL_DROP p).headLost a
      else
        let d := (a.subNs : Int) + s.rxDelay p
        let controlled := p < 32 && s.flag F.MSEC_CTL.RX_EN p
        s.enterFrame {
          port := p
          pl := pl
          bytes := a.bytes
          long := a.long
          tail := !a.long
          maxFrame := maxF
          ts := stampNs (s.frc - a.age) d
          tsPtp := stampNs (s.ptpAgo a.age) d
          tsSub := stampSub d
          untrace := s.untraced
          suspect := s.flag F.FAB_STATE.TIME_SUSPECT 0
          pool0 := choosePool a.long a.len a.bytes maxF
          phase := .waitBuf (choosePool a.long a.len a.bytes maxF)
          headSeq := s.nextHead
          macsec := controlled
          icv := if a.long && controlled then a.secTag else none
          off := if a.long then (if controlled then a.secTag.elim 0 SecTag.size else 0) else a.len - (a.bytes.length + 4)
          src := s.gport p }

/-- FRAME_HEAD_READY: frames that become head-ready together. -/
def execFrameHeadReady (dt : Nat) (as : List Arrival) (s : State) : Out :=
  let s := as.foldl State.arrive (s.advance dt)
  finish ({ s with nextHead := s.nextHead + 1 } : State).grantCycle

/-- A frame injected through P40 or P43 (R76, R151, R313, R339): held back while the port's queue is full. -/
def State.inject (s : State) (p pl : Nat) (b : Bytes) : Option State :=
  if s.pendingOf p ≥ 128 then none else
  let k := poolFor (b.length + 4)
  let s := s.enterFrame {
    port := p
    pl := pl
    bytes := b
    ts := s.frc
    tsPtp := s.ptp
    untrace := s.untraced
    suspect := s.flag F.FAB_STATE.TIME_SUSPECT 0
    pool0 := k
    phase := .waitBuf k
    headSeq := s.nextHead
    src := s.gport p }
  some ({ s with nextHead := s.nextHead + 1 } : State).grantCycle

/-- P43_INJECT (R151, R152). -/
def execP43Inject (dt : Nat) (pl : Fin 4) (bytes : Bytes) (s : State) : Out :=
  let s := s.advance dt
  match s.inject 43 pl bytes with
  | none => finish s
  | some t => finish t

/-! ## Aborts (R319, R849) -/

/-- A frame found bad while its engine waits for bytes that will not come ends its parse now. -/
def State.endWaiting (s : State) (fid : Nat) : State :=
  match sfind s.frames fid with
  | none => s
  | some f => match f.phase with
    | .parsing k => match sfind s.engines (f.pl * 8 + k) with
      | some e => if e.waitW && f.stopped then s.parseEnd f.pl k e.icnt fid f 1 0 0 true else s
      | none => s
    | _ => s

/-- MAC_ABORT (R849). -/
def execMacAbort (dt : Nat) (f : Nat) (c : AbortCause) (s : State) : Out :=
  finish (((s.advance dt).macAbort f c).endWaiting f)

/-- A frame's bytes pass the end of its buffer (R319, R320): it is counted and discarded, in parse at the next boundary, after END with its
copies. -/
def State.overrunFrame (s : State) (fid : Nat) (x : Frame) : State :=
  let s : State := { s.bump .BUF_OVERRUN x.port with frames := sset s.frames fid { x with overrun := true } }
  match x.phase with
  | .parsing _ => s.endWaiting fid
  | .ended => s
  | .admitted => s.killCopies fid
  | _ => (s.endFrame fid).releaseHeld x.pl

/-- BUF_OVERRUN (R319, R320): more bytes of a frame whose tail has not arrived. -/
def execBufOverrun (dt : Nat) (f : Nat) (more : Bytes) (s : State) : Out :=
  let s := s.advance dt
  match sfind s.frames f with
  | none => finish (s.moreTail f more)
  | some x =>
    if x.tail || x.buf.isNone then finish s
    else if x.stopped then finish (s.modFrame f fun x => { x with bytes := x.bytes ++ more })
    else if x.bytes.length + more.length ≤ poolSize ((x.buf.getD 0) / 262144) then
      finish ((s.modFrame f fun x => { x with bytes := x.bytes ++ more }).seal f)
    else
      finish (s.overrunFrame f { x with bytes := x.bytes ++ more })

/-! ## Links (R36 to R39, R44, R45, R47, R50) -/

/-- The rate code a lane port is configured for (Table 2-1). -/
def State.laneRate (s : State) (p : Nat) : Nat :=
  let q := p / 4
  match s.fld F.PORT_QUAD_CFG.MODE q with
  | 1 => if bit (s.fld F.PORT_QUAD_CFG.LANE_25G q) (p % 4) then 5 else 4
  | 2 => 6
  | 3 => 6
  | 4 => 7
  | _ => 0

/-- The FEC setting is allowed (Table 2-5). -/
def State.fecOk (s : State) (p : Nat) : Bool :=
  let f := s.fld F.PORT_CFG.FEC p
  p ≥ 32 || f == 0 || (f == 1 && s.fld F.PORT_QUAD_CFG.MODE (p / 4) != 4) || (f == 2 && s.fld F.PORT_QUAD_CFG.MODE (p / 4) == 4)

/-- A port that runs SGMII (R36). -/
def State.sgmii (s : State) (p : Nat) : Bool := decide (p ≥ 32) && !s.flag F.PORT_CFG.SERIAL_MODE p

/-- The peer is configured to match the port (R37, R47): mode, rate and FEC of a lane port; 1000BASE-X; or a PHY at one of the three SGMII
speeds. -/
def State.peerMatches (s : State) (p : Nat) (y : LinkPeer) : Bool :=
  if p < 32 then
    s.laneRate p != 0 && y.speed == s.laneRate p && y.fec == s.fld F.PORT_CFG.FEC p &&
    (y.speed != 6 || y.fifty == (s.fld F.PORT_QUAD_CFG.MODE (p / 4) == 3))
  else if s.sgmii p then !y.basex && decide (1 ≤ y.speed) && decide (y.speed ≤ 3)
  else y.basex && y.speed == 3 && !y.half

/-- The link comes up when the port is enabled, validly configured and the peer matches; its rate is the code of R44. An SGMII PHY that
reports half duplex keeps it down with LINK_FAULT (R39). -/
def State.tryUp (s : State) (p : Nat) : State :=
  let x := sget s.ports {} p
  let v := s.reg .PORT_STATUS p 0
  let s := s.setReg .PORT_STATUS p 0 (putBits v 2 1 (b2n (s.portExists p && !s.fecOk p)))
  if s.linkUp p || !s.portExists p || !s.flag F.PORT_CFG.ENABLE p || !s.fecOk p || x.down || s.pwr.gated.contains (portPl p) then s else
  match x.peer with
  | none => s
  | some y =>
    if !s.peerMatches p y then s
    else if y.half then s.setReg .PORT_STATUS p 0 (s.reg .PORT_STATUS p 0 ||| 2)
    else
      let s := s.setReg .PORT_STATUS p 0 (1 + 32 * y.speed + (s.reg .PORT_STATUS p 0 &&& 16))
      (s.txEnds p).irqSignal (128 + p) true

/-- LINK_UP: a peer is present. -/
def execLinkUp (dt : Nat) (p : Fin 40) (speed : Nat) (mode : PeerMode) (s : State) : Out :=
  let s := s.advance dt
  finish (({ s with ports := sset s.ports p { sget s.ports {} p with peer := some { mode with speed := speed } } } : State).tryUp p)

/-- The link of a port goes down; a frame in parse whose engine waits for its bytes ends now (R50, R51, R849). -/
def State.linkLost (s : State) (p : Nat) : State := (s.receiving p).foldl (fun s f => s.endWaiting f) (s.portDown p)

/-- LINK_DOWN (R50, R51). -/
def execLinkDown (dt : Nat) (p : Fin 40) (s : State) : Out :=
  let s := s.advance dt
  let x := sget s.ports {} p
  finish (({ s with ports := sset s.ports p { x with peer := none } } : State).linkLost p)

/-- The frames in progress that a change of speed aborts (R38). -/
def State.speedAborts (s : State) (p : Nat) (abortTx : Bool) (abortRx : Option Nat) : State :=
  let s := if abortTx then s.loseTx p else s
  match abortRx with
  | none => s
  | some f => match sfind s.frames f with
      | some y => if y.port = p then (s.macAbort f .speedOrMode).endWaiting f else s
      | none => s

/-- SGMII_SPEED_CHANGE (R37 to R39): the frames in progress finish or are aborted. -/
def execSgmiiSpeedChange (dt : Nat) (p : Fin 40) (speed : Nat) (half : Bool) (abortTx : Bool) (abortRx : Option Nat)
    (s : State) : Out :=
  let s := s.advance dt
  if !s.sgmii p || speed < 1 || speed > 3 then finish s else
  let x := sget s.ports {} p
  let s := { s with ports := sset s.ports p { x with peer := x.peer.map fun (y : LinkPeer) => { y with speed := speed, half := half } } }
  if !s.linkUp p then finish (s.tryUp p) else
  let s := s.speedAborts p abortTx abortRx
  if half then
    let s := s.linkLost p
    finish (s.setReg .PORT_STATUS p 0 (s.reg .PORT_STATUS p 0 ||| 2))
  else finish (s.setFld F.PORT_STATUS.RATE p speed)

/-! ## Flow control -/

/-- PFC_RECEIVED (R55, R56): a frame of 64 B. -/
def execPfcReceived (dt : Nat) (p : Fin 40) (enable : BitVec 8) (quanta : List (BitVec 16)) (s : State) : Out :=
  let s := s.advance dt
  if !s.rxAlive p then finish s else
  finish (((s.bump .RX_FRAMES p).add .RX_OCTETS p 64).pfcFrame p enable.toNat (quanta.map (·.toNat)))

/-- PFC_PAUSE_EXPIRY (R55). -/
def execPfcPauseExpiry (dt : Nat) (p : Fin 32) (n : Fin 8) (s : State) : Out :=
  let s := s.advance dt
  match sfind s.pfcPause (p * 8 + n) with
  | some t => if s.now ≥ t then finish { s with pfcPause := sdel s.pfcPause (p * 8 + n) } else finish s
  | none => finish s

/-! ## Low-power idle (R60 to R62) -/

/-- A gate control list is active on a port. -/
def State.gatesActive (s : State) (p : Nat) : Bool := s.gates.any fun e => e.1 / 16 == p && e.1 < 640 && e.2.cyc.cfg.enable

/-- The conditions of R60 but for the idle time. -/
def State.lpiOk (s : State) (p : Nat) : Bool :=
  s.linkUp p && (decide (p ≥ 32) || s.fld F.PORT_QUAD_CFG.MODE (p / 4) == 1) && s.flag F.PORT_CFG.EEE_EN p &&
  s.budgetHeld 0 50 && !s.gatesActive p && !s.flag F.TIME_PORT.ROLE p

/-- LPI_ENTRY (R60). -/
def execLpiEntry (dt : Nat) (p : Fin 40) (s : State) : Out :=
  let s := s.advance dt
  let x := sget s.ports {} p
  if !s.lpiOk p || s.flag F.PORT_STATUS.LPI_TX p || (sfind s.tx p).isSome || s.now < x.txIdle + 8000 then finish s
  else
    let s := (s.setFld F.PORT_STATUS.LPI_TX p 1).bump .LPI_TX_EVENTS p
    finish ({ s with ports := sset s.ports p { x with lpiAt := s.now } } : State).settlePower

/-- PEER_LPI_SIGNAL (R62). -/
def execPeerLpiSignal (dt : Nat) (p : Fin 40) (on : Bool) (s : State) : Out :=
  let s := s.advance dt
  if s.flag F.PORT_CFG.EEE_EN p || !on then finish (s.setFld F.PORT_STATUS.LPI_RX p (b2n on))
  else finish (s.bump .RX_SYMBOL_ERR p)

end Sys2Proof.Machine
end

