-- ==== Sys2Proof/Machine/Gates.lean ====
section
/-! DEFINITION. Gate control lists of egress classes and of stream gates (R248, R249, R373 to R389). -/
namespace Sys2Proof.Machine

/-- Where a gate is kept: egress gates at 16p + c, stream gates from 1024 on. -/
def gateKey : GateId → Nat
  | .egress p c => p * 16 + c
  | .stream g => 1024 + g

/-- A gate's control register with its number there. -/
def gateReg (k : Nat) : Reg × Nat := if k < 1024 then (.GCL_CTL, k) else (.QCI_GATE_CTL, k - 1024)

/-- The settings in five words of a control register (Table 9-6, Table 6-10); a BASE_LO past a second acts as its last ns. -/
def gateCfgOf (stream : Bool) (w : Nat → Nat) : GateCfg :=
  let v := w 0
  let grid := bit v 1
  { enable := bit v 0
    grid := grid
    list := bits v 2 1
    guard := !stream && bit v 3
    preOpen := if stream then bit v 3 else bit v 4
    preIpv := if stream then bits v 10 4 else 0
    preIpvV := stream && bit v 14
    lenM1 := if stream then bits v 4 6 else bits v 5 10
    baseLo := if grid then w 1 else min 999999999 (w 1)
    baseSec := w 2 + 4294967296 * (w 3 % 65536)
    cycleNs := w 4 }

/-- A gate's committed settings. -/
def State.gateCfg (s : State) (k : Nat) : GateCfg := gateCfgOf (decide (k ≥ 1024)) fun i => s.reg (gateReg k).1 (gateReg k).2 i

/-- Word w of entry i of a gate's list. -/
def State.gateEntry (s : State) (k list i w : Nat) : Nat :=
  if k < 1024 then s.reg .GCL_ENTRY (k * 2048 + list * 1024 + i) w
  else s.reg .QCI_GATE_ENTRY ((k - 1024) * 128 + list * 64 + i) w

/-- S_i of a list: the sums of its intervals. -/
def State.gateSums (s : State) (k : Nat) (c : GateCfg) : List Nat :=
  ((List.range (c.lenM1 + 1)).foldl (fun (x : Nat × List Nat) i =>
    let t := x.1 + s.gateEntry k c.list i 1
    (t, x.2 ++ [t])) (0, [])).2

/-- T_c of a PTP list (R373, R377). -/
def State.ptpTc (s : State) (k : Nat) (c : GateCfg) : Nat :=
  if c.cycleNs ≠ 0 then c.cycleNs else min 4294967295 ((s.gateSums k c).getLast?.getD 0)

/-- BASE_TIME in ns. -/
def GateCfg.base (c : GateCfg) : Nat := c.baseSec * 1000000000 + c.baseLo

/-- Index of the entry in force at an offset of the cycle: the last one runs to its end (R377). -/
def entryAt (ends : List Nat) (off : Nat) : Nat := ((ends.dropLast).findIdx? (fun e => off < e)).getD (ends.length - 1)

/-- The cycle a list is in at an instant, given on PTP and FRC: offset, length and ends; none where it holds PRE_OPEN
(R377, R378, R380). -/
def State.cycAt (s : State) (k : Nat) (c : Cyc) (ptp frc : Nat) : Option (Nat × Nat × List Nat) :=
  if !s.ready 3 then none
  else if c.cfg.grid then (if c.began && frc ≥ c.start then some (frc - c.start, c.tc, c.ends) else none)
  else
    let tc := s.ptpTc k c.cfg
    if tc = 0 || ptp < c.cfg.base then none
    else some ((ptp - c.cfg.base) % tc, tc, (s.gateSums k c.cfg).map (min tc))

/-- The list in force at an FRC instant. -/
def Gate.at (g : Gate) (frc : Nat) : Cyc := if frc ≥ g.cyc.since then g.cyc else g.prev

/-- A gate at an instant: whether it is open, and the IPV it gives (R249, R250). -/
def State.gateAt (s : State) (k ptp frc : Nat) : Bool × Option Nat :=
  let c := (sget s.gates {} k).at frc
  if (sget s.gates {} k).wild then (Config.wildGate k frc, none) else
  if !c.cfg.enable then (true, none) else
  match s.cycAt k c ptp frc with
  | none => (c.cfg.preOpen, if c.cfg.preIpvV then some c.cfg.preIpv else none)
  | some (off, _, ends) =>
    let w := s.gateEntry k c.cfg.list (entryAt ends off) 0
    (bit w 0, if k ≥ 1024 && bit w 5 then some (bits w 1 4) else none)

/-- An egress gate is open now. -/
def State.gateOpen (s : State) (p c : Nat) : Bool := p ≥ 40 || (s.gateAt (p * 16 + c) s.ptp s.frc).1

/-- Nanoseconds from the start of entry i until a closed entry begins, through at most one more cycle; an entry of no length is never in
force. -/
def State.closeFrom (s : State) (k list : Nat) (ends : List Nat) (tc i n off : Nat) : Nat → Option Nat
  | 0 => none
  | fuel + 1 =>
    let stop := if i + 1 = n then tc else ends.getD i tc
    let len := stop - (if i = 0 then 0 else ends.getD (i - 1) 0)
    if len ≠ 0 && !bit (s.gateEntry k list i 0) 0 then some off
    else if i + 1 = n || stop ≥ tc then State.closeFrom s k list ends tc 0 n (off + len) fuel
    else State.closeFrom s k list ends tc (i + 1) n (off + len) fuel

/-- The closing instant of a list from the start of one of its cycles on. -/
def State.closeList (s : State) (k : Nat) (c : GateCfg) (tc : Nat) (ends : List Nat) (i : Nat) : Option Nat :=
  s.closeFrom k c.list ends tc i ends.length 0 (2 * ends.length + 1)

/-- The closing instant of settings that start a PTP cycle in d ns. -/
def State.closeNew (s : State) (k : Nat) (c : GateCfg) (d : Nat) : Option Nat :=
  if !c.enable then none else
  let tc := s.ptpTc k c
  (s.closeList k c tc ((s.gateSums k c).map (min tc)) 0).map (· + d)

/-- Nanoseconds until the next closing instant of an open egress gate (R382); none: it does not close. The settings in force close it by
their list, before BASE_TIME by its first cycle; pending PTP settings cut them at their takeover. When a grid list is still to start its
first cycle no lengths are computed and it gives no instant. -/
def State.nextClose (s : State) (k : Nat) : Option Nat :=
  let g := sget s.gates {} k
  if g.wild then Config.wildClose k s.frc else
  let own : Option Nat :=
    if !g.cyc.cfg.enable then none else
    match s.cycAt k g.cyc s.ptp s.frc with
    | none => if g.cyc.cfg.grid || !s.ready 3 || s.ptp ≥ g.cyc.cfg.base then none else s.closeNew k g.cyc.cfg (g.cyc.cfg.base - s.ptp)
    | some (off, tc, ends) =>
      let i := entryAt ends off
      let begin_ := if i = 0 then 0 else ends.getD (i - 1) 0
      (s.closeList k g.cyc.cfg tc ends i).map fun t => t - (off - begin_)
  match g.pend with
  | some c =>
    if c.grid || g.pendAt < s.ptp then own else
    let d := g.pendAt - s.ptp
    if own.any fun t => decide (t ≤ d) then own else s.closeNew k c d
  | none => own

/-! ## The status registers (R376, Table 6-10) -/

/-- GRID of a list's status as the timebase stands. -/
def State.gridCode (s : State) (c : GateCfg) : Nat := if c.grid then s.reg .TIME_GRID_NOW 0 3 % 4 else 3

/-- A gate's status word as the gate stands now. -/
def State.gateWord (s : State) (k : Nat) : Nat :=
  let g := sget s.gates {} k
  let i := match s.cycAt k g.cyc s.ptp s.frc with | some (off, _, ends) => entryAt ends off | none => 0
  b2n (s.gateAt k s.ptp s.frc).1 + 2 * b2n g.pend.isSome + 4 * g.cyc.cfg.list + 8 * i + (if k < 1024 then 8192 else 512) * g.gridSt

/-- A gate's status register takes its state now. -/
def State.gateStat (s : State) (k : Nat) : State :=
  if k < 1024 then s.setReg .GCL_STAT k 0 (s.gateWord k) else s.setReg .QCI_GATE_STAT (k - 1024) 0 (s.gateWord k)

/-- Change a gate. -/
def State.setGate (s : State) (k : Nat) (g : Gate) : State := ({ s with gates := sput s.gates {} k g } : State).gateStat k

/-- The timebase leaves LOCKED, or falls back: running grid lists show it (Table 9-7); a return to LOCKED shows at the next cycle
start. -/
def State.gatesGrid (s : State) (v : Nat) : State :=
  let s : State := { s with gates := s.gates.map fun (e : Nat × Gate) => if e.2.cyc.cfg.grid then (e.1, { e.2 with gridSt := v }) else e }
  (s.gates.map (·.1)).foldl State.gateStat s

/-! ## Cycle starts and changes of list (R378, R381, R384 to R388) -/

/-- The next grid point at which the angle is a. -/
def State.gridNext (s : State) (a : Nat) : Nat :=
  let now := s.gridNow
  let p := now / 4294967296 * 4294967296 + a
  if p ≥ now then p else p + 4294967296

/-- Settings take force: the list in force becomes the previous one. -/
def State.takeOver (s : State) (k : Nat) (c : GateCfg) : State :=
  let g := sget s.gates {} k
  s.setGate k {
    cyc := { cfg := c, since := s.frc }
    prev := g.cyc
    gridSt := s.gridCode c
    first := if c.grid then s.gridNext c.baseLo else 0 }

/-- Nominal frequency and the estimate in units of 2^-20 Hz, limited to 45 Hz to 65 Hz. -/
def State.nominal (s : State) : Nat := if s.flag F.TIME_GRID_CFG.NOM_60 0 then 62914560 else 52428800
def gridLimit (f : Nat) : Nat := max 47185920 (min 68157440 f)

/-- A rounded division. -/
def rdiv (a b : Nat) : Nat := (2 * a + b) / (2 * b)

/-- A grid list starts a cycle at FRC instant st (R384 to R388); the cycle before it stays for frames whose ingress timestamp lies
in it (R247). -/
def State.gridCycle (s : State) (k st : Nat) : State :=
  let g := sget s.gates {} k
  let c := g.cyc.cfg
  let fall := s.reg .TIME_GRID_NOW 0 3 % 4 == 2
  let f := if fall then s.nominal else gridLimit s.clock.gridFreq
  let turned := s.clock.gridFreq * 4096 * (s.frc - st) / 1000000000
  let e : Int := if fall then 0 else sgn ((s.gridNow + 8589934592 - c.baseLo - turned % 4294967296) % 4294967296) 32
  let tc := rdiv (1000000000 * (4294967296 - e).toNat * 1048576) (4294967296 * f)
  let ends := (s.gateSums k c).map fun x => min x 4294967296 * tc / 4294967296
  let s := if k < 1024 && e.natAbs > 268435456 then s.bump .GCL_REALIGN k else s
  s.setGate k { g with
    prev := g.cyc
    gridSt := s.gridCode c
    cyc := { g.cyc with since := st, began := true, start := st, tc := tc, ends := ends } }

/-- Pending settings take over once their first cycle start is reached. -/
def State.pendDue (s : State) (k : Nat) : State :=
  let g := sget s.gates {} k
  match g.pend with
  | some c => if (if c.grid then s.gridNow else s.ptp) ≥ g.pendAt then
      let t := s.takeOver k c
      t.setGate k { sget t.gates {} k with first := g.pendAt }
    else s
  | none => s

/-- A step of PTP time (R379, log 69): a PTP list is in the entry of the new time, and PTP settings whose takeover lies at or before it take over. -/
def State.gatesStep (s : State) : State :=
  (s.gates.map (·.1)).foldl (fun s k =>
    (if (sget s.gates {} k).pend.any fun c => !c.grid then s.pendDue k else s).gateStat k) s

/-- TIME has posted READY (R380): a grid list that has not begun starts at the next instant its angle is reached, and no earlier one. -/
def State.gatesReady (s : State) : State :=
  (s.gates.map (·.1)).foldl (fun s k =>
    let g := sget s.gates {} k
    s.setGate k { g with first := if g.cyc.cfg.grid then s.gridNext g.cyc.cfg.baseLo else g.first }) s

/-- A gate's list starts a cycle: pending settings take over, a grid list fixes its lengths. -/
def State.cycleStart (s : State) (k : Nat) : State :=
  if !s.ready 3 then s else
  let s := s.pendDue k
  let g := sget s.gates {} k
  if !g.cyc.cfg.enable || !g.cyc.cfg.grid then s.gateStat k
  else if !g.cyc.began then (if s.gridNow ≥ g.first then s.gridCycle k s.frc else s.gateStat k)
  else if s.frc ≥ g.cyc.start + g.cyc.tc then s.gridCycle k (g.cyc.start + g.cyc.tc)
  else s.gateStat k

/-- GCL_CYCLE_START. -/
def execGclCycleStart (dt : Nat) (g : GateId) (s : State) : Out := finish ((s.advance dt).cycleStart (gateKey g))

/-- GATE_TRANSITION (R377, R380): the entry now in force shows in the status register. -/
def execGateTransition (dt : Nat) (g : GateId) (s : State) : Out := finish ((s.advance dt).gateStat (gateKey g))

/-- A commit has changed a gate's settings (R381): with no list running they apply at once, otherwise they are pending until
their first cycle start; a PTP list without a cycle takes over at once. -/
def State.gateChanged (s : State) (k : Nat) : State :=
  let g := sget s.gates {} k
  let c := s.gateCfg k
  if !g.cyc.cfg.enable || !s.ready 3 then s.takeOver k c
  else if c.grid then s.setGate k { g with pend := some c, pendAt := s.gridNext c.baseLo }
  else
    let tc := s.ptpTc k c
    if tc = 0 then s.takeOver k c
    else
      let at_ := if s.ptp ≤ c.base then c.base else c.base + cdiv (s.ptp - c.base) tc * tc
      if at_ ≤ s.ptp then s.takeOver k c else s.setGate k { g with pend := some c, pendAt := at_ }

/-- A list of a gate is running or pending (R375). -/
def State.listBusy (s : State) (k list : Nat) : Bool :=
  let g := sget s.gates {} k
  (g.cyc.cfg.enable && g.cyc.cfg.list == list) || (g.pend.map fun c => c.enable && c.list == list).getD false

end Sys2Proof.Machine
end

