-- ==== Sys2Proof/Machine/Mailbox.lean ====
section
/-! DEFINITION. Mailbox channels (R680 to R689), the checks of a request in their order (R691), completions, transactions (R692 to
R696), and the rows that act on channels alone. -/
namespace Sys2Proof.Machine

/-- What a command answers: it completes with a status, RESULT and output, or it waits. -/
inductive Reply where
  | done (st : Nat) (s : State) (result : Nat) (out : Bytes)
  | wait (s : State) (w : Wait)

/-- A row of Table 16-7: opcode, least role (none: not protected), a read, an expert opcode. -/
structure Cmd where
  op     : Nat
  role   : Option Nat
  read   : Bool := false
  expert : Bool := false
  fn     : Option Nat := none   -- READY bit of the target function
  reset  : Bool := false        -- a reset request, which SAFE accepts (Table 15-10)

/-! Status codes (Table 16-6). -/
def Status.done : Nat := 0
def Status.badOpcode : Nat := 1
def Status.badParam : Nat := 2
def Status.badPointer : Nat := 3
def Status.notReady : Nat := 4
def Status.expertDenied : Nat := 5
def Status.txnBusy : Nat := 0x10
def Status.txnUnknown : Nat := 0x11
def Status.txnLapsed : Nat := 0x12
def Status.secNoSession : Nat := 0xA04
def Status.secRole : Nat := 0xA05
def Status.secAuthFail : Nat := 0xA06
def Status.secReplay : Nat := 0xA07
def Status.secState : Nat := 0xA09

/-- A command completes with a status and changes nothing. -/
def fail (st : Nat) (s : State) : Reply := .done st s 0 []
/-- A command completes with DONE. -/
def good (s : State) : Reply := .done 0 s 0 []

/-! ## Channel registers -/

def State.mbxEn (s : State) (ch : Nat) : Bool := s.flag F.MBX_RING.EN ch
def ringLog (v : Nat) : Nat := if 4 ≤ v && v ≤ 12 then v else 4
def State.reqLog (s : State) (ch : Nat) : Nat := ringLog (s.fld F.MBX_RING.REQ_LOG2 ch)
def State.cplLog (s : State) (ch : Nat) : Nat := ringLog (s.fld F.MBX_RING.CPL_LOG2 ch)
def State.reqCi (s : State) (ch : Nat) : Nat := s.fld F.MBX_RING.REQ_CI ch
def State.cplPi (s : State) (ch : Nat) : Nat := s.fld F.MBX_RING.CPL_PI ch
def State.chan (s : State) (ch : Nat) : Chan := sget s.mbx {} ch
def State.setChan (s : State) (ch : Nat) (c : Chan) : State := { s with mbx := sput s.mbx {} ch c }

/-- ERROR with a cause stops the channel (R681, R682). -/
def State.mbxError (s : State) (ch cause : Nat) : State := (s.stopChan ch).setReg .MBX_RING ch 6 (1 + 2 * cause)

/-- A request of a channel can begin: enabled, no error, announced, MGMT ready, no command of the channel in execution, and a free
completion slot (R679, R684, R685). -/
def State.canBegin (s : State) (ch : Nat) : Bool :=
  s.mbxEn ch && !bit (s.reg .MBX_RING ch 6) 0 && s.ready 0 && (s.chan ch).busy.isNone &&
  (s.chan ch).pi != s.reqCi ch &&
  decide (serial (s.chan ch).cplCi (s.cplPi ch) 16 < 2 ^ s.cplLog ch)

/-! ## Tags (R655, R656) -/

/-- The descriptor with its TAG zeroed (Table 16-4). -/
def Req.bytes (r : Req) (op : Nat) : Bytes :=
  wordsBytes [w32 (op + 65536 * b2n r.prot), r.cookie, w32 r.inPtr, w32 (r.inPtr / 4294967296), w32 r.inLen, w32 r.outPtr,
    w32 (r.outPtr / 4294967296), w32 r.outLen, w32 (r.sid + 65536 * r.txn), w32 r.counter, w32 (r.counter / 4294967296),
    0, 0, 0, 0, r.arg]

/-- Word i of the payload as a number. -/
def Req.w (r : Req) (i : Nat) : Nat := wAt r.payload i

/-- The tag of a command, and of its completion. -/
def cmdTag (k : Bytes) (r : Req) (op : Nat) : Bytes :=
  Config.kmac256 k (toLE r.sid 2 ++ toLE r.counter 8 ++ r.bytes op ++ wordsBytes r.payload) 16 0
def cplTag (k : Bytes) (r : Req) (st result : Nat) (out : Bytes) : Bytes :=
  Config.kmac256 k (toLE r.sid 2 ++ toLE r.counter 8 ++
    wordsBytes [w32 st, r.cookie, w32 out.length, w32 result, 0, 0, 0, 0] ++ out) 16 1

/-! ## Completion (R688, R689) -/

/-- Write the completion of a request. -/
def State.complete (s : State) (r : Req) (key : Option Bytes) (st result : Nat) (out : Bytes) : State :=
  let c := s.chan r.ch
  if r.pcie = .completion then s.mbxError r.ch 3 else
  let i := s.cplPi r.ch
  let out := out.take r.outLen
  let cpl : Cpl := {
    index := i
    phase := (i >>> s.cplLog r.ch) % 2 == 0
    status := st
    cookie := r.cookie
    result := result % 4294967296
    out := out
    tag := match key with | some k => cplTag k r st result out | none => [] }
  let s := s.setChan r.ch { c with busy := none }
  let s := { s with cpls := s.cpls ++ [(r.ch, cpl)] }
  (s.setFld F.MBX_RING.CPL_PI r.ch ((i + 1) % 65536)).pulse (32 + r.ch)

/-! ## The checks of R691 -/

/-- A protected command needs a session here: outside BLANK (R653, Table 15-9). -/
def State.needsSession (s : State) (c : Cmd) : Bool := c.role.isSome && s.sec.lifecycle != 0

/-- The session of a channel. -/
def State.session (s : State) (ch : Nat) : Option Session := sfind s.sec.sessions ch

/-- Role of a session's operator. -/
def State.roleOf (s : State) (x : Session) : Nat := ((sfind s.sec.operators x.op).map (·.role)).getD 0

/-- Level (R697): expert opcodes need EXPERT_EN and, outside BLANK, an ADMIN session. -/
def State.levelOk (s : State) (c : Cmd) (r : Req) : Bool :=
  !c.expert || (bit s.sec.policy 16 &&
    (!s.needsSession c || (match s.session r.ch with | some x => x.sid == r.sid && s.roleOf x == 2 | none => false)))

/-- Session, role, tag and counter (R653, R655): the first failing status, with whether the tag was verified. -/
def State.sessionCheck (s : State) (c : Cmd) (r : Req) : Option (Nat × Bool) :=
  if !s.needsSession c then none else
  match s.session r.ch with
  | none => some (Status.secNoSession, false)
  | some x =>
    if s.sec.lifecycle = 3 || !r.prot || x.sid ≠ r.sid then some (Status.secNoSession, false)
    else if s.roleOf x < c.role.getD 0 then some (Status.secRole, false)
    else if r.tag ≠ cmdTag x.key r c.op then some (Status.secAuthFail, false)
    else if r.counter ≤ x.counter then some (Status.secReplay, true)
    else none

/-- The command is accepted in its session. -/
def State.acceptCmd (s : State) (c : Cmd) (r : Req) : State :=
  if !s.needsSession c then s else
  match s.session r.ch with
  | none => s
  | some x => { s with sec := { s.sec with sessions := sset s.sec.sessions r.ch { x with counter := r.counter, last := s.now } } }

/-- Pointers (R687). -/
def ptrBad (r : Req) : Bool :=
  (r.inLen != 0 && decide (r.inPtr % 4096 + r.inLen > 4096)) || (r.outLen != 0 && decide (r.outPtr % 4096 + r.outLen > 4096)) ||
  decide (r.pcie = .payload)

/-- Transaction (R692, R694): a status when it fails, and the state with the transaction's last command noted. -/
def State.txnCheck (s : State) (r : Req) : Option Nat × State :=
  if r.txn = 0 then (none, s) else
  match s.txn with
  | some t =>
    if t.id = r.txn && t.ch = r.ch && !t.own && (t.sid = r.sid || s.sec.lifecycle = 0) then (none, { s with txn := some { t with last := s.now } })
    else if s.lapsed.contains (r.txn, r.ch) then (some Status.txnLapsed, { s with lapsed := s.lapsed.erase (r.txn, r.ch) })
    else (some Status.txnUnknown, s)
  | none =>
    if s.lapsed.contains (r.txn, r.ch) then (some Status.txnLapsed, { s with lapsed := s.lapsed.erase (r.txn, r.ch) })
    else (some Status.txnUnknown, s)

/-- HOLD refuses protected writes, SAFE accepts protected reads and reset requests only (Table 15-10). -/
def State.powerCheck (s : State) (c : Cmd) : Option Nat :=
  if c.role.isSome && !c.read && (s.power = 3 || (s.power = 4 && !c.reset)) then some Status.secState else none

/-- The key that tags a completion. -/
def State.cplKey (s : State) (c : Cmd) (r : Req) : Option Bytes :=
  if s.needsSession c then (s.session r.ch).map (·.key) else none

/-- One command of a mailbox channel: begun, checked, executed and completed (R683, R684, R691), with what follows its completion. A
request that cannot begin yet changes nothing. -/
def runCmdThen (c : Cmd) (dt : Nat) (r : Req) (s : State) (body : State → Reply) (after : Nat → State → State) : Out :=
  let s := s.advance dt
  if !s.canBegin r.ch then finish s else
  let s := s.setFld F.MBX_RING.REQ_CI r.ch ((s.reqCi r.ch + 1) % 65536)
  if r.pcie = .fetch then finish (s.mbxError r.ch 2) else
  if r.opcode.isSome then finish (s.complete r none Status.badOpcode 0 []) else
  if !s.levelOk c r then finish (s.complete r none Status.expertDenied 0 []) else
  match s.sessionCheck c r with
  | some (st, v) => finish (s.complete r (if v then s.cplKey c r else none) st 0 [])
  | none =>
    let key := s.cplKey c r
    let s := s.acceptCmd c r
    if ptrBad r then finish (s.complete r key Status.badPointer 0 []) else
    match s.txnCheck r with
    | (some st, s) => finish (s.complete r key st 0 [])
    | (none, s) =>
      match s.powerCheck c with
      | some st => finish (s.complete r key st 0 [])
      | none =>
        if r.rsvd then finish (s.complete r key Status.badParam 0 []) else
        if !((c.fn.map s.ready).getD true) then finish (s.complete r key Status.notReady 0 []) else
        match body s with
        | .done st s result out => finish (after st (s.complete r key st result out))
        | .wait s w => finish (s.setChan r.ch { s.chan r.ch with busy := some (r, w) })

/-- A command that nothing follows. -/
def runCmd (c : Cmd) (dt : Nat) (r : Req) (s : State) (body : State → Reply) : Out := runCmdThen c dt r s body fun _ s => s

/-- A waiting command of a channel completes. -/
def State.completeWait (s : State) (ch st result : Nat) (out : Bytes) : State :=
  match (s.chan ch).busy with
  | none => s
  | some (r, _) => s.complete r (if r.prot && s.sec.lifecycle ≠ 0 then (s.session ch).map (·.key) else none) st result out

/-! ## Transactions -/

/-- A command that stages (R693, R695): within its transaction, or as a transaction of its own that commits before it completes;
one that stages nothing completes at once. A command that fails changes nothing. -/
def staging (r : Req) (s : State) (stages : Bool) (body : State → Reply) : Reply :=
  if r.txn ≠ 0 || !stages then
    match body s with
    | .done st t result out => if st = 0 then .done 0 t result out else .done st s result out
    | x => x
  else if s.txn.isSome then fail Status.txnBusy s
  else
    match body { s with txn := some { id := 0, ch := r.ch, sid := r.sid, last := s.now, commit := true, own := true } } with
    | .done st t result out => if st = 0 then .wait t (.commitDone result out) else .done st s result out
    | x => x

/-- The leader named by FAB_STATE is this member (R610). -/
def State.isLeader (s : State) : Bool := s.fld F.FAB_STATE.LEADER 0 == s.member

/-- What the open transaction has staged of registers and two-version tables: a word by its key. -/
def State.stagedConfig (s : State) : Sparse Word :=
  s.ver.foldl (fun m e =>
    match e.2.getLast? with
    | some v => if v.settled || v.from_ != (s.cur + 1) % 65536 then m else
      (List.range v.words.length).foldl (fun m k =>
        sset m ((1024 + e.1 / 4294967296) * 4294967296 + e.1 % 4294967296 * 32 + k) (v.words.getD k 0)) m
    | none => m) s.cmt

/-- A configuration as the words of a CONFIG message: key, low and high, and value (DESIGN CHOICE, log 145: the spec gives no layout). -/
def cfgWords (m : Sparse Word) : List Word := m.flatMap fun e => [w32 e.1, w32 (e.1 / 4294967296), e.2]

/-- The configuration of a CONFIG message. -/
def cfgOf (l : List Word) : Sparse Word :=
  (List.range (l.length / 3)).foldl (fun m i => sset m (wAt l (3 * i) + 4294967296 * wAt l (3 * i + 1)) (l.getD (3 * i + 2) 0)) []

/-- A configuration with the words of another written over it. -/
def cfgMerge (a b : Sparse Word) : Sparse Word := b.foldl (fun m e => sset m e.1 e.2) a

/-- The commit of a batch-wide transaction begins at the leader (Table 14-7, steps 1 and 2). -/
def State.batchLead (s : State) (ch : Nat) : Except Nat State :=
  if s.fld F.FAB_STATE.STATE 0 = 3 then .error 0x902
  else if !s.isLeader then .error 0x901
  else if s.reachable.length < max 1 (s.fld F.FAB_CTL.QUORUM 0) then .error 0x903
  else
    let l := cfgWords (cfgMerge s.batch.config s.stagedConfig)
    let d := cfgDigest l
    .ok (State.sendAll { s with batch := { s.batch with
      leading := some s.now
      waits := some ch
      epoch := (s.epoch + 1) % 18446744073709551616
      digest := d
      own := some d
      reports := [] } } (.config ((s.epoch + 1) % 18446744073709551616) l (some (s.member, d))))

/-- Open a transaction (R692): the identifier named in ARG, or the previous one plus one. -/
def State.openTxn (s : State) (r : Req) (batch : Bool) : Reply :=
  if s.txn.isSome || s.batch.staged.isSome then fail Status.txnBusy s else
  let id := if r.arg.toNat / 65536 ≠ 0 then r.arg.toNat / 65536 else s.lastTxn % 65535 + 1
  .done 0 { s with txn := some { id := id, ch := r.ch, sid := r.sid, batch := batch, last := s.now }, lastTxn := id,
                   lapsed := s.lapsed.erase (id, r.ch) } id []

def execMbxNop (dt : Nat) (r : Req) (s : State) : Out :=
  runCmd { op := 0, role := none } dt r s fun s => .done 0 s (s.reg .HOST_READY 0 0) []

/-- TXN_BEGIN (R692). -/
def execTxnBegin (dt : Nat) (r : Req) (s : State) : Out :=
  runCmd { op := 0x10, role := some 1 } dt r s fun s => s.openTxn r false

/-- TXN_BEGIN with ARG bit 0 (R696, R610): only at the leader, and not while HELD. -/
def execBatchTxnBegin (dt : Nat) (r : Req) (s : State) : Out :=
  runCmd { op := 0x10, role := some 1 } dt r s fun s =>
    if s.fld F.FAB_STATE.STATE 0 = 3 then fail 0x902 s
    else if !s.isLeader then fail 0x901 s
    else s.openTxn r true

/-- COMMIT (R694, R696): the commit is requested; it completes after it has taken effect. -/
def execTxnCommit (dt : Nat) (r : Req) (s : State) : Out :=
  runCmd { op := 0x11, role := some 1 } dt r s fun s =>
    match s.txn with
    | none => fail Status.txnUnknown s
    | some t =>
      if r.txn = 0 then fail Status.txnUnknown s
      else
        let u := { s with txn := some { t with commit := true } }
        if !t.batch then .wait u (.commit false) else
        match u.batchLead r.ch with
        | .error st => fail st s
        | .ok v => .wait v (.commit true)

/-- TXN_ABORT (R694). -/
def execTxnAbort (dt : Nat) (r : Req) (s : State) : Out :=
  runCmd { op := 0x12, role := some 1 } dt r s fun s =>
    if r.txn = 0 then fail Status.txnUnknown s else good s.abortTxn

/-- TXN_LAPSE (R694): no command for 10 s. -/
def execTxnLapse (dt : Nat) (s : State) : Out :=
  let s := s.advance dt
  match s.txn with
  | none => finish s
  | some t =>
    if t.own || t.commit || s.now < t.last + 10000000000 then finish s
    else finish { s.abortTxn with lapsed := s.lapsed ++ [(t.id, t.ch)] }

/-! ## Doorbells -/

/-- MBX_REQ_DB (R680, R682). -/
def execMbxReqDb (dt : Nat) (ch : Fin 16) (pi : BitVec 16) (s : State) : Out :=
  let s := s.advance dt
  if !s.mbxEn ch then finish s
  else if serial (s.reqCi ch) pi.toNat 16 > 2 ^ s.reqLog ch then finish (s.mbxError ch 1)
  else finish (s.setChan ch { s.chan ch with pi := pi.toNat })

/-- MBX_CPL_DB (R680, R682). -/
def execMbxCplDb (dt : Nat) (ch : Fin 16) (ci : BitVec 16) (s : State) : Out :=
  let s := s.advance dt
  if !s.mbxEn ch then finish s
  else if serial (s.chan ch).cplCi ci.toNat 16 > serial (s.chan ch).cplCi (s.cplPi ch) 16 then finish (s.mbxError ch 1)
  else finish (s.setChan ch { s.chan ch with cplCi := ci.toNat })

/-- Clearing EN (R681). -/
def execMbxChannelDisable (dt : Nat) (ch : Fin 16) (s : State) : Out :=
  let s := s.advance dt
  if s.mbxEn ch then finish (s.stopChan ch) else finish s

/-- The host-interface reset (R676). -/
def execHostIfReset (dt : Nat) (s : State) : Out := finish (s.advance dt).hostReset

end Sys2Proof.Machine
end

