-- ==== Sys2Proof/Machine/Tables.lean ====
section
/-! DEFINITION. The exact-match and LPM stores: descriptors, lookups, host writes, rehash, flushes, learning, ageing and the
maintenance sweep (chapter 05). -/
namespace Sys2Proof.Machine

/-! ## Logical tables and entries (R156 to R165) -/

/-- The generation after CUR. -/
def State.curNext (s : State) : Nat := (s.cur + 1) % 65536

/-- The descriptor of table t that was active when generation g began (R158): ACTIVE, taken back over the switches after g. -/
def State.descAt (s : State) (t g : Nat) : Nat :=
  if g = s.curNext then bits (s.next .EXM_LTBL_CTL t 0) 3 1 else
  (sget s.exmSw [] t).foldl (fun a x => if genGe g x.1 then a else x.2) (s.fld F.EXM_LTBL_CTL.ACTIVE t)

/-- KIND of a table: 6 and 7 act as 0 (R156). -/
def tableKind (v : Nat) : Nat := let k := bits v 0 3; if k ≥ 6 then 0 else k
def State.kindOf (s : State) (t : Nat) : Nat := tableKind (s.reg .EXM_LTBL_CTL t 0)

/-- KEY_W of a descriptor, 160 at most. -/
def State.keyW (s : State) (t d : Nat) : Nat := min 160 (s.fld F.EXM_LTBL.KEY_W (t * 2 + d))

/-- The bucket of a key (R162). -/
def State.exmBucket (s : State) (t d key : Nat) : Nat :=
  let w := s.keyW t d
  let h := exmHash key w (s.reg .EXM_SEED (t * 2 + d) 0)
  s.fld F.EXM_LTBL.BASE (t * 2 + d) + (h ^^^ (h / 65536)) % 2 ^ min 18 (s.fld F.EXM_LTBL.LOG2 (t * 2 + d))

/-- Where overflow entries begin in a location (R188). -/
def ovfBase : Nat := 1048576

/-- Visible to generation g (R165). -/
def Entry.vis (e : Entry) (g : Nat) : Bool := visAt true e.settled e.retired e.from_ e.until_ g

/-- The entries a lookup of a key compares: its bucket and the overflow entries of its table and descriptor (R182). -/
def State.exmCands (s : State) (t d key : Nat) : List (Nat × Entry) :=
  let b := s.exmBucket t d key
  ((List.range 4).filterMap fun i => (sfind s.exm (b * 4 + i)).map fun e => (b * 4 + i, e)) ++
    (s.exm.filter fun e => e.1 ≥ ovfBase)

/-- The entries of a key visible to generation g. -/
def State.exmHits (s : State) (t d key g : Nat) : List (Nat × Entry) :=
  (s.exmCands t d key).filter fun e => e.2.table == t && e.2.desc == d && e.2.key == key && e.2.vis g

/-- The bank of a bucket is fenced (Table 18-3). -/
def State.bankFenced (s : State) (b : Nat) : Bool := s.flt.fenced.contains (12 + b / 65536)

/-- A location as software sees it (R188): the slot index in the region, or the overflow index. -/
def State.exmPos (s : State) (t d pos : Nat) : Nat :=
  if pos ≥ ovfBase then pos else pos - s.fld F.EXM_LTBL.BASE (t * 2 + d) * 4

/-- The slot a new entry takes (R181): a free one of its bucket, or a free overflow slot while the table may hold more. -/
def State.exmSlot (s : State) (t d key : Nat) : Option Nat :=
  let b := s.exmBucket t d key
  match (List.range 4).find? fun i => (sfind s.exm (b * 4 + i)).isNone with
  | some i => some (b * 4 + i)
  | none =>
    let ovf := s.exm.filter fun e => e.1 ≥ ovfBase
    if (ovf.filter fun e => e.2.table == t).length ≥ min 8192 (s.fld F.EXM_LTBL_CTL.OVF_MAX t) then none
    else ((List.range (min 8192 (ovf.length + 1))).map (· + ovfBase)).find? fun i => (sfind s.exm i).isNone

/-- The eight words of an entry (Table 5-2). -/
def Entry.toWords (e : Entry) : List Word :=
  toW e.key 5 ++ [w32 (e.from_ + 65536 * e.until_),
    w32 (e.table + 256 + 512 * b2n e.settled + 1024 * b2n e.retired + 2048 * b2n e.static_ + 4096 * b2n e.learned +
      8192 * b2n e.pinned + 16384 * b2n e.hit + 32768 * e.age + 131072 * e.desc + 16777216 * (e.result % 256)),
    w32 (e.result / 256)]

/-- The entry that eight words lay out (Table 5-2). -/
def Entry.ofWords (l : List Word) : Entry :=
  let f := wAt l 6
  { key := wNat l 0 5
    from_ := wAt l 5 % 65536
    until_ := wAt l 5 / 65536
    table := f % 256
    settled := bit f 9
    retired := bit f 10
    static_ := bit f 11
    learned := bit f 12
    pinned := bit f 13
    hit := bit f 14
    age := bits f 15 2
    desc := bits f 17 1
    result := f / 16777216 + 256 * wAt l 7 }

/-- A lookup of generation g in table t (R158, R182, Table 18-3): a miss on an unused table, descriptor or fenced bank; two
visible entries give a result the spec leaves undefined (R219). -/
def State.emLookup (s : State) (t key g : Nat) : Option (Nat × Entry) × State :=
  let d := s.descAt t g
  if s.kindOf t = 0 || s.keyW t d = 0 then (none, s.bump .EXM_NO_TABLE 0) else
  let key := key % 2 ^ s.keyW t d
  let b := s.exmBucket t d key
  if s.bankFenced b then (none, s.bump .EXM_BANK_FENCED (b / 65536)) else
  match s.exmHits t d key g with
  | [] => (none, s)
  | [e] => (some e, s)
  | e :: _ =>
    let (v, s) := s.fresh
    (some (e.1, { e.2 with result := v % 1099511627776 }), s)

/-! ## Batch messages about entries (R603, R607) -/

/-- A NOTICE about an entry of this member. -/
def State.notice (s : State) (learn : Bool) (e : Entry) (at_ : Nat) : State :=
  s.sendAll (.notice {
    src := s.member
    learn := learn
    table := e.table
    key := e.key
    gport := e.result % 32768
    at_ := at_
    suspect := s.flag F.FAB_STATE.TIME_SUSPECT 0 })

/-- DEST of an FDB result and the member it belongs to (Table 5-3). -/
def Entry.dest (e : Entry) : Nat := e.result % 32768
def Entry.owner (e : Entry) : Nat := e.dest / 64

/-- Remove an entry at once (R169): retired in CUR. A LEARNED entry of this member is withdrawn from the batch. -/
def State.exmRemoveNow (s : State) (pos : Nat) (e : Entry) (tell : Bool) : State :=
  let s := { s with exm := sset s.exm pos { e with retired := true, until_ := s.cur } }
  if tell && e.learned && e.owner = s.member then s.notice false e s.ptp else s

/-! ## Host writes (R177 to R186) -/

/-- What an entry write answers. -/
inductive ExmRes where
  | ok (pos : Nat) (s : State)
  | refused (st : Nat)
  | noSlot
  deriving DecidableEq, Repr

/-- One entry write into descriptor d: op 0 INSERT, 1 REPLACE, 2 DELETE; imm: IMMEDIATE (R178 to R181). -/
def State.exmWrite (s : State) (t d op : Nat) (imm static_ : Bool) (key result : Nat) : ExmRes :=
  let g := if imm then s.cur else s.curNext
  let hit := (s.exmHits t d key g).head?
  let new : Entry := { key := key, from_ := g, table := t, static_ := static_, desc := d, result := result }
  if s.bankFenced (s.exmBucket t d key) then .refused 0x102 else
  match op, hit with
  | 0, some _ => .refused 0x100
  | 0, none =>
    match s.exmSlot t d key with
    | none => .noSlot
    | some p => .ok p { s with exm := sset s.exm p new }
  | _, none => .refused 0x101
  | 1, some (p, e) =>
    if !imm && !e.settled && e.from_ = g then .ok p { s with exm := sset s.exm p new } else
    let s1 := { s with exm := sset s.exm p { e with retired := true, until_ := g } }
    match s1.exmSlot t d key with
    | none => .noSlot
    | some q => .ok q { s1 with exm := sset s1.exm q new }
  | _, some (p, e) =>
    if !imm && !e.settled && e.from_ = g then .ok p { s with exm := sdel s.exm p }
    else .ok p { s with exm := sset s.exm p { e with retired := true, until_ := g } }

/-- Buckets of every descriptor in use. -/
def State.exmRegions (s : State) : List (Nat × Nat) :=
  ((s.written .EXM_LTBL).map (·.1)).filterMap fun i =>
    if s.fld F.EXM_LTBL.KEY_W i = 0 then none else some (s.fld F.EXM_LTBL.BASE i, 2 ^ s.fld F.EXM_LTBL.LOG2 i)

/-- The lowest free aligned region of 2^l buckets. -/
def State.freeRegion (s : State) (l : Nat) : Option Nat :=
  if l > 18 then none else
  ((List.range (2 ^ (18 - l))).map (· * 2 ^ l)).find? fun b => !(s.exmRegions.any (overlaps (b, 2 ^ l)))

/-- The buckets of a descriptor's region hold a location; an overflow slot lies in none. -/
def State.inRegion (s : State) (t d pos : Nat) : Bool :=
  let b := 4 * s.fld F.EXM_LTBL.BASE (t * 2 + d)
  decide (b ≤ pos) && decide (pos < b + 4 * 2 ^ min 18 (s.fld F.EXM_LTBL.LOG2 (t * 2 + d))) && decide (pos < ovfBase)

/-- Clear a descriptor's region, with the overflow entries that belong to it. -/
def State.clearRegion (s : State) (t d : Nat) : State :=
  { s with exm := s.exm.filter fun e => !(s.inRegion t d e.1 || (e.1 ≥ ovfBase && e.2.table == t && e.2.desc == d)) }

/-- A descriptor is the one that a live generation uses (R158, R218). -/
def State.descLive (s : State) (t d : Nat) : Bool :=
  s.descAt t s.curNext == d || s.descAt t s.cur == d || (sget s.exmSw [] t).any fun x => x.2 == d && !genGe s.old x.1

/-- Copy entries into a descriptor as STAGED, with HIT and AGE. -/
def copyStaged (g t d : Nat) : List (Nat × Entry) → State → Option State
  | [], s => some s
  | (q, e) :: l, s => match s.exmSlot t d e.key with
    | none => none
    | some p => copyStaged g t d l { s with
        exm := sset s.exm p { e with from_ := g, until_ := 0, settled := false, retired := false, desc := d }
        fdbTime := match sfind s.fdbTime q with | some x => sset s.fdbTime p x | none => s.fdbTime }

/-- One try of the rehash of table t into descriptor d (R184): the region is cleared and takes every entry visible at CUR + 1 of the other
descriptor but the written key's, then the failed entry. -/
def State.rehashTry (s : State) (t d op : Nat) (static_ : Bool) (key result seed : Nat) : Option (Nat × State) :=
  let s := (s.setReg .EXM_SEED (t * 2 + d) 0 seed).clearRegion t d
  let l := s.exm.filter fun e => e.2.table == t && e.2.desc == 1 - d && e.2.vis s.curNext && (op == 0 || e.2.key != key)
  match copyStaged s.curNext t d l s with
  | none => none
  | some s => match s.exmWrite t d 0 false static_ key result with
    | .ok p s => some (p, s)
    | _ => none

/-- Firmware's rehash after an insertion failure (R184), whole within the write that failed; REHASH_BUSY holds learning and ageing of the
table until ACTIVE is staged. It fails while a live generation still uses the shadow descriptor (DESIGN CHOICE, log 35). -/
def State.rehash1 (s : State) (t op : Nat) (static_ : Bool) (key result : Nat) : Option (Nat × State) :=
  let a := s.descAt t s.curNext
  let d := 1 - a
  let log := s.fld F.EXM_LTBL.LOG2 (t * 2 + a)
  let load := (s.exm.filter fun e => e.2.table == t && e.2.desc == a && e.1 < ovfBase).length
  if s.descLive t d then none else
  let log' := if load > 3 * 2 ^ log then log + 1 else log
  match (s.setReg .EXM_LTBL (t * 2 + d) 0 0).freeRegion log' with
  | none => none
  | some b =>
    let w := s.fld F.EXM_LTBL.KEY_W (t * 2 + a)
    let s0 := (s.setFld F.EXM_LTBL_CTL.REHASH_BUSY t 1).setReg .EXM_LTBL (t * 2 + d) 0 (b + 262144 * log' + 8388608 * w)
    let try_ (i : Nat) := { s0 with free := s0.free + 1 + i }.rehashTry t d op static_ key result (Config.free (s0.free + i) % 4294967296)
    match (List.range 4).findSome? try_ with
    | none => none
    | some (p, s1) =>
      let s1 := (s1.stageFld F.EXM_LTBL_CTL.ACTIVE t d).setFld F.EXM_LTBL_CTL.REHASH_BUSY t 0
      some (p, { s1 with rehash := s1.rehash ++ [{ table := t, desc := d }] })

/-- EXM_WRITE's fields (Table 16-15). -/
def Req.exmKey (r : Req) (i : Nat) : Nat := wNat r.payload i 5

/-- REHASH_NEEDED after a rehash that failed: its four seeds are used up. -/
def State.rehashFailed (s : State) : State := ({ s with free := s.free + 4 } : State).pulse 54

/-- EXM_WRITE (R177 to R184): STAGED, into the descriptor active at CUR + 1. -/
def execExmWrite (dt : Nat) (r : Req) (s : State) : Out :=
  runCmd { op := 0x51, role := some 1 } dt r s fun s =>
    let w := r.w 0
    let t := w % 256
    let op := bits w 8 2
    let d := s.descAt t s.curNext
    let key := r.exmKey 3
    let result := r.w 1 + 4294967296 * (r.w 2 % 256)
    if r.inLen < 32 || t = 0 || op = 3 || bit w 10 || bits w 13 19 ≠ 0 || r.w 2 ≥ 256 then fail Status.badParam s
    else if tableKind (s.next .EXM_LTBL_CTL t 0) = 0 || s.keyW t d = 0 then fail 0x104 s
    else if key ≥ 2 ^ s.keyW t d then fail Status.badParam s
    else
      let run (s : State) : Reply :=
        match s.exmWrite t d op false (bit w 11) key result with
        | .ok p s => .done 0 s (s.exmPos t d p) []
        | .refused st => fail st s
        | .noSlot =>
          match s.rehash1 t op (bit w 11) key result with
          | some (p, s) => .done 0 (s.pulse 54) (s.exmPos t (1 - d) p) []
          | none => fail 0x102 s
      let needs := match s.exmWrite t d op false (bit w 11) key result with | .noSlot => true | _ => false
      match staging r s true run with
      | .done st t result out => .done st (if needs && st = 0x102 then t.rehashFailed else t) result out
      | x => x

/-- EXM_WRITE_X (R177, R186): either mode, a named descriptor, no rehash. -/
def execExmWriteX (dt : Nat) (r : Req) (s : State) : Out :=
  runCmd { op := 0x8010, role := some 2, expert := true } dt r s fun s =>
    let w := r.w 0
    let t := w % 256
    let op := bits w 8 2
    let imm := bit w 10
    let d := bits w 12 1
    let key := r.exmKey 3
    let result := r.w 1 + 4294967296 * (r.w 2 % 256)
    if r.inLen < 32 || t = 0 || op = 3 || bits w 13 19 ≠ 0 || r.w 2 ≥ 256 then fail Status.badParam s
    else if tableKind (s.next .EXM_LTBL_CTL t 0) = 0 || s.keyW t d = 0 then fail 0x104 s
    else if key ≥ 2 ^ s.keyW t d then fail Status.badParam s
    else
      match staging r s (!imm) (fun s =>
        match s.exmWrite t d op imm (bit w 11) key result with
        | .ok p s => .done 0 s (s.exmPos t d p) []
        | .refused st => fail st s
        | .noSlot => fail 0x103 s) with
      | .done st t result out => .done st (if st = 0x103 then t.pulse 54 else t) result out
      | x => x

/-! ## SEARCH and NEXT (R187 to R190) -/

/-- SEARCH. -/
def execExmSearch (dt : Nat) (r : Req) (s : State) : Out :=
  runCmd { op := 0x52, role := some 0, read := true } dt r s fun s =>
    let t := r.w 0 % 256
    let g := if bit (r.w 0) 8 then s.curNext else s.cur
    let d := s.descAt t g
    if r.inLen < 24 || r.w 0 ≥ 512 then fail Status.badParam s
    else if s.keyW t d = 0 then fail 0x101 s
    else match s.exmHits t d (r.exmKey 1) g with
    | [] => fail 0x101 s
    | (p, e) :: _ => .done 0 s (s.exmPos t d p) (wordsBytes e.toWords)

/-- Entries of a table visible at CUR from a location on, in location order: those of the active region, then the overflow entries (R189). -/
def State.walkFrom (s : State) (t pos : Nat) : List (Nat × Entry) :=
  let d := s.descAt t s.cur
  s.exm.filter fun e => e.2.table == t && e.2.desc == d && e.2.vis s.cur && (s.inRegion t d e.1 || e.1 ≥ ovfBase) && s.exmPos t d e.1 ≥ pos

/-- NEXT. -/
def execTableNext (dt : Nat) (r : Req) (s : State) : Out :=
  runCmd { op := 0x53, role := some 0, read := true } dt r s fun s =>
    let lo := r.w 0
    let hi := r.w 1
    let pos := bits lo 0 21
    let t := bits lo 21 8
    let start := bit hi 31
    let max := r.w 2
    let sw := s.fld F.EXM_LTBL_STAT.SWITCH_COUNT t
    if r.inLen < 12 || max = 0 || max > 128 || bits lo 29 3 ≠ 0 || bits hi 16 15 ≠ 0 then fail Status.badParam s
    else if !start && bits hi 0 16 ≠ sw then fail 0x105 s
    else
      let d := s.descAt t s.cur
      let l := s.walkFrom t (if start then 0 else pos)
      let n := min max ((r.outLen - 12) / 36)
      let got := l.take n
      let fin := decide (l.length ≤ n)
      let next := match got.getLast? with
        | some e => s.exmPos t d e.1 + 1
        | none => if start then 0 else pos
      .done 0 s 0 (wordsBytes ([w32 (got.length + 2147483648 * b2n fin), w32 (next % 2097152 + 2097152 * t), w32 sw] ++
        got.flatMap fun e => e.2.toWords ++ [w32 (s.exmPos t d e.1)]))

/-! ## Flushes (R191 to R194) -/

/-- FLUSH_BY_PORT: requested; the walk answers it. -/
def execFlushByPort (dt : Nat) (r : Req) (s : State) : Out :=
  runCmd { op := 0x54, role := some 1 } dt r s fun s =>
    let w := r.w 0
    let staged := !bit w 8
    if r.inLen < 8 || w ≥ 1024 || r.w 1 ≥ 32768 then fail Status.badParam s
    else
      let f : Flush := {
        table := w % 256
        gport := r.w 1
        staged := staged
        static_ := bit w 9
        ch := some r.ch
        tell := r.w 1 / 64 == s.member }
      let go (s : State) : Reply := .wait { s with flushQ := s.flushQ ++ [f] } (.flush 0 1)
      if r.txn ≠ 0 || !staged then go s
      else if s.txn.isSome then fail Status.txnBusy s
      else go { s with txn := some { id := 0, ch := r.ch, sid := r.sid, last := s.now, commit := true, own := true } }

/-- An entry a flush removes (R191). -/
def State.flushHits (s : State) (f : Flush) (e : Entry) : Bool :=
  s.kindOf e.table == 1 && (f.table == 0 || f.table == e.table) && e.dest == f.gport && !bit e.result 15 &&
  e.vis s.cur && (f.static_ || !e.static_)

/-- One flush of a walk: its entries are removed or retired, and its command goes on. -/
def State.flushOne (s : State) (f : Flush) : State :=
  let n := (s.exm.filter fun e => s.flushHits f e.2).length
  let g := if f.staged then s.curNext else s.cur
  let s := { s with exm := s.exm.map fun e => if s.flushHits f e.2 then (e.1, { e.2 with retired := true, until_ := g }) else e }
  let s := if f.tell then s.sendAll (.flush f.gport) else s
  match f.ch with
  | none => s
  | some ch =>
    if f.staged && (s.txn.map fun t => t.own && t.ch == ch).getD false then
      match (s.chan ch).busy with
      | some (r, _) => s.setChan ch { s.chan ch with busy := some (r, .commitDone n []) }
      | none => s
    else s.completeWait ch 0 n []

/-- A flush waits of the port that a learn request would point an entry at (R194). -/
def State.flushing (s : State) (r : Learn) : Bool := !r.drop && s.flushQ.any fun f => f.gport == r.gport

/-- Queued learn requests that a waiting flush discards (R194). -/
def State.flushLearns (s : State) (ports : List Nat) : State :=
  let hit (r : Learn) : Bool := s.flushing r && ports.contains r.gport
  State.add { s with learnQ := s.learnQ.filter fun r => !hit r } .LEARN_FLUSH_DISCARD 0 (s.learnQ.filter hit).length

/-- FLUSH_WALK (R193): up to 16 port numbers, oldest requests first. -/
def execFlushWalk (dt : Nat) (s : State) : Out :=
  let s := s.advance dt
  let ports := (s.flushQ.foldl (fun (l : List Nat) f => if l.contains f.gport then l else l ++ [f.gport]) []).take 16
  let now := s.flushQ.filter fun f => ports.contains f.gport
  let s := s.flushLearns ports
  finish (now.foldl State.flushOne { s with flushQ := s.flushQ.filter fun f => !ports.contains f.gport })

/-! ## The LPM store (R211 to R215) -/

/-- Visible to generation g. -/
def Lpm.vis (e : Lpm) (g : Nat) : Bool := visAt true e.settled e.retired e.from_ e.until_ g

/-- Address bits of a family. -/
def famBits (v6 : Bool) : Nat := if v6 then 128 else 32

/-- The entry covers an address. -/
def Lpm.covers (e : Lpm) (vrf : Nat) (v6 : Bool) (a : Nat) : Bool :=
  e.vrf == vrf && e.v6 == v6 && a >>> (famBits v6 - e.len) == e.pfx >>> (famBits v6 - e.len)

/-- LPM lookup (R212). -/
def State.lpmLookup (s : State) (vrf : Nat) (v6 : Bool) (a g : Nat) : Option Lpm :=
  (s.lpm.filter fun e => e.2.vis g && e.2.covers vrf v6 a).foldl (fun m e => match m with
    | none => some e.2
    | some x => if e.2.len > x.len then some e.2 else some x) none

/-- Units an entry takes (R211): one for IPv4, four for IPv6. -/
def Lpm.units (e : Lpm) : Nat := if e.v6 then 4 else 1

/-- Units u to u + n − 1 are free; the store keeps an entry at its first unit. -/
def State.unitsFree (s : State) (u n : Nat) : Bool := s.lpm.all fun e => !(e.1 < u + n && u < e.1 + e.2.units)

/-- Add an LPM entry at the lowest free unit, for IPv6 the lowest free group of four aligned units (R211; which free units an entry takes is
a DESIGN CHOICE, log 227). -/
def State.lpmAdd (s : State) (e : Lpm) : Option State :=
  (((List.range (4 * s.lpm.length + 1)).map (· * e.units)).find? fun u => u + e.units ≤ 1048576 && s.unitsFree u e.units).map fun u =>
    { s with lpm := sset s.lpm u e }

/-- One LPM write (R214): a failure's status, or the state. -/
def State.lpmWrite (s : State) (op : Nat) (n : Lpm) : Except Nat State :=
  let g := s.curNext
  let hit := s.lpm.find? fun e => e.2.vrf == n.vrf && e.2.v6 == n.v6 && e.2.len == n.len && e.2.pfx == n.pfx && e.2.vis g
  let add (s : State) : Except Nat State := match s.lpmAdd { n with from_ := g } with
    | some s => .ok s
    | none => .error 0x102
  match op, hit with
  | 0, some _ => .error 0x100
  | 0, none => add s
  | _, none => .error 0x101
  | 1, some (p, e) =>
    if !e.settled && e.from_ = g then .ok { s with lpm := sset s.lpm p { n with from_ := g } }
    else add { s with lpm := sset s.lpm p { e with retired := true, until_ := g } }
  | _, some (p, e) =>
    if !e.settled && e.from_ = g then .ok { s with lpm := sdel s.lpm p }
    else .ok { s with lpm := sset s.lpm p { e with retired := true, until_ := g } }

/-- Address bits of an LPM payload. -/
def Req.lpmAddr (r : Req) : Nat := if bit (r.w 0) 24 then wNat r.payload 1 4 else r.w 1

/-- LPM_WRITE. -/
def execLpmWrite (dt : Nat) (r : Req) (s : State) : Out :=
  runCmd { op := 0x55, role := some 1 } dt r s fun s =>
    let w := r.w 0
    let v6 := bit w 24
    let len := bits w 16 8
    let op := bits w 25 2
    if r.inLen < 24 || w ≥ 134217728 || op = 3 || len > famBits v6 || r.lpmAddr % 2 ^ (famBits v6 - len) ≠ 0 then fail Status.badParam s
    else staging r s true fun s =>
      match s.lpmWrite op { pfx := r.lpmAddr, len := len, v6 := v6, vrf := w % 65536, from_ := 0, result := r.w 5 } with
      | .ok s => good s
      | .error st => fail st s

/-- The words of an LPM entry (R213): an IPv6 entry carries 32 address bits in word 0 of each unit. -/
def Lpm.toWords (e : Lpm) : List Word :=
  let rest := [w32 (e.len + 256 * b2n e.v6 + 512 + 1024 * b2n e.settled + 2048 * b2n e.retired + 65536 * e.vrf),
    w32 (e.from_ + 65536 * e.until_), w32 e.result]
  if !e.v6 then w32 e.pfx :: rest else
  w32 e.pfx :: rest ++ (List.range 3).flatMap fun i => [w32 (e.pfx >>> (32 * (i + 1))), 0, 0, 0]

/-- LPM_SEARCH. -/
def execLpmSearch (dt : Nat) (r : Req) (s : State) : Out :=
  runCmd { op := 0x56, role := some 0, read := true } dt r s fun s =>
    let w := r.w 0
    if r.inLen < 20 || w ≥ 67108864 || bits w 16 8 ≠ 0 then fail Status.badParam s
    else match s.lpmLookup (w % 65536) (bit w 24) r.lpmAddr (if bit w 25 then s.curNext else s.cur) with
    | some e => .done 0 s 0 (wordsBytes e.toWords)
    | none => fail 0x101 s

/-! ## Learning (R195 to R208, R603 to R608) -/

/-- COUNT of a local port (R196): LEARNED entries visible at CUR, in the descriptors active there, whose DEST is the port. -/
def State.learnCount (s : State) (p : Nat) : Nat :=
  (s.exm.filter fun e => e.2.learned && e.2.vis s.cur && e.2.desc == s.descAt e.2.table s.cur && s.kindOf e.2.table == 1 &&
    e.2.dest == s.gport p && !bit e.2.result 15).length

/-- A learn request enters the queue (R194, R199). -/
def State.learn (s : State) (r : Learn) : State :=
  if s.flushing r then s.bump .LEARN_FLUSH_DISCARD 0 else
  if s.learnQ.length ≥ 16384 then s.bump .LEARN_QUEUE_DROP 0 else { s with learnQ := s.learnQ ++ [r] }

/-- A host write of the key is pending, or its visible entry is not one that learning may move (R207). -/
def State.hostPending (s : State) (t key : Nat) : Bool :=
  s.exm.any fun e => e.2.table == t && e.2.key == key &&
    ((e.2.vis s.cur && e.2.desc == s.descAt t s.cur && (e.2.static_ || !e.2.learned)) ||
     (!e.2.settled && e.2.from_ == s.curNext && !e.2.learned) ||
     (e.2.vis s.cur && e.2.retired && e.2.until_ == s.curNext))

/-- The later of two requests; among equal times the lower global port (R201). -/
def laterOf (byPtp : Bool) (a b : Learn) : Learn :=
  let ta := if byPtp then a.ptp else a.ts
  let tb := if byPtp then b.ptp else b.ts
  if tb > ta || (tb = ta && b.gport < a.gport) then b else a

/-- MOVE_CNT and MOVE_IV after one more move at an instant (R202). -/
def moved (result now : Nat) : Nat :=
  let iv := now / 1000000000 % 256
  let n := if bits result 24 8 = iv then bits result 20 4 + 1 else 1
  putBits (putBits result 20 4 n) 24 8 iv

/-- Who keeps an entry that two members claim (R605): true when the notice's member takes it. -/
def State.yields (s : State) (e : Entry) (cur : Nat × Bool) (r : Learn) : Bool :=
  let win := 1000 * s.fld F.FAB_OWN_WIN.WIN_US 0
  let near := decide (r.ptp ≤ cur.1 + win) && decide (cur.1 ≤ r.ptp + win)
  if near || r.suspect || cur.2 then decide (r.gport / 64 < e.owner) else decide (r.ptp > cur.1)

/-- A move of a learned entry to the port of a request, or the pin that its ninth move makes (R201 to R203). -/
def State.learnMove (s : State) (pos : Nat) (e : Entry) (r : Learn) : State :=
  let res := moved e.result s.frc
  if bits res 20 4 ≥ 9 then
    ({ s with exm := sset s.exm pos { e with pinned := true, pinAt := s.frc, result := res } } : State).pulse 55
  else
    let e' := { e with result := putBits res 0 15 r.gport, hit := true }
    let s := { s with exm := sset s.exm pos e', fdbTime := sset s.fdbTime pos (r.ptp, r.suspect) }
    if r.notice then s else s.notice true e' r.ptp

/-- A new learned entry (R201, R206, R208). -/
def State.learnNew (s : State) (r : Learn) (ports : Nat) : State :=
  let d := s.descAt r.table s.cur
  if s.keyW r.table d = 0 then s
  else if !r.notice && s.learnCount r.port ≥ s.fld F.EXM_LEARN_CFG.LIMIT r.port then s.bump .LEARN_LIMIT_LATE 0
  else if s.bankFenced (s.exmBucket r.table d r.key) then s
  else match s.exmSlot r.table d r.key with
  | none => s.pulse 54
  | some p =>
    let e : Entry := {
      key := r.key
      from_ := s.cur
      table := r.table
      learned := true
      hit := true
      desc := d
      result := if ports ≥ 2 then moved r.gport s.frc else r.gport }
    let s := { s with exm := sset s.exm p e, fdbTime := sset s.fdbTime p (r.ptp, r.suspect) }
    if r.notice then s else s.notice true e r.ptp

/-- A NOTICE WITHDRAW in a window (R604). -/
def State.learnDrop (s : State) (r : Learn) : State :=
  match (s.exmHits r.table (s.descAt r.table s.cur) r.key s.cur).head? with
  | some (p, e) =>
    if e.pinned || e.static_ || !e.learned then s.bump .FAB_NOTICE_IGN 0
    else if e.dest = r.gport then { s with exm := sset s.exm p { e with retired := true, until_ := s.cur } }
    else s
  | none => s

/-- The winning request of a window acts on the entry (R201 to R208, R605). -/
def State.learnWin (s : State) (r : Learn) (ports : Nat) : State :=
  match (s.exmHits r.table (s.descAt r.table s.cur) r.key s.cur).head? with
  | none => s.learnNew r ports
  | some (p, e) =>
    if e.pinned then (if r.notice then s.bump .FAB_NOTICE_IGN 0 else s)
    else if e.dest = r.gport then { s with fdbTime := sset s.fdbTime p (r.ptp, r.suspect) }
    else if r.notice && e.owner ≠ r.gport / 64 then
      let at_ := sget s.fdbTime (0, false) p
      if s.yields e at_ r then
        let s := if e.owner = s.member then s.bump .FAB_FDB_YIELD 0 else s
        s.learnMove p e r
      else if e.owner = s.member then s.notice true e at_.1 else s
    else s.learnMove p e r

/-- LEARN_WINDOW (R200): the oldest request of a table that no rehash holds (R185), with every queued one of its table and key. -/
def execLearnWindow (dt : Nat) (s : State) : Out :=
  let s := s.advance dt
  match s.learnQ.find? fun r => !s.flag F.EXM_LTBL_CTL.REHASH_BUSY r.table with
  | none => finish s
  | some h =>
    let set := s.learnQ.filter fun r => r.table == h.table && r.key == h.key
    let s : State := { s with learnQ := s.learnQ.filter fun r => !(r.table == h.table && r.key == h.key) }
    let s := s.add .LEARN_FLUSH_DISCARD 0 (set.filter s.flushing).length
    let set := set.filter fun r => !s.flushing r
    if s.kindOf h.table ≠ 1 then finish (s.add .FAB_NOTICE_IGN 0 (set.filter (·.notice)).length)
    else if s.hostPending h.table h.key then
      finish ((s.add .LEARN_HOST_PENDING 0 (set.filter fun r => !r.notice).length).add .FAB_NOTICE_IGN 0 (set.filter (·.notice)).length)
    else
      let s := (set.filter (·.drop)).foldl State.learnDrop s
      match set.filter fun r => !r.drop with
      | [] => finish s
      | r :: rest =>
        let all := r :: rest
        let w := rest.foldl (laterOf (all.any (·.notice))) r
        finish (s.learnWin w ((all.map (·.gport)).foldl ins []).length)

/-! ## Ageing (R209, R210, R606, R607) -/

/-- One entry at an ageing tick of its table. -/
def State.ageOne (s : State) (t : Nat) (x : Nat × Entry) : State :=
  let e := x.2
  let foreign := s.kindOf t == 1 && !bit e.result 15 && e.owner != s.member
  if e.table ≠ t || e.desc ≠ s.descAt t s.cur || e.static_ || e.pinned || !e.vis s.cur || foreign then s
  else if e.hit then
    let s := { s with exm := sset s.exm x.1 { e with hit := false, age := 0 } }
    if e.learned then s.notice true e (sget s.fdbTime (0, false) x.1).1 else s
  else if e.age + 1 ≥ 3 then (s.exmRemoveNow x.1 { e with age := 3 } true).bump .EXM_AGED t
  else { s with exm := sset s.exm x.1 { e with age := e.age + 1 } }

/-- AGEING_TICK of table t, every AGE_TIME/3 s. -/
def execAgeingTick (dt : Nat) (t : Fin 256) (s : State) : Out :=
  let s := s.advance dt
  let a := s.fld F.EXM_LTBL_CTL.AGE_TIME t
  if a = 0 || s.flag F.EXM_LTBL_CTL.REHASH_BUSY t || 3 * (s.now - sget s.ageAt 0 t) < a * 1000000000 then finish s else
  let s := { s with ageAt := sset s.ageAt t s.now }
  finish (s.exm.foldl (fun s x => s.ageOne t x) s)

/-! ## The maintenance sweep (R173 to R175, R205) -/

/-- A pin hold has elapsed. -/
def State.unpin (s : State) (e : Entry) : Entry :=
  let h := s.fld F.EXM_FLAP_CFG.PIN_HOLD 0
  if e.pinned && h ≠ 0 && e.pinAt + h * 1000000000 ≤ s.frc then { e with pinned := false, result := putBits e.result 20 4 0 } else e

/-- Versions kept of a versioned entry: all behind OLD collapse into the newest of them (R269). -/
def settleVers (old : Nat) (l : List Ver) : List Ver :=
  let done := l.filter fun v => v.settled || genGe old v.from_
  let rest := l.filter fun v => !(v.settled || genGe old v.from_)
  match done.getLast? with
  | some v => { v with settled := true } :: rest
  | none => rest

/-- The old region of a firmware rehash is cleared once OLD has passed SWITCH_GEN, and its descriptor is unused again. -/
def State.clearOld (s : State) (old : Nat) (r : Rehash) : State :=
  if s.fld F.EXM_LTBL_CTL.ACTIVE r.table ≠ r.desc || !genGe old (s.fld F.EXM_LTBL_STAT.SWITCH_GEN r.table) then s else
  let s := { s.clearRegion r.table (1 - r.desc) with
    rehash := s.rehash.filter fun x => !(x.table == r.table && x.desc == r.desc) }
  s.setReg .EXM_LTBL (r.table * 2 + (1 - r.desc)) 0 0

/-- MAINT_SWEEP: one pass over every store. -/
def execMaintSweep (dt : Nat) (s : State) : Out :=
  let s := s.advance dt
  let old := s.old
  let gone (ret : Bool) (u : Nat) : Bool := ret && genGe old u
  let exm := (s.exm.filter fun e => !gone e.2.retired e.2.until_).map fun e =>
    (e.1, s.unpin { e.2 with settled := e.2.settled || genGe old e.2.from_ })
  let s : State := { s with
    exm := exm
    fdbTime := s.fdbTime.filter fun e => (sfind exm e.1).isSome
    lpm := (s.lpm.filter fun e => !gone e.2.retired e.2.until_).map fun e =>
      (e.1, { e.2 with settled := e.2.settled || genGe old e.2.from_ })
    tcam := (s.tcam.filter fun e => !gone e.2.retired e.2.until_).map fun e =>
      (e.1, { e.2 with settled := e.2.settled || genGe old e.2.from_ })
    ver := s.ver.map fun e => (e.1, settleVers old e.2)
    exmSw := s.exmSw.map fun e => (e.1, e.2.filter fun x => !genGe old x.1)
    oldS := old }
  finish (s.rehash.foldl (fun s r => s.clearOld old r) s)

end Sys2Proof.Machine
end

