-- ==== Sys2Proof/Machine/Tcam.lean ====
section
/-! DEFINITION. The TCAM: rows, searches with their verification, scrub, search budget and throttling; policers (chapter 06). -/
namespace Sys2Proof.Machine

/-! ## Rows (R220 to R228, R848) -/

/-- Where row i of pipeline pl is kept. -/
def trow (pl i : Nat) : Nat := pl * 8192 + i

/-- Visible to generation g (R222). -/
def Row.vis (r : Row) (g : Nat) : Bool := visAt true r.settled r.retired r.from_ r.until_ g

/-- The row is staged and not committed. -/
def Row.staged (r : Row) (g : Nat) : Bool := !r.settled && r.from_ == g

/-- The row of a pipeline visible to a generation. -/
def State.rowAt (s : State) (pl i g : Nat) : Option Row := (sfind s.tcam (trow pl i)).bind fun r => if r.vis g then some r else none

/-- The 46 words of a row (Table 6-1). -/
def Row.toWords (r : Row) : List Word :=
  toW r.key 20 ++ toW r.mask 20 ++
  [w32 (r.prio + 65536 + 131072 * b2n r.settled + 262144 * b2n r.retired), w32 (r.from_ + 65536 * r.until_)] ++ toW r.action 4

/-- The row a payload gives at word i, staged for generation g. -/
def rowOf (l : List Word) (i g : Nat) : Row :=
  let key := wNat l i 20
  let mask := wNat l (i + 20) 20
  let prio := wAt l (i + 40) % 65536
  { key := key, mask := mask, prio := prio, shKey := key, shMask := mask, shPrio := prio, from_ := g, action := wNat l (i + 42) 4 }

/-- The row that 46 words lay out (Table 6-1), its shadow with them. -/
def Row.ofWords (l : List Word) : Row :=
  { rowOf l 0 (wAt l 41 % 65536) with
    settled := bit (wAt l 40) 17
    retired := bit (wAt l 40) 18
    until_ := wAt l 41 / 65536 }

/-- The row as its shadow holds it; word k of the shadow written. -/
def Row.shadow (r : Row) : Row := { r with key := r.shKey, mask := r.shMask, prio := r.shPrio }
def Row.setShadow (r : Row) (k v : Nat) : Row :=
  let l := r.shadow.toWords.set k (w32 v)
  { r with shKey := wNat l 0 20, shMask := wNat l 20 20, shPrio := wAt l 40 % 65536 }

/-- Pipelines of a mask. -/
def maskPls (m : Nat) : List Nat := (List.range 4).filter (bit m)

/-- An index is free in every pipeline of a list. -/
def State.rowFree (s : State) (pls : List Nat) (i : Nat) : Bool := pls.all fun pl => (sfind s.tcam (trow pl i)).isNone

/-- A row of a named pipeline, visible at CUR or CUR + 1, has the priority (R227); the row at `but` is exempt. -/
def State.equalPrio (s : State) (pls : List Nat) (prio : Nat) (but : Option Nat) : Bool :=
  s.tcam.any fun e => pls.contains (e.1 / 8192) && e.2.prio == prio && (e.2.vis s.cur || e.2.vis s.curNext) &&
    some (e.1 % 8192) != but

/-- Put one row at an index of every pipeline of a list. -/
def State.putRows (s : State) (pls : List Nat) (i : Nat) (r : Row) : State :=
  { s with tcam := pls.foldl (fun m pl => sset m (trow pl i) r) s.tcam }

/-- Retire the rows at an index, or free those that are staged (R179, R180, R222). -/
def State.dropRows (s : State) (pls : List Nat) (i : Nat) : State :=
  { s with tcam := pls.foldl (fun m pl => match sfind m (trow pl i) with
      | none => m
      | some r => if r.staged s.curNext then sdel m (trow pl i)
        else sset m (trow pl i) { r with retired := true, until_ := s.curNext }) s.tcam }

/-- One row write (R848): a status or the index and the state. -/
def State.tcamWrite (s : State) (op : Nat) (pls : List Nat) (at_ : Nat) (expert : Bool) (r : Row) : Except Nat (Nat × State) :=
  let g := s.curNext
  let free := (List.range 8192).find? (s.rowFree pls)
  let there := pls.all fun pl => (s.rowAt pl at_ g).isSome
  let dup (but : Option Nat) := !expert && s.equalPrio pls r.prio but
  match op with
  | 0 =>
    if dup none then .error 0x110
    else if expert then (if s.rowFree pls at_ then .ok (at_, s.putRows pls at_ r) else .error 0x111)
    else match free with
      | some i => .ok (i, s.putRows pls i r)
      | none => .error 0x111
  | 1 =>
    if !there then .error 0x101
    else if dup (some at_) then .error 0x110
    else if pls.all (fun pl => ((sfind s.tcam (trow pl at_)).map (·.staged g)).getD false) then .ok (at_, s.putRows pls at_ r)
    else match free with
      | some i => .ok (i, (s.dropRows pls at_).putRows pls i r)
      | none => .error 0x111
  | _ => if !there then .error 0x101 else .ok (at_, s.dropRows pls at_)

/-- The payload of a TCAM write is in range. -/
def Req.rowOk (r : Req) : Bool :=
  decide (r.inLen ≥ 188) && bits (r.w 0) 0 2 != 3 && bits (r.w 0) 2 2 == 0 && bits (r.w 0) 21 11 == 0 && bits (r.w 0) 4 4 != 0 &&
  bits (r.w 41) 19 13 == 0 && bits (r.w 45) 22 10 == 0 && bits (r.w 46) 17 15 == 0

/-- A TCAM write as a command's body. -/
def tcamBody (expert : Bool) (r : Req) (s : State) : Reply :=
  if !r.rowOk then fail Status.badParam s else
  staging r s true fun s =>
    match s.tcamWrite (bits (r.w 0) 0 2) (maskPls (bits (r.w 0) 4 4)) (bits (r.w 0) 8 13) expert (rowOf r.payload 1 s.curNext) with
    | .ok (i, s) => .done 0 s i []
    | .error st => fail st s

/-- TCAM_WRITE. -/
def execTcamWrite (dt : Nat) (r : Req) (s : State) : Out :=
  runCmd { op := 0x60, role := some 1 } dt r s (tcamBody false r)

/-- TCAM_WRITE_X (R228). -/
def execTcamWriteX (dt : Nat) (r : Req) (s : State) : Out :=
  runCmd { op := 0x8020, role := some 2, expert := true } dt r s (tcamBody true r)

/-- TCAM_READ. -/
def execTcamRead (dt : Nat) (r : Req) (s : State) : Out :=
  runCmd { op := 0x61, role := some 0, read := true } dt r s fun s =>
    let w := r.w 0
    if r.inLen < 4 || bits w 2 6 ≠ 0 || bits w 22 10 ≠ 0 then fail Status.badParam s
    else match s.rowAt (w % 4) (bits w 8 13) (if bit w 21 then s.curNext else s.cur) with
    | some x => .done 0 s 0 (wordsBytes x.toWords)
    | none => fail 0x101 s

/-! ## Searches (R224 to R234) -/

/-- A key and mask match a search key. -/
def keyMatch (k key mask : Nat) : Bool := (k &&& mask) == (key &&& mask)

/-- The winning row of a search (R226), rows at the indices of a list left out. -/
def State.tcamBest (s : State) (pl k g : Nat) (but : List Nat) : Option (Nat × Row) :=
  (s.tcam.filter fun e => e.1 / 8192 == pl && e.2.vis g && !e.2.shBad && keyMatch k e.2.key e.2.mask && !but.contains e.1).foldl
    (fun m e => match m with
      | none => some e
      | some x => if e.2.prio > x.2.prio then some e else some x) none

/-- A row rewritten from its shadow. -/
def Row.fixed (r : Row) : Row := { r with key := r.shKey, mask := r.shMask, prio := r.shPrio }

/-- One false hit is counted; a burst raises TCAM_FH_ESCALATE (R229, R234). -/
def State.falseHit (s : State) (pl : Nat) : State :=
  let s := s.bump .TCAM_FALSE_HIT pl
  let w := s.fld F.TCAM_FH_CFG.WINDOW pl
  let l := (sget s.fhLog [] pl).filter (fun t => decide (s.now < t + 1000000 * (if w = 0 then 1 else w))) ++ [s.now]
  let s := { s with fhLog := sset s.fhLog pl l }
  let th := s.fld F.TCAM_FH_CFG.THRESH pl
  if th > 0 && l.length ≥ th then s.raise (4 + pl) else s

/-- An uncorrectable error in a row's shadow: the row is excluded from every search until it is rewritten (R233). -/
def State.shadowBad (s : State) (pl i : Nat) : State :=
  { s.bump .TCAM_SHADOW_UE pl with tcam := s.tcam.map fun e => if e.1 = trow pl i then (e.1, { e.2 with shBad := true }) else e }

/-- One search slot (R235): used slots of the window, those past the budget falling on later windows. -/
def State.searchBudget (s : State) : Nat := match s.fld F.TCAM_THR_STAT.LEVEL 0 with | 0 => 605 | 1 => 363 | _ => 211
def State.slotsUsed (s : State) (pl : Nat) : Nat :=
  let (w, n) := sget s.tcamWin (0, 0) pl
  n - s.searchBudget * (s.now / 1000 - w)
def State.takeSlot (s : State) (pl : Nat) : State :=
  { s with tcamWin := sset s.tcamWin pl (s.now / 1000, s.slotsUsed pl + 1) }

/-- A search with its verification: at most three false hits (R229 to R231). -/
def State.tcamTry (s : State) (pl k g : Nat) : Nat → List Nat → Option Row × State
  | 0, _ => (none, s.bump .TCAM_FH_MISS pl)
  | n + 1, but =>
    let s := s.takeSlot pl
    match s.tcamBest pl k g but with
    | none => (none, s)
    | some (i, r) =>
      if keyMatch k r.shKey r.shMask then (some r, s)
      else State.tcamTry ({ s with tcam := sset s.tcam i r.fixed }.falseHit pl) pl k g n (i :: but)

/-- Search n of a frame: LOOKUP_EN bit and profile (R224, R225), the inserted bits, and the result. -/
def State.tcamSearch (s : State) (f : Frame) (n : Nat) : Option Row × State :=
  let prof := bits (sget f.fields 0 2) (8 * n) 8
  let pr := f.pl * 256 + prof
  if !bit (sget f.fields 0 0) (5 + n) || prof = 0 then (none, s) else
  let k := putBits (f.kb.getD n 0 % 2 ^ 640) 632 8 prof
  if !s.flag F.TCAM_PROFILE.VALID pr then (none, s.bump .TCAM_NO_PROFILE f.pl) else
  let k := if s.flag F.TCAM_PROFILE.INS_PORT pr then putBits k 626 6 f.port else k
  let k := if s.flag F.TCAM_PROFILE.INS_VID pr then putBits k 613 13 (sget f.fields 0 3) else k
  let k := if s.flag F.TCAM_PROFILE.INS_PCP pr then putBits k 608 5 (sget f.fields 0 4) else k
  let s := (s.bump .TCAM_SEARCHES (f.pl * 2 + n)).perfEv 5 1 f.pl f.port 0 f.gen (f.flen % 16384)
  match s.tcamTry f.pl k f.gen 3 [] with
  | (some r, s) => (some r, s.bump .TCAM_HITS (f.pl * 2 + n))
  | x => x

/-- TCAM_SCRUB (R232): every row is compared with its shadow. -/
def execTcamScrub (dt : Nat) (pl : Fin 4) (s : State) : Out :=
  let s := s.advance dt
  let bad (e : Nat × Row) : Bool := e.1 / 8192 == pl && !e.2.shBad && e.2.fixed != e.2
  finish (({ s with tcam := s.tcam.map fun e => if bad e then (e.1, e.2.fixed) else e } : State).add .TCAM_SCRUB_FIX pl (s.tcam.filter bad).length)

/-! ## Throttling (R235 to R237) -/

/-- The level whose entry temperature is reached, in units of 1/256 °C (Table 6-3). -/
def throttleEntry (t : Int) : Nat := if t ≥ 108 * 256 then 3 else if t ≥ 102 * 256 then 2 else if t ≥ 95 * 256 then 1 else 0

/-- Set the throttle level: the THERMAL source pulses, event line 19 follows, and level 3 raises THERMAL_CRIT (R237). -/
def State.setThrottle (s : State) (l : Nat) : State :=
  let was := s.fld F.TCAM_THR_STAT.LEVEL 0
  let s := (s.setFld F.TCAM_THR_STAT.LEVEL 0 l).pulse 8
  let s := if (was == 0) != (l == 0) then s.evtLine 19 (l != 0) else s
  if l = 3 then s.raise 39 else s

/-- THROTTLE_RISE (R236). -/
def execThrottleRise (dt : Nat) (temp : Int) (s : State) : Out :=
  let s := s.advance dt
  let s := { s with pwr := { s.pwr with hot := temp } }
  if throttleEntry temp > s.fld F.TCAM_THR_STAT.LEVEL 0 then finish (s.setThrottle (throttleEntry temp)) else finish s

/-- THROTTLE_FALL (R236): the exit condition has held for 10 ms; level 3 has none. -/
def execThrottleFall (dt : Nat) (temp : Int) (s : State) : Out :=
  let s := s.advance dt
  let s := { s with pwr := { s.pwr with hot := temp } }
  match s.fld F.TCAM_THR_STAT.LEVEL 0 with
  | 1 => if temp ≤ 92 * 256 then finish (s.setThrottle 0) else finish s
  | 2 => if temp ≤ 99 * 256 then finish (s.setThrottle 1) else finish s
  | _ => finish s

/-! ## Policers (R251 to R259) -/

/-- Words 0 to 4 of a policer's committed configuration. -/
def State.polCfg (s : State) (n : Nat) : List Word := (List.range 5).map fun k => w32 (s.reg .POL_CFG n k)

/-- The mode of a configuration: 3 acts as 0. -/
def polMode (c : List Word) : Nat := let m := wAt c 0 % 4; if m = 3 then 0 else m

/-- A rate in kb/s as the device acts on it. -/
def polRate (v : Nat) : Nat := min v 100000000

/-- credit of R255: tokens, remainder and what spills past the cap. -/
def credit (tok rem t rate cap : Nat) : Nat × Nat × Nat :=
  let a := t * polRate rate + rem
  let v := tok + a / 8000000
  (min v cap, a % 8000000, v - cap)

/-- An update without metering (R255, R256, R258): elapsed time at the old settings, then the new ones. -/
def polUpdate (now : Nat) (c : List Word) (p : Pol) : Pol :=
  let cbs := wAt c 3 % 16777216
  let ebs := wAt c 4 % 16777216
  if polMode c = 0 then { p with last := now, cfg := c }
  else if p.fill then { tc := cbs, te := ebs, last := now, cfg := c, fill := false }
  else
    let t := now - p.last
    let o := p.cfg
    let (tc, rc, sp) := credit p.tc p.rc t (wAt o 1) (wAt o 3 % 16777216)
    let (te, re) := match polMode o with
      | 1 => (min (p.te + sp) (wAt o 4 % 16777216), p.re)
      | 2 => let (te, re, _) := credit p.te p.re t (wAt o 2) (wAt o 4 % 16777216); (te, re)
      | _ => (p.te, p.re)
    { tc := min tc cbs, te := min te ebs, rc := rc, re := re, last := now, cfg := c, fill := false }

/-- meter of R255: the output colour, 0 green, 1 yellow, 2 red. -/
def polMeter (c : List Word) (p : Pol) (col b : Nat) : Nat × Pol :=
  if polMode c = 1 then
    if col = 0 && p.tc ≥ b then (0, { p with tc := p.tc - b })
    else if col ≠ 2 && p.te ≥ b then (1, { p with te := p.te - b })
    else (2, p)
  else
    if col = 2 || p.te < b then (2, p)
    else if col = 1 || p.tc < b then (1, { p with te := p.te - b })
    else (0, { p with te := p.te - b, tc := p.tc - b })

/-- What a policer makes of a frame: its output colour, whether it is discarded, whether MARK_DEI applies, and the pair that counts it. -/
structure Policed where
  colour : Nat
  drop   : Bool
  mark   : Bool
  pair   : Option Nat
  deriving DecidableEq, Repr

/-- A frame of FLEN bytes meets policer n with an input colour (R253, R259). One that is off passes the colour on, whatever RED_LATCHED
holds, and drops, marks and counts by it (DEDUCED, log 228). -/
def State.police (s : State) (n col flen : Nat) : Policed × State :=
  let c := s.polCfg n
  let w := wAt c 0
  let p := polUpdate s.now c (sget s.pol {} n)
  let b := ((flen + 4 : Nat) + sgn (bits w 6 6) 6).toNat
  let (out, p) :=
    if polMode c = 0 then (col, p)
    else if bit (s.reg .POL_STAT n 0) 0 then (2, p)
    else polMeter c p (if bit w 2 then col else 0) b
  let s := { s with pol := sset s.pol n p }
  let s := if polMode c ≠ 0 && out = 2 && bit w 12 then s.setReg .POL_STAT n 0 1 else s
  ({ colour := out
     drop := (out == 2 && bit w 3) || (out == 1 && bit w 4)
     mark := bit w 5 && out != 0
     pair := if s.flag F.POL_CFG.COUNT_EN n then some (s.fld F.POL_CFG.COUNTER_BASE n + out) else none }, s)

/-- POLICER_SWEEP (R256). -/
def execPolicerSweep (dt : Nat) (s : State) : Out :=
  let s := s.advance dt
  let ns := (((s.written .POL_CFG).map (·.1)) ++ s.pol.map (·.1)).foldl ins []
  finish { s with pol := ns.foldl (fun m n => sset m n (polUpdate s.now (s.polCfg n) (sget m {} n))) s.pol }

end Sys2Proof.Machine
end

