-- ==== Sys2Proof/Machine/Redundancy.lean ====
section
/-! DEFINITION. Port pairs, duplicate discard, IEEE 802.1CB recovery, the lane comparator's records and the bypass drivers
(chapter 10). -/
namespace Sys2Proof.Machine

/-! ## Pairs (R401 to R407) -/

/-- ROLE of a pair: 0 off, 1 PRP, 2 HSR. -/
def State.pairRole (s : State) (k : Nat) : Nat := let r := s.fld F.PRED_PAIR.ROLE k; if r = 3 then 0 else r

/-- Port of a lane of a pair. -/
def State.pairPort (s : State) (k lane : Nat) : Nat :=
  if lane = 0 then s.fld F.PRED_PAIR.PORT_A k else s.fld F.PRED_PAIR.PORT_B k

/-- Active pairs and lanes that name a port. -/
def State.pairsOf (s : State) (p : Nat) : List (Nat × Nat) :=
  (List.range 16).flatMap fun k => if s.pairRole k = 0 then [] else
    (List.range 2).filterMap fun l => if s.pairPort k l = p then some (k, l) else none

/-- The pair and lane of a port. -/
def State.pairOf (s : State) (p : Nat) : Option (Nat × Nat) := (s.pairsOf p).head?

/-- A port is caught in a configuration that R436 leaves undefined. -/
def State.pairBad1 (s : State) (p : Nat) : Bool :=
  let out (k : Nat) : Bool := decide (s.pairPort k 0 ≥ 40) || decide (s.pairPort k 1 ≥ 40)
  decide ((s.pairsOf p).length > 1) ||
  ((s.pairsOf p).any fun x => out x.1 || portPl (s.pairPort x.1 0) != portPl (s.pairPort x.1 1)) ||
  (decide (40 ≤ p) && (List.range 16).any fun k => s.pairRole k != 0 && out k)

/-- A port on the SAN side of every pair (R403). -/
def State.sanPort (s : State) (p : Nat) : Bool := (s.pairOf p).isNone

/-- The generator of a pair for a source address (R406), and a number drawn from generator g. -/
def State.pairGen (s : State) (k : Nat) (sa : Nat) : Nat :=
  (s.fld F.PRED_PAIR.SEQ_BASE k + exmHash sa 48 0 % 2 ^ s.fld F.PRED_PAIR.SEQ_SPREAD k) % 4096
def State.drawSeq (s : State) (g : Nat) : Nat × State :=
  let v := s.fld F.PRED_SEQ.VALUE g
  (v, s.setFld F.PRED_SEQ.VALUE g ((v + 1) % 65536))

/-! ## Tags and trailers (R284, R285, R411, R412) -/

/-- LSDU size of a frame as IEC 62439-3 counts it: from after the type field to the FCS (PRESUMED, log 49). -/
def lsduSize (b : Bytes) : Nat := (b.length - tagEnd b - 2) % 4096

/-- The last six bytes are a PRP trailer of the frame. -/
def prpTrailer (b : Bytes) : Option (Nat × Nat) :=
  let i := b.length - 6
  let lan := beNat b (i + 2) 2 / 4096
  if b.length < 20 || beNat b (i + 4) 2 ≠ 0x88FB || (lan ≠ 0xA && lan ≠ 0xB) || beNat b (i + 2) 2 % 4096 ≠ lsduSize b then none
  else some (beNat b i 2, lan)

/-- The digest of R426. -/
def laneDigest (b : Bytes) (prp : Bool) : Nat :=
  let b := if prp && (prpTrailer b).isSome then b.take (b.length - 6) else b
  let i := tagEnd b
  let rest := b.drop i
  let rest := if beNat rest 0 2 = 0x892F then rest.drop 6 else rest
  crc32c 0 (b.take 12 ++ rest)

/-! ## Duplicate discard (R416 to R420) -/

/-- One window's decision: first copy, out of window, and the window after. -/
def ddCheck (w : Win) (q : Nat) : Bool × Bool × Win :=
  if !w.valid then (true, false, { h := q, hist := 1, valid := true }) else
  let d := sgn ((q + 65536 - w.h) % 65536) 16
  let n := d.natAbs
  if d > 0 then (true, false, { w with h := q, hist := if n ≥ 128 then 1 else (w.hist * 2 ^ n) % 2 ^ 128 ||| 1 })
  else if n ≥ 128 then (true, true, { w with h := q, hist := 1 })
  else if w.hist.testBit n then (false, false, w)
  else (true, false, { w with hist := w.hist ||| 2 ^ n })

/-- The state record of a source on a pair, allocated at its first frame (R418); none: the frame counts as a first copy. -/
def State.ddRecord (s : State) (k sa : Nat) : Option Nat × State :=
  let t := s.fld F.PRED_PAIR.DD_TABLE k
  let d := s.descAt t s.cur
  let key := sa + 281474976710656 * k
  if s.kindOf t ≠ 3 || s.keyW t d = 0 then (none, s.bump .PRED_DD_FULL k) else
  let b := s.exmBucket t d key
  if s.bankFenced b then (none, (s.bump .EXM_BANK_FENCED (b / 65536)).bump .PRED_DD_FULL k) else
  match s.exmHits t d key s.cur with
  | [(_, e)] => (some (e.result % 65536), s)
  | _ :: _ =>
    let (v, s) := s.fresh
    (some (v % 65536), s)
  | [] =>
    match (List.range (min 65536 (s.dd.length + 1))).find? fun i => (sfind s.dd i).isNone with
    | none => (none, s.bump .PRED_DD_FULL k)
    | some i => match s.exmSlot t d key with
      | none => (none, (s.bump .PRED_DD_FULL k).pulse 54)
      | some p => (some i, { s with
          exm := sset s.exm p { key := key, from_ := s.cur, table := t, desc := d, result := i }
          dd := sset s.dd i {} })

/-- Which window of a record. -/
inductive WinId where
  | deliver | fwdA | fwdB
  deriving DecidableEq, Repr

def Dd.win (x : Dd) : WinId → Win
  | .deliver => x.deliver
  | .fwdA => x.fwdA
  | .fwdB => x.fwdB
def Dd.setWin (x : Dd) (w : Win) : WinId → Dd
  | .deliver => { x with deliver := w }
  | .fwdA => { x with fwdA := w }
  | .fwdB => { x with fwdB := w }

/-- A window of a frame's record decides; without a record the copy is a first copy (R418, R420). -/
def State.ddDecide (s : State) (k : Nat) (i : Option Nat) (id : WinId) (q : Nat) : Bool × State :=
  match i with
  | none => (true, s)
  | some i =>
    let x := sget s.dd {} i
    let (first, oow, w) := ddCheck (x.win id) q
    let s := { s with dd := sset s.dd i { x.setWin w id with used := s.now } }
    (first, if oow then s.bump .PRED_OUT_OF_WINDOW k else s)

/-! ## The decision for a frame received on a pair (R411 to R422) -/

/-- What the redundancy unit makes of a frame: its number when it is redundant, whether its SAN-side copies go on, whether it
goes to the other ring port, and its state record. -/
structure RedDec where
  seq   : Option Nat := none
  pass  : Bool := true
  ring  : Bool := false
  rec_  : Option Nat := none
  gone  : Bool := false
  deriving DecidableEq, Repr

/-- The decision of a PRP pair (R412, R413, R421). -/
def State.redPrp (s : State) (f : Frame) (k lane : Nat) : RedDec × State :=
  match prpTrailer f.bytes with
  | none => ({}, s.bump .PRED_PRP_NO_TRAILER k)
  | some (q, lan) =>
    let s := if lan ≠ (if lane = 0 then 0xA else 0xB) then s.bump .PRED_WRONG_LAN k else s
    let (i, s) := s.ddRecord k (beNat f.bytes 6 6)
    let (first, s) := s.ddDecide k i .deliver q
    ({ seq := some q, pass := first, rec_ := i }, if first then s else s.bump .PRED_DUP (k * 2 + lane))

/-- The decision of an HSR pair (R411, R422): own says an FDB entry points the source at a SAN-side port, san that resolution
gives a single destination on the SAN side. -/
def State.redHsr (s : State) (f : Frame) (k lane : Nat) (own san : Bool) : RedDec × State :=
  let pred := sget f.fields 0 7
  if !bit pred 0 then ({ gone := true }, s.bump .PRED_HSR_UNTAGGED k) else
  let q := bits pred 16 16
  let (i, s) := s.ddRecord k (beNat f.bytes 6 6)
  let (first, s) := s.ddDecide k i .deliver q
  let s := if first then s else s.bump .PRED_DUP (k * 2 + lane)
  let d : RedDec := { seq := some q, pass := first, rec_ := i }
  if own || beNat f.bytes 6 6 == Config.ownMac % 281474976710656 then (d, s.bump .PRED_HSR_OWN k)
  else if san then (d, s)
  else if s.flag F.PRED_PAIR.HSR_MODE k then ({ d with ring := first }, s)
  else
    let (fwd, s) := s.ddDecide k i (if lane = 0 then .fwdB else .fwdA) q
    ({ d with ring := fwd }, s)

/-! ## IEEE 802.1CB recovery (R423, R424) -/

/-- Clear history bits that a shift by d moves past the history. -/
def lostBits (hist d hlen : Nat) : Nat := ((List.range d).filter fun j => !hist.testBit (hlen - 1 - j)).length

/-- vector_rcvy of function r: pass, and the state. -/
def State.vectorRcvy (s : State) (r q : Nat) : Bool × State :=
  let x := sget s.rcvy {} r
  let hlen := s.fld F.PRED_RCVY.HLEN_M1 r + 1
  let keep (s : State) (x : Rcvy) : State := ({ s with rcvy := sset s.rcvy r { x with at_ := s.now } } : State).bump .PRED_RCVY_PASSED r
  if x.takeAny then (true, keep s { rsn := q, hist := 1, takeAny := false }) else
  let d := sgn ((q + 65536 - x.rsn) % 65536) 16
  let n := d.natAbs
  if n ≥ hlen then (false, (s.bump .PRED_RCVY_ROGUE r).bump .PRED_RCVY_DISCARDED r)
  else if d ≤ 0 then
    if x.hist.testBit n then (false, s.bump .PRED_RCVY_DISCARDED r)
    else (true, (keep s { x with hist := x.hist ||| 2 ^ n }).bump .PRED_RCVY_OUT_OF_ORDER r)
  else
    let s := s.add .PRED_RCVY_LOST r (lostBits x.hist n hlen)
    let s := keep s { x with rsn := q, hist := (x.hist * 2 ^ n) % 2 ^ 128 ||| 1 }
    (true, if n ≠ 1 then s.bump .PRED_RCVY_OUT_OF_ORDER r else s)

/-- A frame whose filter has a recovery function (R423). -/
def State.recovery (s : State) (f : Frame) (filter : Option Nat) : Bool × State :=
  match filter with
  | none => (true, s)
  | some r =>
    if !s.flag F.PRED_RCVY.EN r then (true, s)
    else if bit (sget f.fields 0 7) 1 then s.vectorRcvy r (bits (sget f.fields 0 7) 16 16)
    else
      let s := s.bump .PRED_RCVY_UNTAGGED r
      if s.flag F.PRED_RCVY.UNTAGGED_PASS r then (true, s.bump .PRED_RCVY_PASSED r) else (false, s.bump .PRED_RCVY_DISCARDED r)

/-- RCVY_RESET_TIMEOUT (R424). -/
def execRcvyResetTimeout (dt : Nat) (i : Fin 4096) (s : State) : Out :=
  let s := s.advance dt
  let x := sget s.rcvy {} i
  if x.takeAny || s.now < x.at_ + 1000000 * max 1 (s.fld F.PRED_RCVY.RESET_MS i) then finish s
  else finish (({ s with rcvy := sset s.rcvy i { x with takeAny := true } } : State).bump .PRED_RCVY_RESETS i)

/-! ## The lane comparator's records (R426 to R428) -/

/-- A redundant frame reaches the comparator, its tail in: a first copy enters a record, a duplicate meets one. The answer says
that the frame is held for the comparison. -/
def State.cmpFrame (s : State) (fid : Nat) (f : Frame) (k lane q i : Nat) (first : Bool) : Bool × State :=
  if !s.flag F.PRED_PAIR.CMP_EN k || !bit (sget f.fields 0 7) 3 then (false, s) else
  let l := sget s.cmp [] f.pl
  let dig := laneDigest f.bytes (s.pairRole k == 1)
  if first then
    if l.length ≥ 2048 then (false, s.bump .PRED_CMP_SKIP k)
    else (false, { s with cmp := sset s.cmp f.pl (l ++ [{ pair := k, dd := i, seq := q, lane := lane, digest := dig, at_ := s.now }]) })
  else
    let wait := 1000 * max 1 (s.fld F.PRED_PAIR.CMP_WAIT_US k)
    let hit (c : Cmp) : Bool := c.pair == k && c.dd == i && c.seq == q && c.second.isNone && decide (s.now ≤ c.at_ + wait)
    match l.findIdx? hit with
    | none => (false, s.bump .PRED_CMP_NONE k)
    | some j =>
      let c := l.getD j { pair := 0, dd := 0, seq := 0, lane := 0, digest := 0, at_ := 0 }
      if c.lane = lane then (false, s.bump .PRED_CMP_SAME_LANE k)
      else (true, { s with cmp := sset s.cmp f.pl (l.set j { c with second := some dig, frame2 := some fid }) })

/-! ## The forget sweep (R419) -/

/-- Entries of DUP_DISCARD tables that are visible at CUR. -/
def State.ddEntries (s : State) : List (Nat × Entry) := s.exm.filter fun e => s.kindOf e.2.table == 3 && e.2.vis s.cur

/-- The record of an entry has not been used for FORGET_MS. -/
def State.ddStale (s : State) (e : Entry) : Bool :=
  match sfind s.dd (e.result % 65536) with
  | none => true
  | some x => decide (s.now ≥ x.used + 1000000 * max 1 (s.fld F.PRED_PAIR.FORGET_MS (e.key / 281474976710656 % 16)))

/-- DD_FORGET_SWEEP. -/
def execDdForgetSweep (dt : Nat) (s : State) : Out :=
  let s := s.advance dt
  let stale := s.ddEntries.filter fun e => s.ddStale e.2
  let s := stale.foldl (fun (s : State) e =>
    { s with exm := sset s.exm e.1 { e.2 with retired := true, until_ := s.cur }, dd := sdel s.dd (e.2.result % 65536) }) s
  finish { s with dd := s.dd.filter fun x => s.ddEntries.any fun e => e.2.result % 65536 == x.1 }

/-! ## Supervision and bypass (R431, R433) -/

/-- A supervision frame of IEC 62439-3 about a node (PRESUMED layout, log 81): destination, source, type 0x88FB, path and version,
sequence number, TLV. -/
def supervisionFrame (role : Nat) (src : Bytes) (q : Nat) (node : Nat) : Bytes :=
  toBE 0x01154E000100 6 ++ src ++ toBE 0x88FB 2 ++ toBE 1 2 ++ toBE q 2 ++ toBE (if role = 2 then 23 else 20) 1 ++ toBE 6 1 ++
    toBE node 6 ++ List.replicate 34 0

/-- One supervision frame of a pair through P43. -/
def State.supervise (s : State) (k : Nat) (own : Bytes) (node : Nat) : State :=
  let (q, s) := s.drawSeq (s.pairGen k (beNat own 0 6))
  match s.inject 43 (portPl (s.pairPort k 0) % 4) (supervisionFrame (s.pairRole k) own q node) with
  | some t => t
  | none => s

/-- The node a supervision frame that reaches firmware speaks of, behind VLAN tags and an HSR tag. -/
def supNode (b : Bytes) : Option Nat :=
  let i := tagEnd b
  let i := if beNat b i 2 = 0x892F then i + 6 else i
  if beNat b 0 5 = 0x01154E0001 && beNat b i 2 = 0x88FB then some (beNat b (i + 8) 6) else none

/-- Firmware's node table: one entry a pair and node with the instant it was last heard, kept 60 s (R432). -/
def State.heardNode (s : State) (p : Nat) (b : Bytes) : State :=
  let l := s.nodes.filter fun e => decide (s.now < e.2 + 60000000000)
  match s.pairOf p, supNode b with
  | some (k, _), some a => { s with nodes := sset l (a + 281474976710656 * k) s.now }
  | _, _ => { s with nodes := l }

/-- SUPERVISION_TX: every 2 s, for the module and for each SAN-side source the FDB records. -/
def execSupervisionTx (dt : Nat) (k : Fin 16) (s : State) : Out :=
  let s := s.advance dt
  if s.pairRole k = 0 || !s.ready 0 || s.now < sget s.supAt 0 k + 2000000000 then finish s else
  let s := { s with supAt := sset s.supAt k s.now, nodes := s.nodes.filter fun e => decide (s.now < e.2 + 60000000000) }
  let own := toBE Config.ownMac 6
  let san := s.exm.filter fun e => s.kindOf e.2.table == 1 && e.2.vis s.cur && !bit e.2.result 15 &&
    (e.2.owner != s.member || s.sanPort (e.2.dest % 64))
  finish (san.foldl (fun s e => s.supervise k own (e.2.key % 281474976710656)) (s.supervise k own (beNat own 0 6)))

/-- BYP_DRV_ON (R433). -/
def execBypDrvOn (dt : Nat) (d : Fin 2) (s : State) : Out :=
  let s := s.advance dt
  match sfind s.bypAt d with
  | none => finish s.bypSettle
  | some t =>
    if s.bypCond d && s.now ≥ t + 10000000 then
      finish ({ s with pins := { s.pins with byp := ins s.pins.byp d } } : State).bypSettle
    else finish s.bypSettle

end Sys2Proof.Machine
end

