-- ==== Sys2Proof/Machine/Rewrite.lean ====
section
/-! DEFINITION. Rewrite: the stages a copy passes on its way out, with the versioned tables they read (chapter 07). -/
namespace Sys2Proof.Machine

/-! ## The working copy -/

/-- A header of the stack, at its place in the working copy (R274): the shifts of earlier operations are tracked. The place of an HSR tag,
R-tag or SecTAG is behind its type field. -/
structure Hdr where
  typ  : Nat
  off  : Nat
  len  : Nat
  here : Bool := true
  deriving DecidableEq, Repr

/-- A stack entry (R90) of a frame's bytes. -/
def hdrOf (b : Bytes) (h : Nat) : Hdr :=
  let t := h % 256
  let o := bits h 8 10
  let tag := if t = 3 then 0x892F else if t = 4 then 0xF1C1 else if t = 5 then 0x88E5 else 65536
  { typ := t, off := if beNat b o 2 = tag then o + 2 else o, len := bits h 18 10 }

/-- A copy in rewrite. `b` holds the bytes that have arrived and `len` counts all of them; on a replay the numbers drawn before
are used again. -/
structure Rw where
  s      : State
  f      : Frame
  fid    : Nat
  port   : Nat
  b      : Bytes
  len    : Nat
  hs     : List Hdr
  full   : Bool := false               -- R277 has stopped the lists
  bad    : Bool := false               -- R154, R155, R306: undefined contents
  dead   : Bool := false               -- discarded
  toP43  : Bool := false               -- R276: a copy goes to P43
  auth   : Option (Nat × Nat) := none  -- algorithm and key identifier of stage 4
  noCt   : Bool := false               -- R303
  replay : Bool := false
  draws  : List Nat := []
  drawn  : List Nat := []
  trailer : Bytes := []
  sec    : Option SecTx := none        -- stage 6 protects the copy
  prw    : Nat := 0                    -- PORT_RW of the port at the copy's dequeue
  msec   : Nat := 0                    -- MSEC_CTL of the port at the copy's dequeue (R291)

/-- A byte string as a number, and back: a leading byte 1 keeps its length. -/
def packBytes (b : Bytes) : Nat := beNat (1 :: b) 0 (b.length + 1)
def unpackBytes (v : Nat) : Bytes := toBE v (Nat.log2 v / 8)

/-- Use a number: the one drawn before on a replay, otherwise n with the state after the draw. -/
def Rw.draw (x : Rw) (n : Nat) (s : State) : Nat × Rw :=
  if x.replay then (x.draws.head?.getD 0, { x with draws := x.draws.tail })
  else (n, { x with s := s, drawn := x.drawn ++ [n] })

/-- Count an event of the copy's port. -/
def Rw.count (x : Rw) (c : Ctr) : Rw := { x with s := x.s.bump c x.port }

/-- Insert bytes at a position. -/
def Rw.ins (x : Rw) (i : Nat) (y : Bytes) : Rw :=
  { x with b := if i ≤ x.b.length then x.b.take i ++ y ++ x.b.drop i else x.b
           len := x.len + y.length
           hs := x.hs.map fun h => if h.off ≥ i then { h with off := h.off + y.length } else h }

/-- Remove n bytes at a position. -/
def Rw.rm (x : Rw) (i n : Nat) : Rw :=
  { x with b := x.b.take i ++ x.b.drop (i + n)
           len := x.len - n
           hs := x.hs.map fun h => if h.off ≥ i + n then { h with off := h.off - n }
             else if h.off ≥ i then { h with here := false } else h }

/-- Overwrite bytes at a position. -/
def Rw.put (x : Rw) (i : Nat) (y : Bytes) : Rw := { x with b := (splice x.b i y).take (max x.b.length i) }

/-- The outermost header of a type. -/
def Rw.outer (x : Rw) (t : Nat) : Option Hdr :=
  (x.hs.filter fun h => h.here && h.typ == t).foldl (fun (a : Option Hdr) h =>
    match a with | none => some h | some y => if h.off < y.off then some h else a) none

/-- The header an index of HDR_INDEX or AUTH names; an index at or above HSP other than 31 leaves the copy undefined (R155). -/
def Rw.named (x : Rw) (i : Nat) : Option Hdr × Rw :=
  if i = 31 then (none, x) else match x.hs[i]? with
  | some h => if i < x.f.hdrs.length then (if h.here then some h else none, x) else (none, { x with bad := true })
  | none => (none, { x with bad := true })

/-- Metadata of the frame. -/
def Rw.meta (x : Rw) (i : Nat) : Nat := sget x.f.fields 0 i

/-- RFC 1624: a checksum after a 16-bit word has changed. -/
def csumFix (hc old new : Nat) : Nat :=
  let t := (65535 - hc) + (65535 - old) + new
  let t := t % 65536 + t / 65536
  65535 - (t % 65536 + t / 65536) % 65536

/-- Change one 16-bit word under a checksum. -/
def Rw.word (x : Rw) (i new csum : Nat) : Rw :=
  let old := beNat x.b i 2
  let hc := beNat x.b csum 2
  (x.put i (toBE new 2)).put csum (toBE (csumFix hc old new) 2)

/-- Priority and DEI of a tag pushed from metadata (Table 7-3). -/
def Rw.pcp (x : Rw) : Nat :=
  let m := x.meta 4
  if bit m 4 then x.s.fld F.SCHED_PORT.DEF_PRIO x.f.port * 8192 else bits m 0 3 * 8192 + bits m 3 1 * 4096

/-- Position of a tag that follows the outermost VLAN tag, or the source address (R284, R286). -/
def Rw.afterVlan (x : Rw) : Nat := match x.outer 2 with | some h => h.off + 2 | none => 12

/-! ## Keys of IEC 62351-6 (R299, R638) -/

/-- An authentication value over bytes, with the key current at the copy's dequeue (R295); without a qualifying key it is free (DESIGN
CHOICE: R638 gives none). -/
def Rw.value (x : Rw) (alg kid : Nat) (cover : Bytes) : Bytes × Rw :=
  let (k, x) := x.draw (match x.s.groupKeys kid (ptpSec x.s.ptp) with | [] => 0 | k :: _ => packBytes k.key) x.s
  if k = 0 then let (b, s) := x.s.freshBytes (macLen alg); (b, { x with s := s })
  else (fit (macLen alg) (Config.authValue alg (unpackBytes k) cover), x)

/-- A number for an RTAG_PUSH from generator g. Both copies of a frame on a pair take the same ones, in order (R287): the second copy uses those
the first has drawn. -/
def Rw.rtagNo (x : Rw) (g : Nat) : Nat × Rw :=
  match x.s.pairOf x.port, sfind x.s.frames x.fid with
  | some (k, lane), some f =>
    let of (l : Nat) : List RtagNo := f.rtags.filter fun e => e.pair == k && e.lane == l && e.gen == g
    let (q, s) := match (of (1 - lane))[(of lane).length]? with
      | some e => (e.num, x.s)
      | none => x.s.drawSeq g
    x.draw q (s.modFrame x.fid fun f => { f with rtags := f.rtags ++ [RtagNo.mk k lane g q] })
  | _, _ =>
    let (q, s) := x.s.drawSeq g
    x.draw q s

/-! ## Templates (R281 to R283, R306) -/

/-- Fields of a template's control word. -/
structure Tmpl where
  bytes : Bytes
  len   : Nat
  kind  : Nat
  ip    : Nat
  ses   : Nat
  csum  : Bool
  sign  : Bool
  deriving DecidableEq, Repr

def tmplOf (w : List Word) : Tmpl :=
  let c := wAt w 16
  let k := bits c 7 2
  let len := bits c 0 7
  { bytes := fit len (wordsBytes (w.take 16)), len := len, kind := if k = 3 then 0 else k, ip := bits c 9 6, ses := bits c 15 6,
    csum := bit c 21, sign := bit c 22 }

/-- Length of the IP header of a template. -/
def Tmpl.ipLen (t : Tmpl) : Nat := if t.kind = 1 then 4 * (byteAt t.bytes t.ip % 16) else 40

/-- The offsets locate headers of the template's KIND within LEN (R306): an IP header behind the addresses, of the version KIND names, that
carries UDP; a session header, behind the UDP header where there is one, of 30 B and of a type IEC 61850-90-5 knows (PRESUMED, log 225). -/
def Tmpl.ok (t : Tmpl) : Bool :=
  let v4 := t.kind == 1
  decide (14 ≤ t.len) && decide (t.len ≤ 64) &&
  (t.kind == 0 || (decide (14 ≤ t.ip) && byteAt t.bytes t.ip / 16 == (if v4 then 4 else 6) && decide (t.ipLen ≥ 20) &&
    byteAt t.bytes (t.ip + (if v4 then 9 else 6)) == 17 && decide (t.ip + t.ipLen + 8 ≤ t.len))) &&
  (t.ses == 0 || (decide (t.ses + 30 ≤ t.len) && decide ((if t.kind == 0 then 14 else t.ip + t.ipLen + 8) ≤ t.ses) &&
    [0xA0, 0xA1, 0xA2, 0xA3].contains (byteAt t.bytes t.ses)))

/-- Algorithm and key identifier a session header names; positions of IEC 61850-90-5 (PRESUMED, log 47). -/
def Tmpl.alg (t : Tmpl) : Nat := byteAt t.bytes (t.ses + 21)
def Tmpl.kid (t : Tmpl) : Nat := byteAt t.bytes (t.ses + 25)
def Tmpl.signs (t : Tmpl) : Bool := t.sign && t.ses != 0 && decide (1 ≤ t.alg) && decide (t.alg ≤ 3)

/-- UDP checksum over a pseudo-header. -/
def udpSum (b : Bytes) (ip udp : Nat) (v6 : Bool) : Nat :=
  let n := b.length - udp
  let pseudo := if v6 then (b.drop (ip + 8)).take 32 ++ toBE n 4 ++ toBE 17 4 else (b.drop (ip + 12)).take 8 ++ toBE 17 2 ++ toBE n 2
  let c := inetSum (pseudo ++ b.drop udp)
  if c = 0 then 65535 else c

/-- A template in place of the bytes before an offset; a VLAN tag it carries after its source address is the copy's outermost. -/
def Rw.template (x : Rw) (t : Tmpl) (cut : Nat) : Rw :=
  let x := (x.rm 0 cut).ins 0 t.bytes
  if isVlan (beNat t.bytes 12 2) && decide (18 ≤ t.len) then { x with hs := x.hs ++ [{ typ := 2, off := 14, len := 4 }] } else x

/-- Put a template before the bytes that remain and fill its fields (R281). -/
def Rw.encap (x : Rw) (n : Nat) (t : Tmpl) (cut : Nat) : Rw :=
  let x := x.template t cut
  let x := { x with noCt := x.noCt || t.kind == 2 || t.csum || t.sign, bad := x.bad || !t.ok }
  let sig := if t.signs then 2 + macLen t.alg else 0
  let udp := t.ip + t.ipLen
  let x := if t.ses = 0 then x else
    let num := x.s.fld F.RW_SPDU_NUM.NUM n
    let (num, x) := x.draw num (x.s.setFld F.RW_SPDU_NUM.NUM n ((num + 1) % 4294967296))
    ((x.put (t.ses + 4) (toBE (x.len - t.ses - 8) 4)).put (t.ses + 8) (toBE num 4)).put (t.ses + 26) (toBE (x.len - t.ses - 30) 4)
  let x := if t.kind = 0 then x else x.put (udp + 4) (toBE (x.len + sig - udp) 2)
  let x := if t.signs then
      let (ok, s) := if x.replay then (true, x.s) else x.s.hmac t.alg 640
      let x := { x with s := s }
      let x := if ok then x else { x.count .AUTH_GEN_OVERLOAD with dead := true }
      let (v, x) := x.value t.alg t.kid (x.b.drop t.ses)
      x.ins x.len ([0x85, BitVec.ofNat 8 (macLen t.alg)] ++ v)
    else x
  if t.kind = 1 then
    let x := (x.put (t.ip + 2) (toBE (x.len - t.ip) 2)).put (t.ip + 10) [0, 0]
    let x := x.put (t.ip + 10) (toBE (inetSum ((x.b.drop t.ip).take t.ipLen)) 2)
    let x := x.put (udp + 6) [0, 0]
    if t.csum then x.put (udp + 6) (toBE (udpSum x.b t.ip udp false) 2) else x
  else if t.kind = 2 then
    let x := (x.put (t.ip + 4) (toBE (x.len - t.ip - 40) 2)).put (udp + 6) [0, 0]
    x.put (udp + 6) (toBE (udpSum x.b t.ip udp true) 2)
  else x

/-! ## The operations (Table 7-3) -/

/-- The outer IP header: its offset and whether it is IPv4. -/
def Rw.ip (x : Rw) : Option (Nat × Bool) × Rw :=
  let (h, x) := x.named (x.meta 6 % 32)
  match h with
  | none => (none, x)
  | some h =>
    if h.typ ≠ 6 && h.typ ≠ 7 then (none, x)
    else (some (h.off, h.typ == 6), x)

/-- Header HIDX of an ENCAP or DECAP: 0xFF selects the substation header. -/
def Rw.hidx (x : Rw) (i : Nat) : Option Hdr × Rw :=
  if i = 255 then x.named (bits (x.meta 6) 16 5)
  else match x.hs[i]? with
    | some h => (if i < x.f.hdrs.length && h.here then some h else none, x)
    | none => (none, x)

/-- Size of the extension stage 4 writes. -/
def authSize (alg kid : Nat) : Nat := (Config.authHead alg kid).length + macLen alg

/-- Size of the extension already present. -/
def Rw.oldExt (x : Rw) : Nat := match x.named (x.meta 8 % 32) with | (some h, _) => h.len | _ => 0

/-- One operation: skipped when its header is absent (R275). -/
def Rw.op (x : Rw) (opc hidx a16 a32 : Nat) : Bool × Rw :=
  match opc with
  | 0 => (true, x)
  | 1 =>
    let tci := if bit a16 0 then a32 % 4096 + x.pcp else a32 % 65536
    let x := x.ins 12 (toBE (a32 / 65536 % 65536) 2 ++ toBE tci 2)
    (true, { x with hs := x.hs ++ [{ typ := 2, off := 14, len := 4 }] })
  | 2 => match x.outer 2 with
    | none => (false, x)
    | some h => (true, x.rm (h.off - 2) 4)
  | 3 => match x.outer 2 with
    | none => (false, x)
    | some h =>
      let t := beNat x.b h.off 2
      let t := if bit a16 0 then putBits t 0 12 (a32 % 4096) else t
      let t := if bit a16 1 then putBits t 13 3 (bits a32 12 3) else t
      let t := if bit a16 2 then putBits t 12 1 (bits a32 15 1) else t
      (true, x.put h.off (toBE t 2))
  | 4 =>
    let mac (i : Nat) : Bytes := toBE (wNat (x.s.verAt .RW_MAC i x.f.gen) 0 2 % 281474976710656) 6
    let x := if bit a16 0 then x.put 0 (mac (a32 % 65536)) else x
    (true, if bit a16 1 then x.put 6 (mac (a32 / 65536 % 65536)) else x)
  | 5 => match x.ip with
    | (none, x) => (false, x)
    | (some (o, v4), x) =>
      let ttl := byteAt x.b (if v4 then o + 8 else o + 7)
      if ttl ≤ 1 then (true, { x.count .RW_TTL_EXPIRED with dead := true, toP43 := bit a16 0 })
      else if v4 then (true, x.word (o + 8) (beNat x.b (o + 8) 2 - 256) (o + 10))
      else (true, x.put (o + 7) (toBE (ttl - 1) 1))
  | 6 => match x.ip with
    | (none, x) => (false, x)
    | (some (o, v4), x) =>
      let w := beNat x.b o 2
      if v4 then (true, x.word o (putBits w 2 6 (a32 % 64)) (o + 10)) else (true, x.put o (toBE (putBits w 6 6 (a32 % 64)) 2))
  | 7 => match x.hidx hidx with
    | (none, x) => (false, x)
    | (some h, x) => (true, x.encap (a32 % 4096) (tmplOf (x.s.verAt .RW_ENCAP (a32 % 4096) x.f.gen)) h.off)
  | 8 => match x.hidx hidx with
    | (none, x) => (false, x)
    | (some h, x) =>
      let t := tmplOf (x.s.verAt .RW_ENCAP (a32 % 4096) x.f.gen)
      (true, { x.template t h.off with bad := x.bad || !t.ok || t.kind != 0 })
  | 9 =>
    let (q, x) := x.rtagNo (a32 % 4096)
    let i := x.afterVlan
    let x := x.ins i (toBE 0xF1C1 2 ++ [0, 0] ++ toBE q 2)
    (true, { x with hs := x.hs ++ [{ typ := 4, off := i + 2, len := 6 }] })
  | 10 => match x.outer 4 with
    | none => (false, x)
    | some h => (true, x.rm (h.off - 2) 6)
  | 11 => match x.named (bits (x.meta 6) 16 5) with
    | (none, x) => (false, x)
    | (some h, x) =>
      let alg := a16 % 8
      if (h.typ ≠ 13 && h.typ ≠ 14) || macLen alg = 0 then (false, x) else (true, { x with auth := some (alg, bits a16 8 8) })
  | _ => (true, x.count .RW_BAD_OP)

/-- Growth so far: the working length, with the extension stage 4 will write. -/
def Rw.size (x : Rw) : Int := (x.len : Int) + (match x.auth with | some (a, k) => (authSize a k : Int) - x.oldExt | none => 0)

/-- One operation of a list, under R275 and R277. -/
def Rw.step (base : Int) (x : Rw) (o : Nat × Nat × Nat × Nat) : Rw :=
  if x.dead then x
  else if x.full then x.count .RW_GROWTH
  else
    let (done, y) := x.op o.1 o.2.1 o.2.2.1 o.2.2.2
    if !done then { y.count .RW_SKIP with hs := x.hs }
    else if y.size > x.size && y.size > base + 128 then { x.count .RW_GROWTH with full := true, noCt := true }
    else y

/-- Operations of a list entry (Table 7-2). -/
def listOps (w : List Word) : List (Nat × Nat × Nat × Nat) :=
  (List.range (min 8 (wAt w 0 % 16))).map fun k =>
    let a := wAt w (1 + 2 * k)
    (bits a 0 8, bits a 8 8, bits a 16 16, wAt w (2 + 2 * k))

/-- Stages 1 and 2 (R266, R274): the frame list, then the port list. -/
def Rw.lists (x : Rw) (frameList : Option Nat) : Rw :=
  let l1 := match frameList with | some i => listOps (x.s.verAt .RW_LIST i x.f.gen) | none => []
  let l2 := if bit x.prw 16 then listOps (x.s.verAt .RW_LIST (bits x.prw 0 16) x.f.gen) else []
  (l1 ++ l2).foldl (Rw.step x.len) x

/-- Stage 3: marking, then untagging (R259, R278). -/
def Rw.mark (x : Rw) (dei : Bool) : Rw :=
  match x.outer 2 with
  | none => x
  | some h =>
    let x := if dei then x.put h.off (toBE (putBits (beNat x.b h.off 2) 12 1 1) 2) else x
    if bit x.prw 17 && beNat x.b h.off 2 % 4096 == bits x.prw 18 12 then x.rm (h.off - 2) 4 else x

/-- Stage 4 (R294, R295): the extension at the end of the APDU, the lengths, then the value. Places of the extension-length byte and
of the value are those of IEC 62351-6 (PRESUMED, log 46). -/
def Rw.authenticate (x : Rw) : Rw :=
  match x.auth with
  | none => x
  | some (alg, kid) =>
    let (ok, s) := if x.replay then (true, x.s) else x.s.hmac alg 640
    let x := { x with s := s }
    if !ok then { x.count .AUTH_GEN_OVERLOAD with dead := true } else
    match x.named (bits (x.meta 6) 16 5) with
    | (none, x) => x
    | (some h, x) =>
      let (oldH, x) := x.named (x.meta 8 % 32)
      let old := match oldH with | some o => o.len | none => 0
      let len := beNat x.b (h.off + 2) 2
      let at_ := match oldH with | some o => o.off | none => h.off + len
      let x := match oldH with | some o => x.rm o.off o.len | none => x
      let head := Config.authHead alg kid
      let new := authSize alg kid
      let x := (x.put (h.off + 2) (toBE (len - old + new) 2)).put (h.off + 5) (toBE new 1)
      let cover := ((x.b.take at_) ++ head).drop h.off
      let (v, x) := x.value alg kid cover
      x.ins at_ (head ++ v)

/-- Pad to n bytes. -/
def Rw.pad (x : Rw) (n : Nat) : Rw := if x.len < n then x.ins x.len (List.replicate (n - x.len) 0) else x

/-- An HSR tag (R284). -/
def Rw.hsrTag (x : Rw) (netId lane q : Nat) : Rw :=
  let i := x.afterVlan
  let size := (x.len - i + 4) % 4096
  x.ins i (toBE 0x892F 2 ++ toBE ((netId * 2 + lane) % 16 * 4096 + size) 2 ++ toBE q 2)

/-- Stage 5 (R284, R285, R404 to R409). -/
def Rw.redundancy (x : Rw) (r : RedOut) : Rw :=
  match r with
  | .keep => x
  | .quad net lane => match x.outer 3 with
    | some h => x.put h.off (toBE (putBits (beNat x.b h.off 2) 12 4 (net * 2 + lane)) 2)
    | none => x
  | r =>
    let x := match x.f.red with
      | none => x
      | some d =>
        if d.hsr then match x.outer 3 with | some h => x.rm (h.off - 2) 6 | none => x
        else if x.b.length = x.len then x.rm (x.len - 6) 6 else { x with len := x.len - 6 }
    match r with
    | .hsr net lane q => x.hsrTag net lane q
    | .prp lane q =>
      let x := x.pad 60
      let size := (x.len + 6 - tagEnd x.b - 2) % 4096
      let t := toBE q 2 ++ toBE ((10 + lane) * 4096 + size) 2 ++ toBE 0x88FB 2
      { x.ins x.len t with trailer := t }
    | _ => x

/-! ## PTP (R455 to R459) -/

/-- The PTP header of an event message: its offset. -/
def Rw.ptpHdr (x : Rw) : Option Nat := if bit (x.meta 5) 9 then (x.outer 12).map (·.off) else none

/-- The enabled domain of a PTP message (Table 11-4). -/
def State.ptpDom (s : State) (num : Nat) : Option Nat :=
  (List.range 4).find? fun d => s.flag F.TIME_DOM.EN d && s.fld F.TIME_DOM.DOMAIN_NUM d == num

/-- A front-panel port takes part in a domain. -/
def State.inDom (s : State) (p d : Nat) : Bool := decide (p < 40) && bit (s.fld F.TIME_PORT.DOM_EN p) d

/-- Residence time of a forwarded event message in units of 2^-16 ns: egress timestamp less ingress timestamp, scaled (R457). -/
def State.residence (s : State) (f : Frame) (port d : Nat) : Int :=
  let res : Int := ((s.ptp : Int) - f.tsPtp) * 65536 + s.txDelay port - f.tsSub
  if s.flag F.TIME_DOM.RATIO_EN d then res + res * sgn (s.reg .TIME_DOM d 1) 32 / 1099511627776 else res

/-- Its correction: on a P2P domain a Sync message also takes the ingress port's LINK_DELAY (R457). -/
def State.correction (s : State) (f : Frame) (port d msgType : Nat) : Int :=
  let res := s.residence f port d
  if s.flag F.TIME_DOM.P2P d && msgType = 0 then res + (s.reg .TIME_PORT f.port 0 * 256 : Nat) else res

/-- A transparent-clock correction in flight, with the IPv4 UDP checksum (R457); the two-step FIFO entry of the copy (R459). -/
def Rw.ptp (x : Rw) : Option TxTs × Rw :=
  match x.ptpHdr with
  | none => (none, x)
  | some o =>
    let mt := byteAt x.b o % 16
    let dom := x.s.ptpDom (byteAt x.b (o + 4))
    let tc := match dom with | some d => x.s.inDom x.f.port d && x.s.inDom x.port d | none => false
    let d := dom.getD 0
    let c := if tc then x.s.correction x.f x.port d mt else 0
    let r := if tc then x.s.residence x.f x.port d else 0
    let e : TxTs := { seqId := beNat x.b (o + 30) 2, msgType := mt, dom := d, egress := stampNs x.s.ptp (x.s.txDelay x.port), residence := (r / 65536).toNat }
    let (k, x) := x.draw (if !tc || !x.s.flag F.TIME_DOM.ONE_STEP d || (x.outer 7).isSome then 0 else 1 + unsgn c 64) x.s
    if k = 0 then (some e, x) else
    let old := (x.b.drop (o + 8)).take 8
    let new := toBE ((beNat old 0 8 + (k - 1)) % 18446744073709551616) 8
    let x := match x.outer 9 with
      | none => x.put (o + 8) new
      | some u =>
        let hc := beNat x.b (u.off + 6) 2
        let hc' := (List.range 4).foldl (fun h i => csumFix h (beNat old (2 * i) 2) (beNat new (2 * i) 2)) hc
        let x := x.put (o + 8) new
        if hc = 0 then x else x.put (u.off + 6) (toBE hc' 2)
    (some e, x)

/-! ## MACsec (R289 to R292) -/

/-- Numbers left on a transmit SA. -/
def pnLeft (a : TxSa) : Nat := 18446744073709551616 - a.nextPn

/-- MSEC_PN_NEAR of a port (Table 7-7). -/
def State.pnNear (s : State) (p : Nat) : Bool :=
  s.flag F.MSEC_CTL.TX_EN p &&
  decide (((sfind s.txSa (p * 4 + s.fld F.MSEC_CTL.TX_AN p)).map pnLeft).getD 0 < 2 ^ s.fld F.MSEC_CTL.PN_EXP p)

/-- A commit of MSEC_CTL[p] that changes TX_AN or sets TX_EN makes an SA current: it is usable when its key is installed by then (R292, R636);
MSEC_PN_NEAR follows. A commit of TX_EN alone counts as one of a new TX_AN (DESIGN CHOICE, log 229). -/
def State.saCommitted (was s : State) (p : Nat) : State :=
  let an := s.fld F.MSEC_CTL.TX_AN p
  let fresh := was.fld F.MSEC_CTL.TX_AN p != an || (!was.flag F.MSEC_CTL.TX_EN p && s.flag F.MSEC_CTL.TX_EN p)
  let s := if fresh then { s with txSa := (match sfind s.txSa (p * 4 + an) with | some a => sset s.txSa (p * 4 + an) { a with usable := true } | none => s.txSa) } else s
  s.irqSignal (208 + p) (s.pnNear p)

/-- Stage 6 takes part: the copy is for the controlled port. -/
def Rw.controlled (x : Rw) : Bool := bit x.msec 0 && beNat x.b (tagEnd x.b) 2 != 0x888E && !(isPtp x.b && bit x.msec 5)

/-- The copy's association number, key and packet number (R290, R291); none where no number can be taken (R292). -/
def Rw.takePn (x : Rw) : Option (Bytes × Nat) × Rw :=
  let i := x.port * 4 + bits x.msec 2 2
  if x.replay then
    let (k, x) := x.draw 0 x.s
    let (pn, x) := x.draw 0 x.s
    (some (unpackBytes k, pn), x)
  else match sfind x.s.txSa i with
  | none => (none, { x.count .MSEC_TX_NO_SA with dead := true })
  | some a =>
    if !a.usable then (none, { x.count .MSEC_TX_NO_SA with dead := true })
    else if a.nextPn ≥ 18446744073709551616 then (none, { x.count .MSEC_TX_PN_EXHAUST with dead := true })
    else
      let s : State := { x.s with txSa := sset x.s.txSa i { a with nextPn := a.nextPn + 1 } }
      let s := if s.pnNear x.port then s.irqSignal (208 + x.port) true else s
      let (_, x) := x.draw (packBytes a.key) s
      let (pn, x) := x.draw a.nextPn s
      (some (a.key, pn), x)

/-- Stage 6 (R290 to R292): SecTAG, protected data and ICV. The layout of the SecTAG is that of IEEE 802.1AE (PRESUMED, log 48). -/
def Rw.macsec (x : Rw) : Rw :=
  if !x.controlled then x else
  match x.takePn with
  | (none, x) => x
  | (some (key, pn), x) =>
    let sc := bit x.msec 4
    let short := x.len - 12
    let tag := toBE 0x88E5 2 ++ toBE (12 + bits x.msec 2 2 + (if sc then 32 else 0)) 1 ++
      toBE (if short < 48 then short else 0) 1 ++ toBE (pn % 4294967296) 4 ++ (if sc then fit 8 (Config.sci x.port) else [])
    let y := SecTx.mk key pn (x.b.take 12 ++ tag) (x.b.drop 12)
    { x with b := y.sent (x.b.length = x.len), len := x.len + tag.length + 16, sec := some y }

/-! ## The whole rewrite (R264 to R267, R300) -/

/-- FLEN a copy is rewritten with: its frame's own, or the largest claimed end before the tail (R301). -/
def Frame.claim (f : Frame) : Nat := if f.tail then f.bytes.length else ((f.maxE.map (·.1)).getD f.bytes.length)

/-- The working copy of a frame for a port. -/
def rwStart (s : State) (f : Frame) (fid port : Nat) : Rw :=
  { s := s, f := f, fid := fid, port := port, b := f.bytes, len := f.claim, hs := f.hdrs.map (hdrOf f.bytes), bad := !f.hdrsFit }

/-- Stages 1 to 7 of Table 7-1 but for the FCS: the two-step entry of an event message, and the copy. Contents the spec leaves
undefined are free bytes. -/
def Rw.run (x : Rw) (cp : Copy) : Option TxTs × Rw :=
  let (w, x) := x.draw (if x.port < 40 then x.s.reg .PORT_RW x.port 0 else 0) x.s
  let (m, x) := x.draw (if x.port < 32 then x.s.reg .MSEC_CTL x.port 0 else 0) x.s
  let x := { x with prw := w, msec := m }
  let x := ((x.lists cp.rewrite).mark cp.markDei)
  if x.dead then (none, x) else
  let x := x.authenticate
  if x.dead then (none, x) else
  let (e, x) := (x.redundancy cp.red).ptp
  let x := (x.macsec).pad 60
  if x.bad then
    let (b, s) := x.s.freshBytes x.b.length
    (e, { x with b := b, s := s })
  else (e, x)

/-- A rewrite run for its length and its R303 flag only. -/
def State.rwLook (s : State) (f : Frame) (cp : Copy) : Nat × Bool :=
  let (_, x) := (rwStart s f cp.frame cp.port).run cp
  (x.len + 4, x.noCt)

/-- A copy rewritten again with its frame's tail, with the numbers it drew before. -/
def State.rwAgain (s : State) (f : Frame) (cp : Copy) (draws : List Nat) : Rw :=
  ({ rwStart s f cp.frame cp.port with replay := true, draws := draws }.run cp).2

end Sys2Proof.Machine
end

