-- ==== Sys2Proof/Machine/Queues.lean ====
section
/-! DEFINITION. The scheduler tree, the DWRR rounds, virtual output queues and the capture records (chapters 08, 09, 14). -/
namespace Sys2Proof.Machine

/-! ## The tree (R356 to R361) -/

/-- A node by level and number. -/
def nkey (l n : Nat) : Nat := l * 1048576 + n

/-- A link: slot, parent, weight. Slots 5 to 7: disconnected. -/
structure NodeLink where
  slot   : Nat
  parent : Nat
  weight : Nat
  deriving DecidableEq, Repr

/-- Strict slot or DWRR group of a class in the trees that firmware builds (R359). -/
def defSlot (c : Nat) : Nat := if c = 7 then 0 else if c = 6 then 1 else if c = 5 then 2 else if c = 4 then 3 else 4

/-- First virtual output queue (R593). -/
def voq0 : Nat := 524288

/-- The virtual output queue of a global port and class. -/
def voqOf (g c : Nat) : Nat := voq0 + 16 * g + c

/-- The link that the queues towards member m are bound to, for global port g (R588). -/
def State.boundLink (s : State) (m g : Nat) : Option Nat :=
  let l := (List.range 8).filter (bit (s.fld F.FAB_ROUTE.LINKS m))
  if l.isEmpty then none else l[exmHash g 15 0 % l.length]?

/-- Links of fabric nodes that firmware places while FAB_CTL.EN is set (R593, R600); node numbers and slots it does not give are
the model's (DESIGN CHOICE, log 76). -/
def State.fabLink (s : State) (l n : Nat) : Option NodeLink :=
  if !s.flag F.FAB_CTL.EN 0 then none
  else if l = 3 && n ≥ voq0 then
    let g := (n - voq0) / 16
    (s.boundLink (g / 64) g).map fun k => NodeLink.mk 4 (16 * (44 + k) + n % 16) 1
  else if l = 3 && 704 ≤ n && n < 832 then some (NodeLink.mk 4 (65408 + (n - 704)) 1)
  else if l = 2 && 704 ≤ n && n < 832 then some (NodeLink.mk 4 n 1)
  else if l = 2 && n ≥ 65408 && n < 65536 then some (NodeLink.mk 0 (n - 65408 + 704) 1)
  else if l = 1 && 704 ≤ n && n < 832 then some (NodeLink.mk (defSlot (n % 16)) (n / 16) 1)
  else none

/-- The link of a node in force. A fabric node's register keeps its own link once it has been written. -/
def State.nodeLink (s : State) (l n : Nat) : NodeLink :=
  let v := s.reg .SCHED_LINK ((l - 1) * 1048576 + n) 0
  let own : NodeLink := { slot := bits v 16 3, parent := if l = 1 then n / 16 else bits v 0 16, weight := bits v 19 10 + 1 }
  if v = Reg.SCHED_LINK.resetNat ((l - 1) * 1048576 + n) 0 then (s.fabLink l n).getD own else own

/-- Connected to a parent (R358). -/
def NodeLink.on (k : NodeLink) (l : Nat) : Bool := decide (k.slot ≤ 4) && (l != 2 || decide (k.parent < 1024))

/-- The nodes of a queue's path from L3 to L0: group, class node, port; none where it is disconnected. -/
def State.path (s : State) (q : Nat) : Option (Nat × Nat × Nat) :=
  let a := s.nodeLink 3 q
  let b := s.nodeLink 2 a.parent
  let c := s.nodeLink 1 b.parent
  if a.on 3 && b.on 2 && c.on 1 then some (a.parent, b.parent, b.parent / 16) else none

/-- Blocks in a queue (R390). -/
def State.qBlocks (s : State) (q : Nat) : Nat := ((s.queue q).map (·.k)).foldl (· + ·) 0

/-! ## DWRR rounds (R364, R365) -/

/-- Children of every node's DWRR group that hold a copy, as pairs of parent and child. -/
def State.dwrrPairs (s : State) : List (Nat × Nat) :=
  let q3 := s.queues.map (·.1)
  let l3 := q3.filter fun q => (s.nodeLink 3 q).on 3
  let n2 := (l3.map fun q => (s.nodeLink 3 q).parent).foldl ins []
  let l2 := n2.filter fun g => (s.nodeLink 2 g).on 2
  let n1 := (l2.map fun g => (s.nodeLink 2 g).parent).foldl ins []
  let l1 := n1.filter fun c => (s.nodeLink 1 c).on 1
  let of (l : Nat) (ns : List Nat) : List (Nat × Nat) :=
    (ns.filter fun n => (s.nodeLink l n).slot == 4).map fun n => (nkey (l - 1) (s.nodeLink l n).parent, nkey l n)
  of 3 l3 ++ of 2 l2 ++ of 1 l1

/-- Rounds follow the queues: a child without a copy, or moved, leaves its round with deficit 0; a new one joins at the end. -/
def State.syncRounds (s : State) : State :=
  let now := s.dwrrPairs
  let gone := s.rounds.flatMap fun e => e.2.filter fun c => !now.contains (e.1, c)
  let drr := gone.foldl sdel s.drr
  let kept := s.rounds.map fun e => (e.1, e.2.filter fun c => now.contains (e.1, c))
  let rounds := now.foldl (fun m pc => let l := sget m [] pc.1; if l.contains pc.2 then m else sset m pc.1 (l ++ [pc.2])) kept
  { s with drr := drr, rounds := rounds.filter fun e => !e.2.isEmpty }

/-! ## Messages and virtual output queues (R596, R597) -/

/-- Send a message towards member m, on the link its queues for port g are bound to. -/
def State.sendTo (s : State) (m g : Nat) (x : FabMsg) : State :=
  match s.boundLink m g with | some l => s.sendOn l x | none => s

/-- A virtual output queue has turned empty. -/
def State.voqEmpty (s : State) (e : Nat × Voq) : State :=
  if !e.2.on || !(s.queue e.1).isEmpty || e.2.credit < 0 then s else
  let g := (e.1 - voq0) / 16
  let s := { s with voq := sput s.voq {} e.1 {} }
  if g % 64 = 63 then s else s.sendTo (g / 64) g (.request g (e.1 % 16) false)

/-- After queues have changed: rounds, and the requests of virtual output queues that have emptied. -/
def State.settleQueues (s : State) : State := s.voq.foldl State.voqEmpty s.syncRounds

/-- Put a copy into a queue. -/
def State.enqueue (s : State) (q : Nat) (cp : Copy) : State :=
  let s := s.settleQueues
  let first := (s.queue q).isEmpty
  let s := (s.setQueue q (s.queue q ++ [cp])).syncRounds
  if q < voq0 || !first then s else
  let v := sget s.voq {} q
  let g := (q - voq0) / 16
  if v.on || g % 64 = 63 then s else
  ({ s with voq := sset s.voq q { v with on := true } } : State).sendTo (g / 64) g (.request g (q % 16) true)

/-! ## Ports and classes -/

/-- A received PFC timer pauses class c of port p (R53, Table 9-1). -/
def State.pfcPaused (s : State) (p c : Nat) : Bool :=
  decide (p < 32) && (List.range 8).any fun n => (sfind s.pfcPause (p * 8 + n)).isSome && bit (s.fld F.SCHED_PFC_MAP.CLASSES (p * 8 + n)) c

/-- Priority of a frame: metadata PCP, or the port priority when the tag is absent (R330, R352). -/
def State.prio (s : State) (f : Frame) : Nat :=
  let m := sget f.fields 0 4
  if bit m 4 then s.fld F.SCHED_PORT.DEF_PRIO f.port else m % 8

/-- A port handles a frame of a protection class (R736). -/
def State.protTouch (s : State) (p c : Nat) : State :=
  if p < 40 && bit (s.fld F.PWR_HOLD_CFG.PROT_CLASSES 0) c then
    { s with ports := sset s.ports p { sget s.ports {} p with protAt := s.now } } else s

/-! ## Capture records (R341 to R345) -/

/-- A capture record (Table 8-10). FLEN of a frame whose tail has not arrived is that of R301 (DEDUCED, log 64). -/
def capRecord (s : State) (f : Frame) (event port cls colour : Nat) : Bytes :=
  fit 128 f.bytes ++ wordsBytes [w32 (ptpNs f.tsPtp),
    w32 (ptpSec f.tsPtp % 65536 + 65536 * (f.claim % 16384) + 1073741824 * colour),
    w32 (f.src % 32768 + 32768 * b2n f.untrace + 65536 * f.gen),
    w32 (event + 8 * port + 512 * cls + 8192 * min 524287 ((s.frc - f.ts) / 32))]

/-- Write a capture record of a frame into a ring; where a read of its block fails the record is dropped (R327). -/
def State.capture (s : State) (ring fid : Nat) (f : Frame) (event port cls colour : Nat) : State :=
  let (ok, s) := s.blockRead fid f.capBad
  if !ok then s else
  s.ringPut .CAP_RING ring (capRecord s f event port cls colour) true .CAP_DROP .CAP_OVERRUN ring 202 1000

/-- Discard capture (R341). -/
def State.dropCapture (s : State) (f : Frame) (event : Nat) (cp : Copy) : State :=
  if s.flag F.ADM_DROPCAP.VALID 0 then s.capture (s.fld F.ADM_DROPCAP.RING 0) cp.frame f event (cp.port % 64) cp.cls cp.colour else s

end Sys2Proof.Machine
end

