-- ==== Sys2Proof/Machine/Admission.lean ====
section
/-! DEFINITION. From a resolved frame to its copies: multicast, port pairs, the fabric, cut-through and the admission steps
(R32, R41, R329 to R337, R404 to R410, R593 to R602). -/
namespace Sys2Proof.Machine

/-! ## The copies a frame asks for (R335, R336, R404, R405) -/

/-- A copy before admission. -/
def Copy.base (fid : Nat) (f : Frame) (r : Res) (port cls now : Nat) : Copy :=
  { frame := fid, port := port, cls := cls, colour := r.colour, k := f.blocks, rewrite := r.rewrite, markDei := r.markDei, at_ := now }

/-- Local ports and remote destinations (member, global port, group) of a resolution. A FABRIC out of range is counted. -/
def State.dests (s : State) (f : Frame) (r : Res) : List Nat × List (Nat × Nat × Bool) × State :=
  match r.dest with
  | none => ([], [], s)
  | some d =>
    if !r.group then
      if d / 64 = s.member then ([d % 64], [], s) else ([], [(d / 64, d, false)], s)
    else
      let w := s.verAt .MC_GROUP d f.gen
      let set := wAt w 0 + 4294967296 * (wAt w 1 % 4096)
      let hair := bit (wAt w 1) 12
      let ports := (List.range 44).filter fun p => bit set p && (hair || p != f.port)
      if r.noFabric || !bit (wAt w 2) 16 then (ports, [], s) else
      let fb := wAt w 2 % 65536
      if fb ≥ 16384 then (ports, [], s.bump .FAB_MCG_RANGE 0) else
      let m := wNat (s.verAt .FAB_MCG fb f.gen) 0 16
      (ports, ((List.range 512).filter fun i => bit m i && i != s.member).map fun i => (i, d, true), s)

/-- Redundancy treatment of copies to the lanes of pair k, and the state after a number is drawn (R404, R406, R408). -/
def State.pairOut (s : State) (f : Frame) (k : Nat) : (Nat → RedOut) × State :=
  let role := s.pairRole k
  let form (q : Nat) (lane : Nat) : RedOut := if role = 1 then .prp lane q else .hsr (s.fld F.PRED_PAIR.NET_ID k) lane q
  match f.red with
  | some d =>
    if d.hsr && role = 2 && s.flag F.PRED_PAIR.QUAD_EN d.pair && s.fld F.PRED_PAIR.QUAD_PEER d.pair = k then
      (fun lane => .quad (s.fld F.PRED_PAIR.NET_ID k) lane, s)
    else (form d.seq, s)
  | none =>
    let (q, s) := s.drawSeq (s.pairGen k (beNat f.bytes 6 6))
    (form q, s)

/-- Copies to local ports with pairs expanded: each pair is expanded once, and copies to the pair a frame came from are removed. -/
def State.expand (s : State) (fid : Nat) (f : Frame) (r : Res) (ports : List Nat) : List Copy × State :=
  let own := if f.port < 44 && !r.noLookup && !r.noFabric then (s.pairOf f.port).map (·.1) else none
  let plain := ports.filter fun p => (s.pairOf p).isNone
  let ks := ((ports.filterMap fun p => (s.pairOf p).map (·.1)).foldl ins []).filter fun k => some k != own
  let copies := plain.map fun p => Copy.base fid f r p r.cls s.frc
  let (more, s) := ks.foldl (fun (x : List Copy × State) k =>
    let (out, s) := x.2.pairOut f k
    (x.1 ++ (List.range 2).map (fun l => { Copy.base fid f r (s.pairPort k l) r.cls s.frc with red := out l }), s)) ([], s)
  (copies ++ more, s)

/-! ## Queues (R353, R354, R593, R600, R601) -/

/-- Index of SCHED_QSEL (Table 9-1). -/
def selIdx (f : Frame) (r : Res) (src : Nat) : Nat :=
  match src with
  | 1 => f.port
  | 2 => sget f.fields 0 3 % 4096
  | 3 => sget f.fields 0 32 % 65536
  | 4 => r.filter.getD 0
  | _ => 0

/-- The queue SCHED_QSEL selects. -/
def State.qsel (s : State) (f : Frame) (r : Res) (p c idx : Nat) : Nat :=
  let v := s.reg .SCHED_QSEL (p * 16 + c) 0
  let i := if r.noLookup then idx else selIdx f r (bits v 24 3)
  (bits v 0 20 + i % 2 ^ min 12 (bits v 20 4)) % 1048576

/-- The queue of a copy. -/
def State.queueOf (s : State) (f : Frame) (r : Res) (cp : Copy) : Nat :=
  match cp.voq with
  | some q => q
  | none =>
    if cp.port ≥ 44 then 16 * cp.port + cp.cls else
    match r.queue with
    | some q => match s.path q with
      | some (_, c, p) => if p = cp.port then q else s.qsel f r cp.port (c % 16) 0
      | none => s.qsel f r cp.port cp.cls 0
    | none => s.qsel f r cp.port cp.cls 0

/-- A copy towards another member (R593, R601). -/
def remoteCopy (fid : Nat) (f : Frame) (r : Res) (now : Nat) (d : Nat × Nat × Bool) : Copy :=
  let g := if d.2.2 then 64 * d.1 + 63 else d.2.1
  { Copy.base fid f r 63 r.cls now with dest := some (if d.2.2 then 32768 + d.2.1 else d.2.1), voq := some (voqOf g r.cls) }

/-! ## Cut-through (R63 to R65, R337) -/

/-- A copy of a frame whose tail has not arrived may cut through. -/
def State.mayCut (s : State) (f : Frame) (r : Res) (cp : Copy) (q : Nat) : Bool :=
  !f.tail && decide (cp.port < 40) && decide (f.port < 40) && cp.voq.isNone && s.flag F.ADM_CLASS.CT_ALLOW cp.cls &&
  (s.queue q).isEmpty && !(s.tx.any fun e => e.2.q == q) &&
  s.flag F.PORT_CFG.CT_EN f.port && s.flag F.PORT_CFG.CT_EN cp.port && decide (s.rate cp.port ≤ s.rate f.port) &&
  !s.flag F.PORT_STATUS.LPI_TX cp.port && !s.pfcPaused cp.port cp.cls && !f.macsec &&
  !bit (sget f.fields 0 5) 8 && !r.ctDeny && f.maxE.isSome && s.authNeed f != 1 && !f.lateBad && !(s.rwLook f cp).2

/-! ## Admission (R332) -/

/-- The destination of a copy is absent (R32, R41, R594, R766). -/
def State.absent (s : State) (cp : Copy) : Bool :=
  match cp.dest with
  | some d =>
    let m := (cp.voq.getD voq0 - voq0) / 16 / 64
    m ≥ 512 || !s.flag F.FAB_ROUTE.REACHABLE m || s.fld F.FAB_ROUTE.LINKS m = 0 ||
    (d < 32768 && !(sget s.peers {} m).ports.contains (d % 64))
  | none => !cp.transit && (!s.portExists cp.port || (cp.port < 40 && s.plFenced (portPl cp.port)))

/-- Index of a copy's EGRESS_ABSENT counter. -/
def absentIdx (cp : Copy) : Nat := match cp.dest with | some d => d % 64 | none => cp.port % 64

/-- Limit of a colour in a limit register. -/
def State.colourLim (s : State) (r : Reg) (i colour : Nat) : Nat := s.reg r i (min colour 2) % 524288

/-- Steps 3 and 4 for one copy: whether it passes, given how many have passed before it. -/
def State.roomFor (s : State) (f : Frame) (cp : Copy) (passed : Nat) : Bool :=
  if f.lossless.isSome then true else
  let own := match cp.voq with
    | some q => decide (s.qBlocks q + cp.k ≤ s.colourLim .FAB_VOQ_LIM cp.cls cp.colour)
    | none => cp.transit || decide (s.occ cp.port cp.cls + cp.k ≤ s.colourLim .ADM_EGR (cp.port * 16 + cp.cls) cp.colour)
  let lim := s.fld F.ADM_SHARED.SHARED_LIM 0
  own && ((s.flag F.ADM_CLASS.RESERVE cp.cls && !cp.transit) || lim == 0 ||
    decide (s.reg .ADM_SHARED_OCC 0 0 + cp.k * (1 + passed) ≤ lim))

/-- Count and capture a copy that step 3 or 4, or HOLD (R734), refuses. -/
def State.refuseCopy (s : State) (f : Frame) (cp : Copy) : State :=
  let s := if cp.port < 44 then s.bump .ADM_DROP ((cp.port * 16 + cp.cls) * 3 + min cp.colour 2)
    else if cp.transit then s.bump .FAB_TRANSIT_DROP 0 else s
  (s.dropCapture f 2 cp).perfEv 10 1 f.pl cp.port cp.cls f.gen (f.flen % 16384)

/-- The steps of Table 8-8 from step 2 on: the copies that are admitted, and the state. The safe state admits none (R773). -/
def State.admitCopies (s : State) (f : Frame) (cps : List Copy) : List Copy × State :=
  if s.flt.safe then ([], s) else
  let here := cps.filter fun cp => !s.absent cp
  let s := (cps.filter s.absent).foldl (fun s cp => s.bump .EGRESS_ABSENT (absentIdx cp)) s
  let (ok, bad, _) := here.foldl (fun (x : List Copy × List Copy × Nat) cp =>
    let hold := s.power == 3 && !bit (s.fld F.PWR_HOLD_CFG.PROT_CLASSES 0) cp.cls
    if !hold && s.roomFor f cp x.2.2 then
      (x.1 ++ [cp], x.2.1, if s.flag F.ADM_CLASS.RESERVE cp.cls then x.2.2 else x.2.2 + 1)
    else (x.1, x.2.1 ++ [cp], x.2.2)) ([], [], 0)
  let s := bad.foldl (fun s cp => s.refuseCopy f cp) s
  if !(bad.any fun cp => s.flag F.ADM_CLASS.ATOMIC cp.cls) then (ok, s) else
  let atomic := ok.filter fun cp => s.flag F.ADM_CLASS.ATOMIC cp.cls
  let s := atomic.foldl (fun (s : State) cp =>
    (if cp.port < 44 then s.bump .ADM_ATOMIC_DROP (cp.port * 16 + cp.cls) else s).dropCapture f 3 cp) s
  (ok.filter fun cp => !s.flag F.ADM_CLASS.ATOMIC cp.cls, s)

/-- Step 6: charge and enqueue one copy. -/
def State.admitCopy (s : State) (f : Frame) (r : Res) (cp : Copy) : State :=
  let q := s.queueOf f r cp
  let cp := { cp with shared := cp.transit || !s.flag F.ADM_CLASS.RESERVE cp.cls, ct := s.mayCut f r cp q }
  ((s.charge cp).enqueue q cp).protTouch f.port cp.cls

/-- Admission of a frame's copies (R332): one indivisible action. The frame ends when no copy holds it. -/
def State.admitFrame (s : State) (fid : Nat) (f : Frame) (r : Res) (cps : List Copy) : State :=
  let n := s.prio f
  let pfc := f.port < 32 && bit (s.fld F.PORT_CFG.PFC_PRI f.port) n
  let occ := s.reg .ADM_ING_OCC (f.port * 8 + n) 0
  let room := s.fld F.ADM_ING.XOFF (f.port * 8 + n) + s.fld F.PORT_PFC.HEADROOM (f.port * 8 + n)
  if pfc && !s.flt.safe && occ + f.blocks > room then (s.bump .ADM_LOSSLESS_DROP (f.port * 8 + n)).endFrame fid else
  let now := f.port == 40 || f.port == 42 || f.port == 43
  let f := { f with
    lossless := if pfc then some (f.port, n) else none
    ts := if now then s.frc else f.ts
    tsPtp := if now then s.ptp else f.tsPtp }
  let (ok, s) := s.admitCopies f cps
  if ok.isEmpty && !f.held && f.refs = 0 then s.endFrame fid else
  let f := { f with phase := .admitted, refs := f.refs + ok.length + b2n f.held, owner := 0, res := some r }
  let bufs := match f.buf with
    | none => s.bufs
    | some id => match sfind s.bufs id with | some (_, b) => sset s.bufs id (0, b) | none => s.bufs
  let s := { s with frames := sset s.frames fid f, bufs := bufs }
  let s := if pfc then s.setIngOcc f.port n (occ + f.blocks) else s
  ok.foldl (fun s cp => s.admitCopy f r cp) s

/-- The slow-path copy of a frame (R143, R149, R150): the frame itself, or the copy that OUTCOME_CTL asks for. -/
def slowCopy (fid : Nat) (f : Frame) (r : Res) (src reason now : Nat) : Copy :=
  { Copy.base fid f { r with rewrite := none, markDei := false } 43 (sget f.fields 0 5 % 16) now with
    p43src := src, reason := reason, exc := f.exc }

/-- Colour of a frame before its first policer (R252). -/
def inColour (f : Frame) : Nat := let m := sget f.fields 0 4; if bit m 4 then 0 else bits m 3 1

/-- What resolution gave a frame; without one only its colour (R329). -/
def Frame.resOf (f : Frame) : Res := f.res.getD { colour := inColour f }

/-- SOURCE of Table 4-9 for an outcome. -/
def slowSource (o : Nat) : Nat := match o with | 5 => 1 | 3 => 2 | 4 => 3 | _ => 0

/-- All copies a resolved frame asks for: its destinations, COPY_P43 and slow-path copies, under the redundancy decision: ring copies go
on whatever DELIVER says, all others only when it gave first (R421, R422). With DROP only the COPY_P43 copy is made (R243). -/
def State.allCopies (s : State) (fid : Nat) (f : Frame) (r : Res) (pass : Bool) (ring : Option Nat) : List Copy × State :=
  let now := s.frc
  let ringCps := match ring with
    | some p => [{ Copy.base fid f r p r.cls now with red := .keep }]
    | none => []
  if !pass then (ringCps, s) else
  let (cps, s) :=
    if r.drop then ([], s) else
    let (ports, far, s) := s.dests f r
    let (cps, s) := s.expand fid f r ports
    (cps ++ far.map (remoteCopy fid f r now), s)
  let p43 := if r.copyP43 then [slowCopy fid f r 0 f.reason now] else []
  let slow := if f.slow ≠ 0 && !r.drop then [slowCopy fid f r (slowSource f.outcome) f.reason now] else []
  ((if r.drop then [] else ringCps) ++ cps ++ p43 ++ slow, s)

/-- Admission of everything a frame asks for. -/
def State.admitAll (s : State) (fid : Nat) (f : Frame) (r : Res) (pass : Bool) (ring : Option Nat) : State :=
  let (cps, s) := s.allCopies fid f r pass ring
  s.admitFrame fid f r cps

/-! ## Frames published through P42 and injected copies (R22, R354) -/

/-- The class a publication is admitted with: its template's, or that of the class node on its queue's path. -/
def State.pubClass (s : State) (queue : Nat) : Nat := ((s.path queue).map (·.2.1 % 16)).getD (queue % 16)

/-- A publication enters admission with the ports and queue of its template, its class and frame list (R22, R268, R339, R354): whether a
copy was admitted. The pipeline its publisher names (R18) is free, for no register of a publisher holds one (DESIGN CHOICE, log 128). None:
no buffer is free. -/
def State.publish (s : State) (bytes : Bytes) (hdrs : List Nat) (fields : Sparse Nat) (dest : Nat) (group : Bool)
    (queue cls : Nat) (rewrite : Option Nat) : Option (Bool × State) :=
  let k := poolFor (bytes.length + 4)
  match s.allocFor 42 2 k with
  | none => none
  | some (j, id, s) =>
    let fid := s.nextFrame
    let (v, s) := s.fresh
    let f : Frame := {
      port := 42
      pl := v % 4
      bytes := bytes
      ts := s.frc
      tsPtp := s.ptp
      untrace := s.untraced
      suspect := s.flag F.FAB_STATE.TIME_SUSPECT 0
      buf := some id
      pool0 := k
      blocks := poolBlocks j
      owner := 2
      gen := s.cur
      hdrs := hdrs
      fields := fields
      src := s.gport 42 }
    let r : Res := { dest := some dest, group := group, cls := cls, rewrite := rewrite, queue := some queue, noLookup := true }
    let t := ((s.enterFrame f).seal fid).admitAll fid f r true none
    some ((sfind t.frames fid).isSome, t)

/-! ## The lane comparator resolves (R428, R429) -/

/-- One more copy of an admitted frame is admitted by itself, with what resolution gave the frame. -/
def State.addCopy (s : State) (fid : Nat) (f : Frame) (cp : Copy) : State :=
  let (ok, s) := s.admitCopies f [cp]
  let s := s.modFrame fid fun f => { f with refs := f.refs + ok.length }
  ok.foldl (fun s cp => s.admitCopy f f.resOf cp) s

/-- The comparator gives up its hold of a frame. -/
def State.unhold (s : State) (fid : Nat) : State :=
  match sfind s.frames fid with
  | none => s
  | some f =>
    let s := s.modFrame fid fun f => { f with held := false }
    if f.held && f.phase = .admitted then s.unref fid else s

/-- CMP_RESOLVE: record i of a pipeline, once its second copy has come or its wait has run out. -/
def execCmpResolve (dt : Nat) (pl : Fin 4) (i : Nat) (s : State) : Out :=
  let s := s.advance dt
  let l := sget s.cmp [] pl
  match l[i]? with
  | none => finish s
  | some c =>
    let k := c.pair
    let free : State := { s with cmp := sput s.cmp [] pl (l.eraseIdx i) }
    match c.second with
    | none =>
      if s.now < c.at_ + 1000 * max 1 (s.fld F.PRED_PAIR.CMP_WAIT_US k) then finish s
      else finish (free.bump .PRED_CMP_SINGLE (k * 2 + c.lane))
    | some d =>
      let held := (c.frame2.bind fun x => sfind s.frames x).isSome
      let fid := c.frame2.getD 0
      if d = c.digest then finish ((free.unhold fid).bump .PRED_CMP_MATCH k)
      else
        let s := free.bump .PRED_DIVERGE k
        let s := s.setReg .PRED_LANE_STAT k 0 (s.reg .PRED_LANE_STAT k 0 ||| 3)
        let s := ((s.irqSignal (168 + k) true).evtLine k true)
        match if held then sfind s.frames fid else none with
        | none => finish s
        | some f =>
          if !s.flag F.PRED_LANE_STAT.DIV_COPY k then finish (s.unhold fid) else
          let cp := { slowCopy fid f f.resOf 0 4 s.frc with meta7 := some c.digest }
          finish ((s.addCopy fid f cp).unhold fid)

end Sys2Proof.Machine
end

