-- ==== Sys2Proof/Machine/Time.lean ====
section
/-! DEFINITION. The TIME domain (chapter 11): the device clock, PPS and IRIG-B, GPIO inputs, the grid-angle timebase and time
points. -/
namespace Sys2Proof.Machine

/-! ## State and traceability (R451 to R453) -/

/-- TRACEABLE changes; event line 16 is its complement. -/
def State.setTraceable (s : State) (b : Bool) : State :=
  if s.flag F.TIME_STATUS.TRACEABLE 0 = b then s else (s.setFld F.TIME_STATUS.TRACEABLE 0 (b2n b)).evtLine 16 !b

/-- STATE of the device clock changes; entry into HOLDOVER starts HOLD_S. -/
def State.setTimeState (s : State) (v : Nat) : State :=
  if s.fld F.TIME_STATUS.STATE 0 = v then s else
  let s := s.setFld F.TIME_STATUS.STATE 0 v
  { s with clock := { s.clock with holdAt := if v = 3 then some s.now else none } }

/-- TIME_SOURCE_LOST (R451, R453): PPS_IN absent for 2 s, IRIG-B absent for 3 s, or the PTP master silent. -/
def execTimeSourceLost (dt : Nat) (s : State) : Out :=
  let s := s.advance dt
  let src := s.fld F.TIME_CTL.SRC 0
  let st := s.fld F.TIME_STATUS.STATE 0
  let silent := match src with
    | 1 => true
    | 2 => decide (s.now ≥ s.clock.ppsLast.getD 0 + 2000000000)
    | 3 => decide (s.now ≥ s.clock.irigLast.getD 0 + 3000000000)
    | _ => false
  if !silent || st = 0 || st = 3 then finish s else
  let s := if src = 2 then s.setFld F.TIME_STATUS.PPS_MISS 0 1 else s
  finish (s.setTimeState 3)

/-- TRACEABLE_EXPIRY (R452). -/
def execTraceableExpiry (dt : Nat) (s : State) : Out :=
  let s := s.advance dt
  match s.clock.holdAt with
  | none => finish s
  | some t => if s.now < t + 1000000000 * s.fld F.TIME_CTL.HOLD_S 0 then finish s else finish (s.setTraceable false)

/-- REF25_LOST (R442): only where the PLL runs from REF_25M. -/
def execRef25Lost (dt : Nat) (s : State) : Out :=
  let s := s.advance dt
  if !s.flag F.TIME_CTL.REF25 0 then finish s
  else finish ((s.setFld F.TIME_STATUS.REF25_LOST 0 1).irqSignal 50 true)

/-- REF25_RESTORED (R442). -/
def execRef25Restored (dt : Nat) (s : State) : Out :=
  let s := s.advance dt
  finish ((s.setFld F.TIME_STATUS.REF25_LOST 0 0).irqSignal 50 false)

/-! ## Time points (R480 to R483) -/

/-- The clock of a point. -/
def Point.clock (p : Point) (s : State) : Nat := if p.grid then s.gridNow else s.ptp

/-- A clock value is at or after a point (R481). -/
def Point.reachedAt (p : Point) (v : Nat) : Bool :=
  if p.grid then decide ((v + 18446744073709551616 - p.at_ % 18446744073709551616) % 18446744073709551616 < 9223372036854775808)
  else decide (p.at_ ≤ v)

/-- A clock value is after a point. -/
def Point.pastAt (p : Point) (v : Nat) : Bool := p.reachedAt v && decide (v ≠ p.at_)

/-- Arm a point: one the clock is already after is LATE (R482). -/
def State.setPoint (s : State) (p : Point) : State :=
  { s with clock := { s.clock with points := s.clock.points ++ [{ p with late := p.pastAt (p.clock s) }] } }

/-- Drop the points of a kind. -/
def State.clearPoints (s : State) (k : PointKind → Bool) : State :=
  { s with clock := { s.clock with points := s.clock.points.filter fun p => !k p.kind } }

/-- A step or jump carries a clock from one value to another: points it passes are LATE (R482). -/
def State.passPoints (s : State) (grid : Bool) (v w : Nat) : State :=
  { s with clock := { s.clock with points := s.clock.points.map fun p =>
      if p.grid = grid && !p.reachedAt v && p.pastAt w then { p with late := true } else p } }

/-- The next point of a periodic schedule: one period on, and after LATE the first one after the current time (R483). -/
def Point.next (p : Point) (v : Nat) : Nat :=
  let n := p.at_ + p.period
  if p.late && Point.reachedAt { p with at_ := n } v then
    let d := if p.grid then (v + 18446744073709551616 - p.at_ % 18446744073709551616) % 18446744073709551616 else v - p.at_
    p.at_ + (d / p.period + 1) * p.period
  else n

/-- A point fires: it leaves the list, or is armed for its next instant; LATE is counted. -/
def State.takePoint (s : State) (i : Nat) (p : Point) : State :=
  let s := if p.late then s.bump .TIME_LATE_FIRE 0 else s
  let l := s.clock.points
  { s with clock := { s.clock with points :=
      (if p.period = 0 then l.eraseIdx i
        else lset l i { p with at_ := if p.grid then p.next (p.clock s) % 18446744073709551616 else p.next (p.clock s), late := false }) } }

/-! ## The device clock (R449, R450) -/

/-- A step carries PTP time from v to w past reporting instants (TB 0) and ends of recorder windows (R482, R483). Instants already reached stay
due; of those skipped an output reports the first, LATE, and goes on with the first after w. -/
def State.passReports (v w : Nat) (s : State) (m : Nat) : State :=
  let r := s.fld F.PHX_PMU.RATE m
  if !s.flag F.PHX_PMU.EN m || s.flag F.PHX_PMU.TB m || r = 0 then s else
  let k := sget s.pmuNext 0 m
  let after (t : Nat) : Nat := ((t + 1) * r - 1) / 1000000000 + 1
  let n := max k (after v)
  let at_ (j : Nat) : Nat := j * 1000000000 / r
  let due := sget s.pmuDue [] m ++ (List.range (n - k)).map fun j => at_ (k + j)
  if at_ n > w then { s with pmuDue := sput s.pmuDue [] m due, pmuNext := sput s.pmuNext 0 m n }
  else
    let s : State := { s with pmuDue := sput s.pmuDue [] m (due ++ [at_ n]), pmuNext := sput s.pmuNext 0 m (after w) }
    if at_ n < w then s.bump .TIME_LATE_FIRE 0 else s
def State.passWindows (v w : Nat) (s : State) : State :=
  s.add .TIME_LATE_FIRE 0 (s.recs.flatMap fun e => e.2.filter fun r => r.isOpen && !r.grid && decide (v < r.stop) && decide (r.stop < w)).length

/-- A step of the device clock by signed words (R450, R453): none is applied in HOLDOVER, nor before TIME is READY (R443). -/
def State.timeStep (s : State) (ns sec : Nat) : State :=
  if s.fld F.TIME_STATUS.STATE 0 = 3 then s else
  if !s.ready 3 then s else
  let s := s.setFld F.TIME_STATUS.STEP_COUNT 0 ((s.fld F.TIME_STATUS.STEP_COUNT 0 + 1) % 65536)
  let d := sgn sec 32 * 1000000000 + sgn ns 32
  let v := s.ptp
  let s := { s with clock := { s.clock with
    ptp := s.clock.ptp + d * (ptpUnit : Nat)
    steps := (s.now, d) :: s.clock.steps.filter fun e => decide (s.now < e.1 + 14000000) } }
  let s := s.passPoints false v s.ptp
  let s := if d < 0 then s else State.passWindows v s.ptp (((s.written .PHX_PMU).map (·.1)).foldl (State.passReports v s.ptp) s)
  let ofs := sgn (s.reg .TIME_PPS_OFS 0 0) 32
  let s := { s with clock := { s.clock with ppsOut := (((s.ptp : Int) - ofs) / 1000000000).toNat } }
  s.gatesStep

/-- TIME_STEP (R450). -/
def execTimeStep (dt : Nat) (ns sec : BitVec 32) (s : State) : Out := finish ((s.advance dt).timeStep ns.toNat sec.toNat)

/-- Latch the words a read returns. -/
def State.latchWords (s : State) (r : Reg) (l : List Nat) : State :=
  let s := (List.range l.length).foldl (fun (s : State) k => s.setReg r 0 k (l.getD k 0)) s
  { s with rd := l.map w32 }

/-- NS, SEC [31:0], SEC [47:32] with a 16-bit field, FRC of an instant (Tables 11-2, 11-5). -/
def timeWords (ptp sub frc : Nat) : List Nat :=
  [ptpNs ptp, ptpSec ptp % 4294967296, ptpSec ptp / 4294967296 % 65536 + 65536 * sub, frc % 4294967296, frc / 4294967296]

/-- A read of TIME_NOW word 0 latches every word (R449). -/
def State.timeNow (s : State) : State :=
  let sub := ((s.clock.ptp % (ptpUnit : Nat)).toNat * 65536 / ptpUnit)
  s.latchWords .TIME_NOW (timeWords s.ptp sub s.frc)

/-- TIME_NOW_READ (R449). -/
def execTimeNowRead (dt : Nat) (s : State) : Out := finish (s.advance dt).timeNow

/-- TIME_TXTS_READ (R459): the oldest entry is popped; an empty FIFO gives none. -/
def execTimeTxtsRead (dt : Nat) (p : Fin 40) (s : State) : Out :=
  let s := s.advance dt
  match sget s.clock.txts [] p with
  | [] => finish { s with rd := [] }
  | e :: l => finish { s with
      clock := { s.clock with txts := sput s.clock.txts [] p l }
      rd := [w32 e.seqId, w32 e.msgType, w32 e.dom, w32 (ptpNs e.egress), w32 (ptpSec e.egress),
        w32 (ptpSec e.egress / 4294967296), w32 e.residence, w32 (e.residence / 4294967296)] }

/-! ## PPS and IRIG-B (R461 to R465) -/

/-- An on-time edge is timestamped; one more than 1 µs from the expected second is counted and not used (R463). -/
def State.onTime (s : State) (err : Nat) : State :=
  let w := timeWords s.ptp 0 s.frc
  let s := (List.range 5).foldl (fun (s : State) k => s.setReg .TIME_PPS_IN_TS 0 k (w.getD k 0)) s
  if err > 1000 then s.bump .TIME_PPS_REJECT 0 else s

/-- PPS_IN_EDGE (R463). -/
def execPpsInEdge (dt err : Nat) (s : State) : Out :=
  let s := s.advance dt
  if !s.flag F.TIME_PPS_CFG.IN_EN 0 then finish s else
  let s := s.onTime err
  if err > 1000 then finish s else
  let s := s.setFld F.TIME_STATUS.PPS_MISS 0 0
  finish { s with clock := { s.clock with ppsLast := some s.now } }

/-- IRIG_IN_FRAME (R452, R462, R463): the quality code is read with EXT1344. -/
def execIrigInFrame (dt : Nat) (f : IrigFrame) (s : State) : Out :=
  let s := s.advance dt
  if !s.flag F.TIME_IRIG_CFG.IN_EN 0 then finish s else
  let s := s.onTime f.edgeErr
  if f.edgeErr > 1000 then finish s else
  let tr := s.flag F.TIME_IRIG_CFG.EXT1344 0 && decide (f.quality ≤ 1000)
  let s := { s with clock := { s.clock with irigLast := some s.now } }
  if s.fld F.TIME_CTL.SRC 0 ≥ 2 && s.fld F.TIME_STATUS.STATE 0 = 2 then finish (s.setTraceable tr) else finish s

/-- PPS_OUT_EDGE (R464): a whole second of PTP time plus OFS; IRIG_OUT begins the frame of the second its marker begins. In the safe state both are
held low (R773). -/
def execPpsOutEdge (dt : Nat) (s : State) : Out :=
  let s := s.advance dt
  let n := (((s.ptp : Int) - sgn (s.reg .TIME_PPS_OFS 0 0) 32) / 1000000000).toNat
  if n = s.clock.ppsOut || !s.ready 3 then finish s else
  let s : State := { s with clock := { s.clock with
    ppsOut := n
    ppsRise := if s.flag F.TIME_PPS_CFG.OUT_EN 0 && !s.flt.safe then some n else s.clock.ppsRise } }
  if !s.flag F.TIME_IRIG_CFG.OUT_EN 0 || s.flt.safe then finish s else
  let sec := s.ptp / 1000000000
  let ext := s.flag F.TIME_IRIG_CFG.EXT1344 0
  let loc := if s.flag F.TIME_IRIG_CFG.LOCAL 0 then Config.localOffset sec else 0
  let q := Config.timeQuality (s.flag F.TIME_STATUS.TRACEABLE 0) (s.fld F.TIME_STATUS.STATE 0)
  finish { s with clock := { s.clock with
    irigSec := sec + Config.utcOffset sec + loc
    irigLeap := ext && Config.leapState sec
    irigQual := if ext then some q else none } }

/-! ## GPIO inputs (R466 to R468) -/

/-- A GPIO pin. -/
def State.pin (s : State) (n : Nat) : Gpio := sget s.gpio {} n
def State.setPin (s : State) (n : Nat) (g : Gpio) : State := { s with gpio := sput s.gpio {} n g }

/-- DEBOUNCE of a pin, ns. -/
def State.debounce (s : State) (n : Nat) : Nat := 1000 * s.fld F.GPIO_IN_CFG.DEBOUNCE n

/-- A change that has held for DEBOUNCE is accepted (R467, R468): the event engine has it, and with TS_EN and a matching EDGE the
FIFO GPIO_TS. -/
def State.acceptPin (s : State) (n : Nat) : State :=
  let g := s.pin n
  match g.cand with
  | none => s
  | some (l, frc, ptp, grid) =>
    if s.now < frc + s.debounce n || s.flag F.GPIO_OUT_CFG.OUT_EN n then s else
    let s := s.setPin n { g with level := l, cand := none }
    let s := s.evtIn { src := .gpio n, value := b2n l, frc := frc, ptp := ptp, grid := some grid }
    let e := s.fld F.GPIO_IN_CFG.EDGE n
    if !s.flag F.GPIO_IN_CFG.TS_EN n || (e = 0 && !l) || (e = 1 && l) then s
    else if s.clock.gpioTs.length ≥ 256 then s.bump .GPIO_TS_DROP 0
    else { s with clock := { s.clock with gpioTs := s.clock.gpioTs ++ [(n, l, frc, grid)] } }

/-- GPIO_INPUT_ACCEPT (R467). -/
def execGpioInputAccept (dt : Nat) (n : Fin 32) (s : State) : Out := finish ((s.advance dt).acceptPin n)

/-- GPIO_INPUT_EDGE (R467): a new level is a candidate; a reversal within DEBOUNCE is counted. -/
def execGpioInputEdge (dt : Nat) (n : Fin 32) (level : Bool) (s : State) : Out :=
  let s := (s.advance dt).acceptPin n
  if s.flag F.GPIO_OUT_CFG.OUT_EN n then finish s else
  let g := s.pin n
  match g.cand with
  | none =>
    if level = g.level then finish s
    else finish (s.setPin n { g with cand := some (level, s.frc, s.ptp, s.gridNow) })
  | some (l, _) =>
    if level = l then finish s
    else finish ((s.setPin n { g with cand := none }).bump .GPIO_BOUNCE n)

/-! ## The grid-angle timebase (R469 to R479) -/

/-- STATE of the grid timebase: 0 LOCKED, 1 HOLDOVER, 2 FALLBACK. -/
def State.gridState (s : State) : Nat := s.reg .TIME_GRID_NOW 0 3 % 4

/-- Change it (R474): GRID_STATE, the entry count, event line 17. -/
def State.setGridState (s : State) (v : Nat) : State :=
  if s.gridState = v then s else
  let was := s.gridState
  let s := ((s.setReg .TIME_GRID_NOW 0 3 v).bump .GRID_STATE_CHG v).pulse 51
  let s := if v = 0 then s else s.gatesGrid v
  if (was == 0) != (v == 0) then s.evtLine 17 (v != 0) else s

/-- Enter FALLBACK, or run on in it, at the nominal frequency. -/
def State.gridFallback (s : State) : State :=
  State.setGridState { s with clock := { s.clock with gridFreq := s.nominal, gridGood := none } } 2

/-- A read of TIME_GRID_NOW word 0 latches every word (R471). -/
def State.gridNowRead (s : State) : State :=
  let g := s.gridNow
  (s.latchWords .TIME_GRID_NOW [g % 4294967296, g / 4294967296, s.clock.gridFreq, s.gridState, ptpNs s.ptp,
    ptpSec s.ptp % 4294967296])

/-- TIME_GRID_NOW_READ (R471). -/
def execTimeGridNowRead (dt : Nat) (s : State) : Out := finish (s.advance dt).gridNowRead

/-- An estimate is valid (R473). -/
def State.estValid (s : State) (g : GridEst) : Bool :=
  let m := s.fld F.TIME_GRID_CFG.MIN_MAG 0
  let st := s.fld F.PHX_STREAM_STAT.STATE (s.fld F.TIME_GRID_CFG.STREAM 0)
  st != 3 && g.good && g.sync && decide (g.magPct ≥ (if m = 0 then 10 else m)) &&
  decide (47185920 ≤ g.freq) && decide (g.freq ≤ 68157440)

/-- The phase error of an estimate at its sample instant: reference angle less the timebase's angle then, signed. -/
def State.phaseErr (s : State) (g : GridEst) : Int :=
  let back := s.clock.gridFreq * 4096 * g.age / 1000000000
  sgn ((g.angle + s.reg .TIME_GRID_CFG 0 1 + back + 4294967296 - s.gridNow % 4294967296) % 4294967296) 32

/-- The frequency correction that removes an error over the next four estimates, at most 2^32 / 100 units each (R475). -/
def gridCorr (e : Int) : Int := max (-42949672) (min 42949672 (e / 4)) * 4000 / 4096

/-- GRID_ESTIMATE (R473 to R476, R478). -/
def execGridEstimate (dt : Nat) (g : GridEst) (s : State) : Out :=
  let s := s.advance dt
  if !s.flag F.TIME_GRID_CFG.EN 0 || !s.ready 9 then finish s
  else if !s.estValid g then finish { s with clock := { s.clock with gridGood := none } }
  else
    let gap := match s.clock.gridLast with | some (t, _, _) => decide (s.now ≥ t + 500000) | none => true
    let good := if gap then s.now else s.clock.gridGood.getD s.now
    let e := s.phaseErr g
    let s : State := { s with clock := { s.clock with
      gridGood := some good
      gridLast := some (s.now, s.now - g.age, g.freq) } }
    if s.gridState = 0 then
      let s := if g.rocofHigh then s.bump .GRID_ROCOF_EXC 0 else s
      finish { s with clock := { s.clock with gridFreq := ((g.freq : Int) + gridCorr e).toNat } }
    else if (s.now - good) * g.freq < 3 * 1000000000 * 1048576 then finish s
    else
      let v := s.gridNow
      let m : Int := 79228162514264337593543950336
      let s : State := { s with clock := { s.clock with
        grid := (((s.clock.grid : Int) + e * 4294967296) % m).toNat
        gridFreq := g.freq } }
      let s := if e > 0 then s.passPoints true v s.gridNow else s
      finish (s.setGridState 0)

/-- GRID_HOLDOVER_ENTRY (R474): 500 µs without a valid estimate. -/
def execGridHoldoverEntry (dt : Nat) (s : State) : Out :=
  let s := s.advance dt
  match s.clock.gridLast with
  | none => finish s
  | some (t, _, f) =>
    if s.gridState ≠ 0 || s.now < t + 500000 then finish s
    else finish (State.setGridState { s with clock := { s.clock with gridFreq := f, gridGood := none } } 1)

/-- GRID_HOLDOVER_EXPIRY (R477): 10 cycles at the held frequency from the sample instant of the last valid estimate. -/
def execGridHoldoverExpiry (dt : Nat) (s : State) : Out :=
  let s := s.advance dt
  match s.clock.gridLast with
  | none => finish s
  | some (_, t, f) =>
    if s.gridState ≠ 1 || (s.now - t) * f < 10 * 1000000000 * 1048576 then finish s
    else finish s.gridFallback

end Sys2Proof.Machine
end

