-- ==== Sys2Proof/Machine/Measure.lean ====
section
/-! DEFINITION. The phasor engine and the waveform recorder (chapter 12). -/
namespace Sys2Proof.Machine

/-! ## Streams (R488 to R492) -/

/-- Settings of a stream (Table 12-1). -/
def State.smpRate (s : State) (i : Nat) : Nat := s.fld F.PHX_STREAM.SMP_RATE i
def State.nomF (s : State) (i : Nat) : Nat := if s.flag F.PHX_STREAM.NOM_60 i then 60 else 50
def State.chType (s : State) (i c : Nat) : Nat := bits (s.reg .PHX_STREAM i 5) (4 * c) 2
def State.chans (s : State) (i : Nat) : List Nat := (List.range 8).filter fun c => s.chType i c != 0
def State.streamKey (s : State) (i : Nat) : Nat := s.reg .PHX_STREAM i 0 + 4294967296 * s.reg .PHX_STREAM i 1
def State.stream (s : State) (i : Nat) : Stream := sget s.streams {} i

/-- Enabled streams. -/
def State.streamsOn (s : State) : List Nat :=
  (((s.written .PHX_STREAM).map (·.1)).foldl ins []).filter fun i => s.flag F.PHX_STREAM.EN i

/-- Measurement runs: PHX ready and not shed (R24, R526). -/
def State.phxRuns (s : State) : Bool := s.ready 9 && !s.shed 4

/-- The bank of a stream is fenced (Table 18-3). -/
def State.phxFenced (s : State) (i : Nat) : Bool := s.flt.fenced.contains (28 + i / 1024)

/-- Channel-samples a second over the enabled streams (R491). -/
def State.ingest (s : State) : Nat := (s.streamsOn.map fun i => (s.chans i).length * s.smpRate i).foldl (· + ·) 0

/-- Instant of a sample position, ns (R493). -/
def smpAt (rate idx : Nat) : Nat := idx * 1000000000 / rate

/-! ## Quality and synchronisation (R497, R498) -/

/-- Synchronisation of smpSynch: 2 global, 1 local, 0 none. -/
def syncRank (v : Nat) : Nat := if v = 2 then 2 else if v = 1 || (5 ≤ v && v ≤ 254) then 1 else 0

/-- The quality of a value is usable; validity and test bit stand where IEC 61850-7-3 has them (PRESUMED, log 43). -/
def State.qualOk (s : State) (i q : Nat) : Bool :=
  (q % 4 == 0 || (q % 4 == 3 && s.flag F.PHX_STREAM.USE_QUEST i)) && (!bit q 11 || s.flag F.PHX_STREAM.TEST_ACCEPT i)

/-- A position as received is usable: no TIME_ERR, and every configured channel carried with usable quality. -/
def State.smpUsable (s : State) (i : Nat) (x : Smp) : Bool :=
  x.origin == 0 && !x.timeErr && (s.chans i).all fun c => match x.vals.getD c none with
    | some (_, q) => s.qualOk i q
    | none => false

/-- Positions of the newest window: two nominal cycles (R500, R502). -/
def State.winLen (s : State) (i : Nat) : Nat := max 1 ((2 * s.smpRate i + s.nomF i / 2) / s.nomF i)

/-- Finalised positions kept: the longest window of Table 12-4 and a run of R496. -/
def State.histLen (s : State) (i : Nat) : Nat := 25 * s.smpRate i / s.nomF i + 16

/-- A finalised position counts for a window: usable or interpolated, with the synchronisation required. -/
def State.smpOk (s : State) (i : Nat) (x : Smp) : Bool :=
  (x.origin == 1 || s.smpUsable i x) && decide (syncRank x.synch ≥ min 2 (s.fld F.PHX_STREAM.SYNC_REQ i))

/-! ## The recorder's rows (R518, R519, R523, R524) -/

/-- Rows of a group's ring; its address of row k. -/
def State.recN (s : State) (g : Nat) : Nat := 4 * s.fld F.PHX_REC.SIZE g
def State.recAddr (s : State) (g k : Nat) : Nat := s.fld F.PHX_REC.BASE g * 64 + 80 * k

/-- The recorder can write: DRAM trained, REC ready, not shed. -/
def State.recRuns (s : State) : Bool := s.ready 2 && s.ready 11 && !s.shed 1

/-- Records of a group, oldest first; OPEN and the level of REC_DESC follow them. -/
def State.records (s : State) (g : Nat) : List Record := sget s.recs [] g
def State.setRecords (s : State) (g : Nat) (l : List Record) : State :=
  let s := { s with recs := sput s.recs [] g l }
  let s := s.setFld F.PHX_REC.OPEN g l.length
  s.irqSignal 204 (s.recs.any fun e => e.2.any fun r => !r.isOpen)

/-- A row of Table 12-10. -/
def State.recRow (s : State) (i : Nat) (x : Smp) : Bytes :=
  let t := smpAt (s.smpRate i) x.idx
  let v (c : Nat) : Nat × Nat := if x.origin = 2 then (0, 0) else (x.vals.getD c none).getD (0, 0)
  wordsBytes ([w32 (i + 4096 * (s.chans i).length + 65536 * x.origin), w32 (x.smpCnt + 131072 * x.synch), w32 (ptpNs t), w32 (ptpSec t)] ++
    (List.range 8).flatMap fun c => [w32 (v c).1, w32 (v c).2])

/-- Write the row of a finalised position into its group's ring: a row that would overwrite a protected one, or beyond 64 million a
second, is dropped. -/
def State.recWrite (s : State) (i : Nat) (x : Smp) : State :=
  let g := s.fld F.PHX_STREAM.REC_GROUP i
  if !s.flag F.PHX_STREAM.REC_EN i || !s.flag F.PHX_REC.ENABLE g || !s.recRuns then s else
  let n := s.recN g
  let l := s.records g
  let win := s.now / 10000
  let (w, c, e) := sget s.capCnt (0, 0, 0) 205
  let c := if w = win then c else 0
  let held := ((l.head?.map (·.cnt)).getD 0)
  if n = 0 || held ≥ n || c ≥ 640 then
    (s.bump .PHX_REC_DROP g).setRecords g (l.map fun r => if r.isOpen then { r with trunc := true } else r)
  else
    let k := s.fld F.PHX_REC.WR_IDX g
    let s := { s with capCnt := sput s.capCnt (0, 0, 0) 205 (win, c + 1, e), recRows := sput s.recRows 0 g (min n (sget s.recRows 0 g + 1)) }
    let s := (s.dramWrite 1 (s.recAddr g k) (s.recRow i x)).setFld F.PHX_REC.WR_IDX g ((k + 1) % n)
    s.setRecords g (l.map fun r => { r with cnt := r.cnt + 1 })

/-! ## Triggers (R520 to R524) -/

/-- A length of a group in ns: ms, or cycles at the frequency of the timebase. -/
def State.recNs (s : State) (g v : Nat) : Nat :=
  if s.flag F.PHX_REC.TB g then v * 1000000000 * 1048576 / max 1 s.clock.gridFreq else v * 1000000

/-- Instant of the row k places behind WR_IDX. -/
def State.rowTime (s : State) (g k : Nat) : Nat :=
  let n := s.recN g
  let a := s.recAddr g ((s.fld F.PHX_REC.WR_IDX g + n - k) % n)
  ofLE (s.dramBytes ((a + 12) % dramSize) 4) * 1000000000 + ofLE (s.dramBytes ((a + 8) % dramSize) 4)

/-- Rows a window starting at t covers: those from the first row at or after it to WR_IDX. -/
def State.rowsSince (s : State) (g t : Nat) : Nat :=
  let have_ := sget s.recRows 0 g
  (((List.range have_).map (have_ - ·)).find? fun k => decide (s.rowTime g k ≥ t)).getD 0

/-- Open a record. -/
def State.openRecord (s : State) (g t reasons : Nat) (grid : Bool) (post : Nat) (l : List Record) : State :=
  let start := t - s.recNs g (s.fld F.PHX_REC.PRE g)
  let have_ := sget s.recRows 0 g
  let k := s.rowsSince g start
  let n := s.recN g
  let r : Record := {
    trig := t
    start := start
    stop := t + post
    first := if n = 0 then 0 else (s.fld F.PHX_REC.WR_IDX g + n - k) % n
    reason := reasons
    preShort := decide (have_ = 0) || (decide (k = have_) && decide (s.rowTime g k > start))
    grid := grid
    cnt := k
    at_ := s.now }
  let s := if !grid && s.ptp > t + post then s.bump .TIME_LATE_FIRE 0 else s
  let s := if grid then
      let p := (s.gridNow + 18446744073709551616 - (s.ptp - t) * s.clock.gridFreq * 4096 / 1000000000 +
        s.fld F.PHX_REC.POST g * 4294967296) % 18446744073709551616
      s.setPoint { grid := true, at_ := p, kind := .recEnd g }
    else s
  s.setRecords g (l ++ [r])

/-- A trigger of a group at PTP instant t with reason bits; those of one cycle count as one (R521). -/
def State.recTrigger (s : State) (g t reasons : Nat) : State :=
  if !s.flag F.PHX_REC.ENABLE g then s else
  let again := sget s.capCnt (0, 0, 0) (4096 + g) == (s.now, 1, 0)
  let s := { s with capCnt := sput s.capCnt (0, 0, 0) (4096 + g) (s.now, 1, 0) }
  let lost := !s.recRuns || (decide ((s.records g).length ≥ 16) && (s.records g).all fun r => !r.isOpen)
  if lost then (if again then s else s.bump .PHX_REC_TRIG_LOST g) else
  let l := s.records g
  let grid := s.flag F.PHX_REC.TB g
  let post := s.recNs g (s.fld F.PHX_REC.POST g)
  match l.getLast? with
  | some r =>
    if r.isOpen then
      let set (r : Record) : State → State := fun s => s.setRecords g (l.dropLast ++ [r])
      let r := { r with reason := r.reason ||| reasons }
      if again then set r s else
      let r := { r with trigs := min 255 (r.trigs + 1), at_ := s.now }
      if !s.flag F.PHX_REC.RETRIG g then (set r s).bump .PHX_REC_TRIG_IGN g else
      let m := s.fld F.PHX_REC.MAX_LEN g
      let cap := r.start + s.recNs g (if m = 0 then s.fld F.PHX_REC.PRE g + s.fld F.PHX_REC.POST g else m)
      let stop := max r.stop (min cap (t + post))
      let s := if r.grid then
          let p := (s.gridNow + 18446744073709551616 - (s.ptp - t) * s.clock.gridFreq * 4096 / 1000000000 +
            (stop - t) * s.clock.gridFreq * 4096 / 1000000000) % 18446744073709551616
          (s.clearPoints fun k => k == .recEnd g).setPoint { grid := true, at_ := p, kind := .recEnd g }
        else s
      set { r with stop := stop, retrig := true } s
    else s.openRecord g t reasons grid post l
  | none => s.openRecord g t reasons grid post l
/-- Close a record: its last row, its descriptor (R522). -/
def State.closeRecord (s : State) (g : Nat) (r : Record) : Record :=
  let n := s.recN g
  { r with isOpen := false, last := if n = 0 then 0 else (s.fld F.PHX_REC.WR_IDX g + n - 1) % n }

/-- Descriptor words of Table 12-11. -/
def Record.words (r : Record) : List Word :=
  [w32 (ptpNs r.trig), w32 (ptpSec r.trig), w32 r.first, w32 r.last, w32 r.reason,
    w32 (b2n r.trunc + 2 * b2n r.shed + 4 * b2n r.retrig + 8 * b2n r.preShort + 256 * r.trigs)]

/-- REC_CLOSE (R522): the end has passed and every stream of the group has a later position, or 10 ms have gone by. -/
def execRecClose (dt : Nat) (g : Fin 64) (s : State) : Out :=
  let s := s.advance dt
  let l := s.records g
  match l.getLast? with
  | none => finish s
  | some r =>
    let mine := s.streamsOn.filter fun i => s.flag F.PHX_STREAM.REC_EN i && s.fld F.PHX_STREAM.REC_GROUP i == g.val
    let late := mine.all fun i => match (s.stream i).hist.head? with
      | some x => decide (smpAt (s.smpRate i) x.idx > r.stop)
      | none => false
    if !r.isOpen || r.grid || s.ptp < r.stop || !(late || decide (s.ptp ≥ r.stop + 10000000)) then finish s
    else finish (s.setRecords g (l.dropLast ++ [s.closeRecord g r]))

/-- Shedding the recorder closes every open record with SHED (R526). -/
def State.shedRecorder (s : State) : State :=
  (s.recs.map (·.1)).foldl (fun (s : State) g =>
    s.setRecords g ((s.records g).map fun r => if r.isOpen then { s.closeRecord g r with shed := true } else r)) s

/-! ## Sample placement (R493 to R500) -/

/-- Interpolation between two usable neighbours: a value k of m steps along (R496). -/
def interp (a b : Nat) (k m : Nat) : Nat :=
  let x := sgn a 32
  let d := (sgn b 32 - x) * (k : Nat)
  let q := d / (m : Nat)
  unsgn (x + (if d % (m : Nat) ≠ 0 && Config.roundUp d m then q + 1 else q)) 32

/-- The finalised form of position p with what was received there. -/
def State.fillPos (s : State) (i p : Nat) (x : Stream) (e : Option Smp) : Smp :=
  let rate := s.smpRate i
  let none_ : Smp := { idx := p, smpCnt := if rate = 0 then 0 else p % rate, synch := 0, vals := List.replicate 8 none, origin := 2, got := false }
  let was := e.getD none_
  let gone : Smp := { was with origin := 2, vals := List.replicate 8 none }
  let mx := s.fld F.PHX_STREAM.MAX_INTERP i
  let left := (x.hist.takeWhile fun y => !s.smpUsable i y).length
  match x.hist[left]? with
  | none => gone
  | some a =>
    match (x.opened.filter fun y => decide (y.idx > p) && s.smpUsable i y).head? with
    | none => gone
    | some b =>
      let run := left + (b.idx - p)
      if run > mx then gone else
      let val (c : Nat) : Option (Nat × Nat) := match a.vals.getD c none, b.vals.getD c none with
        | some (u, q), some (v, _) => some (interp u v (left + 1) (run + 1), q)
        | _, _ => none
      { was with
        origin := 1
        synch := if syncRank a.synch ≤ syncRank b.synch then a.synch else b.synch
        vals := (List.range 8).map val }

/-- Finalise the oldest open position (R496). -/
def State.finalOne (s : State) (i : Nat) : State :=
  let x := s.stream i
  let p := x.done
  let e := x.opened.find? fun y => y.idx == p
  let ok := match e with | some y => s.smpUsable i y | none => false
  let y := match e with | some y => if ok then y else s.fillPos i p x e | none => s.fillPos i p x none
  let s := if ok then s else if y.origin = 1 then s.bump .PHX_INTERP i else s.bump .PHX_ABSENT i
  let x := { x with
    done := p + 1
    opened := x.opened.filter fun z => decide (z.idx > p)
    hist := (y :: x.hist).take (s.histLen i) }
  State.recWrite { s with streams := sput s.streams {} i x } i y

/-- Finalise every position below a number. -/
def State.finalTo (s : State) (i n : Nat) : State :=
  (List.range (n - (s.stream i).done)).foldl (fun s _ => s.finalOne i) s

/-- State and flags of a stream that is not LOST, from its newest window (R500, R501). -/
def State.evalStream (s : State) (i : Nat) : State :=
  let w := (s.stream i).hist.take (s.winLen i)
  let f (b : Nat) (p : Smp → Bool) : Nat := if w.any p then 2 ^ b else 0
  let v := s.reg .PHX_STREAM_STAT i 0
  let flags := f 2 (fun x => x.got && syncRank x.synch == 0) + f 3 (·.timeErr) + f 4 (·.qual) + f 5 (fun x => x.origin == 1) + f 6 (·.test)
  let s := s.setReg .PHX_STREAM_STAT i 0 (v - bits v 2 5 * 4 + flags)
  s.setStream i (if decide (w.length = s.winLen i) && w.all (s.smpOk i) then 1 else 2)

/-- An SMP quantity of each configured channel a sample carries (R510). -/
def State.smpEvents (s : State) (i : Nat) (d : Delivered) (x : Smp) : State :=
  let t := smpAt (s.smpRate i) x.idx
  let frc := ((d.ts : Int) + t - d.tsPtp).toNat
  (s.chans i).foldl (fun s c => match x.vals.getD c none with
    | none => s
    | some (v, q) => s.evtIn { src := .qty i c, value := v, valid := !x.timeErr && s.qualOk i q, frc := frc, ptp := t }) s

/-- A sample is accepted: the stream moves on to it, finalises what falls due, and is judged again (R495, R496, R499). -/
def State.acceptSmp (s : State) (i : Nat) (d : Delivered) (x : Smp) (st : Stream) : State :=
  let y := { st with
    seen := true
    last := s.now
    opened := (st.opened.filter fun z => decide (z.idx < x.idx)) ++ [x] ++ st.opened.filter fun z => decide (z.idx > x.idx) }
  let s := ({ s with streams := sput s.streams {} i y } : State).smpEvents i d x
  let s := if y.state = 3 then s.setStream i 2 else s
  (s.finalTo i (y.newest - s.fld F.PHX_STREAM.REORDER i)).evalStream i

/-- A record of an enabled stream (Table 12-2). -/
def State.placeSmp (s : State) (i : Nat) (d : Delivered) (cnt synch : Nat) (pairs : List Nat) : State :=
  let rate := s.smpRate i
  if cnt ≥ rate then s.bump .PHX_SMPCNT_RANGE i else
  let sec := ((d.tsPtp + 250000000) * rate - cnt * 1000000000) / (1000000000 * rate)
  let idx := sec * rate + cnt
  let transit : Int := ((d.tsPtp * rate : Nat) : Int) - (idx * 1000000000 : Nat)
  let mx := s.fld F.PHX_STREAM.TRANSIT_MAX_US i
  let err := decide (transit < 0) || (mx != 0 && decide (transit > (mx * 1000 * rate : Nat)))
  let s := s.setFld F.PHX_STREAM_STAT.TRANSIT i (min 65535 (transit.toNat / (1000 * rate)))
  let val (c : Nat) : Option (Nat × Nat) :=
    if s.chType i c = 0 then none else (pairs[c]?).map fun v => (v / 4294967296, v % 4294967296)
  let vals := (List.range 8).map val
  let x : Smp := {
    idx := idx
    smpCnt := cnt
    synch := synch
    vals := vals
    timeErr := err
    test := vals.any fun v => (v.map fun e => bit e.2 11).getD false
    qual := vals.any fun v => (v.map fun e => e.2 % 4 != 0).getD false }
  let st := s.stream i
  if !st.seen then (s.bump .PHX_SAMPLES i).acceptSmp i d x { st with newest := idx, done := idx, opened := [] }
  else if idx > st.newest + rate || st.newest > idx + rate then
    (s.bump .PHX_RESYNC i).acceptSmp i d x { st with newest := idx, done := idx, opened := [], hist := [] }
  else if idx > st.newest then (s.bump .PHX_SAMPLES i).acceptSmp i d x { st with newest := idx }
  else if idx < st.done then s.bump .PHX_LATE i
  else match st.opened.find? fun y => y.idx == idx with
    | none => (s.bump .PHX_REORDERED i).acceptSmp i d x st
    | some y =>
      let s := s.bump .PHX_DUP i
      if y.vals ≠ x.vals then s.bump .PHX_DUP_DIFFER i else s

/-- What beyond the ingest bound becomes of a record (R528): the stream's positions, supervision, counters, the values it delivers and the
row it writes are free. -/
def State.wildSmp (s : State) (i : Nat) (d : Delivered) : State :=
  let w (l : List Nat) : Nat := Config.wildWord (l ++ [i, s.now, s.sideQ.length])
  let x := Config.wildStream [i, s.now, s.sideQ.length]
  let s := [Ctr.PHX_SMPCNT_RANGE, .PHX_RESYNC, .PHX_SAMPLES, .PHX_REORDERED, .PHX_DUP, .PHX_DUP_DIFFER, .PHX_LATE, .PHX_INTERP,
    .PHX_ABSENT].foldl (fun (s : State) c => s.add c i (w [0, c.code])) s
  let s : State := { s with streams := sput s.streams {} i { x with state := (s.stream i).state, seen := true, last := s.now } }
  let s := s.setReg .PHX_STREAM_STAT i 0 (w [1] / 4 * 4 % 128 + w [2] * 65536 + s.fld F.PHX_STREAM_STAT.STATE i)
  let s := (s.chans i).foldl (fun s c =>
    s.evtIn { src := .qty i c, value := w [3, c] % 4294967296, valid := bit (w [4, c]) 0, frc := d.ts, ptp := d.tsPtp }) s
  let s := match x.hist.head? with
    | some y => s.recWrite i y
    | none => s
  s.setStream i (1 + w [5] % 3)

/-- SV_SAMPLE_RECORD (R489 to R495): the oldest Sampled Values record. -/
def execSvSampleRecord (dt : Nat) (s : State) : Out :=
  let s := s.advance dt
  match readySv s.sideQ [] with
  | none => finish s
  | some d =>
    let s := { s with sideQ := s.sideQ.erase d }
    match d.side with
    | .ev _ _ _ _ => finish s
    | .sv key cnt synch _ pairs =>
      if !s.phxRuns then finish s else
      match s.streamsOn.find? fun i => s.streamKey i == key with
      | none => finish (s.bump .PHX_UNKNOWN d.pl)
      | some i =>
        if s.phxFenced i then finish s
        else if s.pwr.banksOff.contains (i / 1024) then finish (s.bump .PHX_BANK_WAKE i)
        else if s.phxWild then finish (s.wildSmp i d)
        else finish (s.placeSmp i d cnt synch pairs)

/-- STREAM_LOSS (R499). -/
def execStreamLoss (dt : Nat) (i : Fin 4096) (s : State) : Out :=
  let s := s.advance dt
  let st := s.stream i
  let us := max 1 (s.fld F.PHX_STREAM.LOSS_US i)
  if !st.seen || st.state = 3 || !s.flag F.PHX_STREAM.EN i || !s.phxRuns || s.now < st.last + 1000 * us then finish s
  else finish ((s.finalTo i (st.newest + 1)).setStream i 3)

/-- A stream restarts as IDLE with nothing placed (R500, R526). -/
def State.restartStream (s : State) (i : Nat) : State :=
  let s := s.setStream i 0
  let s := s.setReg .PHX_STREAM_STAT i 0 0
  { s with streams := sdel s.streams i }

/-! ## Estimates (R502 to R505, R510) -/

/-- Finalised positions of a window half ns to each side of an instant, oldest first, and whether it is complete and valid (R504). -/
def State.window (s : State) (i te half : Nat) : List Smp × Bool :=
  let rate := s.smpRate i
  let lo := cdiv ((te - half) * rate) 1000000000
  let hi := (te + half) * rate / 1000000000
  let w := ((s.stream i).hist.filter fun x => decide (lo ≤ x.idx) && decide (x.idx ≤ hi)).reverse
  if s.phxWild then Config.wildWindow [i, te, half, s.now] else
  (w, decide (w.length = hi + 1 - lo) && w.all (s.smpOk i))

/-- The value of a finite float32 in units of 2^-149. -/
def f32Val (v : Nat) : Option Int :=
  let e := bits v 23 8
  if e = 255 then none else
  let a : Int := ((if e = 0 then bits v 0 23 else (bits v 0 23 + 8388608) * 2 ^ (e - 1) : Nat) : Int)
  some (if bit v 31 then -a else a)

/-- A float32 lies within a bound in units of 2^-149 of another. -/
def f32Near (e r : Nat) (bound : Int → Int) : Bool :=
  match f32Val e, f32Val r with
  | some a, some x => decide (a - x ≤ bound x) && decide (x - a ≤ bound x)
  | _, _ => false

/-- The total vector error of a phasor against another, real and imaginary parts, is at most so many 0.01 %. -/
def tveOk (tve : Nat) (e r : Nat × Nat) : Bool :=
  match f32Val e.1, f32Val e.2, f32Val r.1, f32Val r.2 with
  | some a, some b, some x, some y =>
    decide (((a - x) * (a - x) + (b - y) * (b - y)) * 100000000 ≤ (tve : Int) * tve * (x * x + y * y))
  | _, _, _, _ => false

/-- Table 12-6: TVE in 0.01 %, FE in mHz and RFE in mHz/s of a P-class (false) or M-class estimate, by the condition the sampled values meet: 1 steady
state, 2 ramp, 3 modulation, 4 out-of-band interference. -/
def accuracy (m : Bool) (cond : Nat) : Option (Nat × Nat × Option Nat) :=
  match m, cond with
  | false, 1 => some (20, 2, some 20)
  | true, 1 => some (20, 2, some 10)
  | _, 2 => some (40, 5, some 100)
  | false, 3 => some (100, 30, some 1500)
  | true, 3 => some (100, 150, some 7000)
  | true, 4 => some (100, 10, none)
  | _, _ => none

/-- What an estimate is computed from: its settings and instant, then the finalised positions of its window. -/
def State.estArgs (s : State) (i code part use te : Nat) : List Nat :=
  [b2n s.phxWild * (s.now + 1), code, part, use, s.nomF i, s.smpRate i, te, s.reg .PHX_STREAM i 2, s.reg .PHX_STREAM i 5, s.reg .PHX_STREAM i 6]
def winVals (w : List Smp) : List (Nat × List (Option Nat)) := w.map fun x => (x.idx, x.vals.map fun v => v.map (·.1))

/-- A quantity of a stream at an instant over a window as the estimator gives it, and its true value for the sampled values as delivered; use is
the number of the window's class and rate. -/
def State.estimate (s : State) (i code part use te : Nat) (w : List Smp) : Nat :=
  Config.estimate (s.estArgs i code part use te) (winVals w) % 4294967296
def State.trueVal (s : State) (i code part use te : Nat) (w : List Smp) : Nat :=
  Config.trueValue (s.estArgs i code part use te) (winVals w) % 4294967296

/-- The nominal value a phasor is judged against with the range in tenths where Table 12-6 holds: voltages 10 % to 120 %, currents 10 % to 200 %. -/
def State.phNominal (s : State) (i code : Nat) : Option (Nat × Nat) :=
  let t := if code < 0x18 then s.chType i (code % 8) else if code < 0x23 then 1 else 2
  if t = 1 then some (s.fld F.PHX_STREAM.NOM_V i, 12) else if t = 2 then some (s.fld F.PHX_STREAM.NOM_I i, 20) else none

/-- The limits of R506 that hold for a phasor of a window: the window is valid, its true value in range, its condition one of Table 12-6. -/
def State.limits (s : State) (i code use te : Nat) (w : List Smp) (ok : Bool) : Option (Nat × Nat × Option Nat) :=
  if !ok || s.phxWild then none else
  match s.phNominal i code, f32Val (s.trueVal i code 2 use te w), f32Val (s.trueVal i code 3 use te w) with
  | some (nom, top), some x, some y =>
    let n : Int := ((nom * 2 ^ 149 : Nat) : Int)
    let q := 100 * (x * x + y * y)
    if n * n ≤ q && q ≤ (top : Int) * top * (n * n) then accuracy (bit use 0) (Config.sigCondition (s.estArgs i code 0 use te) (winVals w)) else none
  | _, _, _ => none

/-- The phasor of a quantity, real and imaginary part: the estimator's within the limits that hold (R506). -/
def State.phasor (s : State) (i code use te : Nat) (w : List Smp) (ok : Bool) : Nat × Nat :=
  let e := (s.estimate i code 2 use te w, s.estimate i code 3 use te w)
  let r := (s.trueVal i code 2 use te w, s.trueVal i code 3 use te w)
  match s.limits i code use te w ok with
  | some (tve, _) => if tveOk tve e r then e else r
  | none => e

/-- One number of a phasor: its magnitude (0) or angle (1), or its real (2) or imaginary part (3). -/
def phPart (part : Nat) (p : Nat × Nat) : Nat := match part with | 2 => p.1 | 3 => p.2 | _ => Config.polar part p.1 p.2 % 4294967296

/-- The phasor whose angle gives the frequency: positive sequence voltage, or the lowest-numbered voltage channel (R505). -/
def State.freqCode (s : State) (i : Nat) : Nat :=
  if s.flag F.PHX_STREAM.PS_V_EN i then 0x20 else 0x10 + ((s.chans i).find? fun c => s.chType i c == 1).getD 0

/-- Frequency, limited to f0 ± 15 Hz (R505), and rate of change of frequency, within the limits that hold (R506). -/
def State.freqEst (s : State) (i use te : Nat) (w : List Smp) (ok : Bool) : Nat :=
  let (a, b) := if s.nomF i = 60 then (0x42340000, 0x42960000) else (0x420C0000, 0x42820000)
  let e := s.estimate i 0x30 0 use te w
  let r := s.trueVal i 0x30 0 use te w
  let v := match s.limits i (s.freqCode i) use te w ok with
    | some (_, fe, _) => if f32Near e r fun _ => ((fe * 2 ^ 149 / 1000 : Nat) : Int) then e else r
    | none => e
  max a (min b v)
def State.rocofEst (s : State) (i use te : Nat) (w : List Smp) (ok : Bool) : Nat :=
  let e := s.estimate i 0x31 0 use te w
  let r := s.trueVal i 0x31 0 use te w
  match s.limits i (s.freqCode i) use te w ok with
  | some (_, _, some rfe) => if f32Near e r fun _ => ((rfe * 2 ^ 149 / 1000 : Nat) : Int) then e else r
  | _ => e

/-- Quantity codes delivered at each tick (Table 12-5). -/
def State.tickCodes (s : State) (i : Nat) : List Nat :=
  (s.chans i).map (0x10 + ·) ++ (if s.flag F.PHX_STREAM.PS_V_EN i then [0x20, 0x21, 0x22] else []) ++
  (if s.flag F.PHX_STREAM.PS_I_EN i then [0x23, 0x24, 0x25] else []) ++ [0x30, 0x31]

/-- The estimates of one tick of one stream. -/
def State.tickOne (s : State) (i n : Nat) : State :=
  let te := n * 250000
  let (w, ok) := s.window i te (1000000000 / s.nomF i)
  let frc := ((s.frc : Int) - s.ptp + te).toNat
  (s.tickCodes i).foldl (fun s c =>
    let v := if c = 0x30 then s.freqEst i 0 te w ok else if c = 0x31 then s.rocofEst i 0 te w ok else phPart 0 (s.phasor i c 0 te w ok)
    s.evtIn { src := .qty i c, value := v, valid := ok, frc := frc, ptp := te }) s

/-- Ticks of a stream whose windows are finalised by now: up to one nominal cycle behind its newest finalised position; a stream that is
LOST or IDLE has none and delivers the newest tick as invalid. -/
def State.tickStream (s : State) (i : Nat) : State :=
  let st := s.stream i
  let top := s.ptp / 250000
  let n := if st.state = 3 || !st.seen then top
    else match st.hist.head? with
      | none => 0
      | some x => min top ((smpAt (s.smpRate i) x.idx - 1000000000 / s.nomF i) / 250000)
  if n ≤ st.tick then s else
  let from_ := if st.tick = 0 || n > st.tick + 4000 || st.state = 3 || !st.seen then n else st.tick + 1
  let s := (List.range (n + 1 - from_)).foldl (fun s k => s.tickOne i (from_ + k)) s
  { s with streams := sput s.streams {} i { s.stream i with tick := n } }

/-- PHX_TICK (R503). -/
def execPhxTick (dt : Nat) (s : State) : Out :=
  let s := s.advance dt
  if !s.phxRuns || !s.ready 3 then finish s
  else finish ((s.streamsOn.filter fun i => !s.phxFenced i && s.smpRate i != 0).foldl State.tickStream s)

/-! ## Harmonics (R507 to R509) -/

/-- A quiet NaN. -/
def qnan : Nat := 0x7FC00000

/-- The end of a slot's window: a zero crossing between the newest finalised position and the next, or now where the stream has no
samples; and the state with the value drawn for it. -/
def State.harmEnd (s : State) (i : Nat) : Nat × State :=
  let st := s.stream i
  match st.hist.head? with
  | none => (s.ptp, s)
  | some x =>
    if st.state = 3 then (s.ptp, s) else
    let (v, s) := s.fresh
    (min s.ptp (smpAt (s.smpRate i) x.idx + v % max 1 (1000000000 / s.smpRate i)), s)

/-- The window of a slot that ends at te: from the end of the one before, or 10 or 12 nominal cycles long where that end lies too far
back. -/
def State.harmWindow (s : State) (h i n te : Nat) : List Smp × Bool :=
  let f0 := s.nomF i
  let was := sget s.harmAt 0 h
  let len := if te - was ≤ n * 1000000000 / (f0 - 15) then te - was else n * 1000000000 / f0
  s.window i (te - len / 2) (len / 2)

/-- Fundamental and orders 2 to 50 of a window: a valid order lies within 0.5 % of reading or 0.05 % of the fundamental (R509). -/
def State.harmOrder (s : State) (i c te : Nat) (w : List Smp) (ok : Bool) (o : Nat) : Nat :=
  if !ok || o * s.nomF i * 100 ≥ 45 * s.smpRate i then qnan else
  let e := s.estimate i (0x60 + c) o 0 te w
  let r := s.trueVal i (0x60 + c) o 0 te w
  let base := ((f32Val (s.trueVal i (0x60 + c) 1 0 te w)).getD 0).natAbs
  if s.phxWild || f32Near e r (fun x => ((max (x.natAbs / 200) (base / 2000) : Nat) : Int)) then e else r

/-- HARM_WINDOW_END (R508, R509): at least 10 or 12 cycles at the highest frequency after the last one. -/
def execHarmWindowEnd (dt : Nat) (h : Fin 512) (s : State) : Out :=
  let s := s.advance dt
  let i := s.fld F.PHX_HARM.STREAM h
  let n := if s.nomF i = 60 then 12 else 10
  if !s.flag F.PHX_HARM.EN h || !s.phxRuns || s.shed 2 || s.phxFenced i || !s.flag F.PHX_STREAM.EN i || s.smpRate i = 0 then finish s else
  let (te, s) := s.harmEnd i
  if te < sget s.harmAt 0 h + n * 1000000000 / (s.nomF i + 15) then finish s else
  let (w, ok) := s.harmWindow h i n te
  let c := s.fld F.PHX_HARM.CH h
  let thd := if ok then s.estimate i 0x50 c 0 te w else qnan
  let s := (List.range 50).foldl (fun (s : State) k => s.setReg .PHX_HARM_OUT h k (s.harmOrder i c te w ok (k + 1))) s
  let s := (s.setReg .PHX_HARM_OUT h 50 thd).setReg .PHX_HARM_OUT h 51 (ptpNs te)
  let s := { s with harmAt := sset s.harmAt h te }
  finish (s.evtIn { src := .qty h 0x50, value := thd, valid := ok, ptp := te })

/-- Shedding harmonics: every output reads NaN (R526). -/
def State.harmNan (s : State) : State :=
  (List.range 512).foldl (fun s h => if s.fld F.PHX_HARM.EN h = 1 || (s.reg .PHX_HARM_OUT h 51) != 0 then
    (List.range 51).foldl (fun (s : State) k => s.setReg .PHX_HARM_OUT h k qnan) s else s) s

/-! ## Synchrophasors (R511 to R517) -/

/-- Phasors listed. -/
def State.phCount (s : State) (m : Nat) : Nat := let n := s.fld F.PHX_PMU.PH_COUNT m; if n = 0 then 1 else min 32 n

/-- Streams a report rests on. -/
def State.pmuStreams (s : State) (m : Nat) : List Nat :=
  s.fld F.PHX_PMU.FREQ_STREAM m :: (List.range (s.phCount m)).map fun k => s.fld F.PHX_PMU_LIST.STREAM (m * 32 + k)

/-- Half a window in ns for the output's class (Table 12-4). -/
def State.pmuHalf (s : State) (m f0 : Nat) : Nat :=
  if !s.flag F.PHX_PMU.CLASS m then 1000000000 / f0 else
  let rate := s.fld F.PHX_PMU.RATE m
  let w := if s.flag F.PHX_PMU.TB m then 4 * max 1 rate else (8 * f0 + rate) / max 1 (2 * rate)
  min 24 (max 3 w) * 500000000 / f0

/-- The next report of an output: its PTP instant. Grid points that have fired and what a step of time has passed come first. -/
def State.pmuAt (s : State) (m : Nat) : Option Nat :=
  match (sget s.pmuDue [] m).head? with
  | some t => some t
  | none =>
    let r := s.fld F.PHX_PMU.RATE m
    if s.flag F.PHX_PMU.TB m || r = 0 then none else some (sget s.pmuNext 0 m * 1000000000 / r)

/-- The report has been dealt with. -/
def State.pmuStep (s : State) (m : Nat) : State :=
  if s.flag F.PHX_PMU.TB m || !(sget s.pmuDue [] m).isEmpty then { s with pmuDue := sput s.pmuDue [] m (sget s.pmuDue [] m).tail }
  else { s with pmuNext := sput s.pmuNext 0 m (sget s.pmuNext 0 m + 1) }

/-- An output's configuration has been committed: its next report follows now, its grid points are armed (R512, R513). -/
def State.pmuStart (s : State) (m : Nat) : State :=
  let s := (s.clearPoints fun k => k == .pmu m)
  let s := { s with pmuChg := sset s.pmuChg m s.now, pmuDue := sdel s.pmuDue m, pmuNext := sdel s.pmuNext m }
  if !s.flag F.PHX_PMU.EN m then s
  else if s.flag F.PHX_PMU.TB m then
    s.setPoint { grid := true, at_ := s.gridNext (s.fld F.PHX_PMU.GRID_ANGLE m), period := max 1 (s.fld F.PHX_PMU.RATE m) * 4294967296, kind := .pmu m }
  else { s with pmuNext := sput s.pmuNext 0 m (s.ptp * s.fld F.PHX_PMU.RATE m / 1000000000 + 1) }

/-- Nothing more is awaited for an instant: each stream has finalised its window or has no samples. -/
def State.pmuReady (s : State) (m te : Nat) : Bool :=
  (s.pmuStreams m).all fun i =>
    let st := s.stream i
    !s.flag F.PHX_STREAM.EN i || !st.seen || st.state == 3 || (match st.hist.head? with
      | none => false
      | some x => decide (smpAt (s.smpRate i) x.idx ≥ te + s.pmuHalf m (s.nomF i)))

/-- STAT of Table 12-8: whether the listed estimates are valid, the positions of their windows, and all positions used. -/
def State.pmuStat (s : State) (m : Nat) (ok : Bool) (ws used : List Smp) : Nat :=
  let st := s.fld F.TIME_STATUS.STATE 0
  let held := match s.clock.holdAt with | some t => (s.now - t) / 1000000000 | none => 0
  let chg := match sfind s.pmuChg m with | some t => decide (s.now < t + 60000000000) | none => false
  (if !ok then 49152 else if used.any (·.test) then 32768 else 0) + 8192 * b2n (ws.any fun x => x.got && syncRank x.synch != 2) +
  1024 * b2n chg + 512 * b2n (ws.any fun x => x.origin == 1) + 64 * (if st = 2 then 1 else if st = 3 then 3 else 0) +
  16 * (if st ≠ 3 || held < 10 then 0 else if held < 100 then 1 else if held < 1000 then 2 else 3)

/-- Values of a report: each phasor's two numbers with its validity, then frequency and its rate, whether every listed estimate is valid,
the positions of the listed estimates, and those of the frequency. -/
def State.pmuValues (s : State) (m te : Nat) : List (Nat × Nat × Bool) × (Nat × Nat × Bool) × Bool × List Smp × List Smp :=
  let use := b2n (s.flag F.PHX_PMU.CLASS m) + 2 * s.fld F.PHX_PMU.RATE m
  let win (i : Nat) : List Smp × Bool := if s.flag F.PHX_STREAM.EN i && s.smpRate i != 0 then s.window i te (s.pmuHalf m (s.nomF i)) else ([], false)
  let (a, b) := if s.flag F.PHX_PMU.POLAR m then (0, 1) else (2, 3)
  let ph (k : Nat) : (Nat × Nat × Bool) × List Smp :=
    let i := s.fld F.PHX_PMU_LIST.STREAM (m * 32 + k)
    let c := s.fld F.PHX_PMU_LIST.CODE (m * 32 + k)
    let (w, ok) := win i
    let p := s.phasor i c use te w ok
    ((phPart a p, phPart b p, ok), w)
  let l := (List.range (s.phCount m)).map ph
  let i := s.fld F.PHX_PMU.FREQ_STREAM m
  let (w, ok) := win i
  (l.map (·.1), (s.freqEst i use te w ok, s.rocofEst i use te w ok, ok), l.all (·.1.2.2), l.flatMap (·.2), w)

/-- The C37.118.2 data frame, or the 90-5 payload, of a report (R515, R516). -/
def State.pmuFrame (s : State) (m te : Nat) : Bytes :=
  let ticks := (te * 1200000 + 500000000) / 1000000000
  let (ph, fr, ok, ws, fw) := s.pmuValues m te
  let sec := ticks / 1200000
  let q := (Config.leapBits sec * 16 + Config.timeQuality (s.flag F.TIME_STATUS.TRACEABLE 0) (s.fld F.TIME_STATUS.STATE 0) % 16) % 256
  if s.flag F.PHX_PMU.PROTO m then
    Config.asdu905 ([sec, ticks % 1200000, q] ++ ph.flatMap (fun v => [v.1, v.2.1, b2n v.2.2]) ++ [fr.1, fr.2.1, b2n fr.2.2])
  else
    let b := toBE 0xAA02 2 ++ toBE (26 + 8 * s.phCount m) 2 ++ toBE (s.fld F.PHX_PMU.IDCODE m) 2 ++ toBE sec 4 ++
      toBE (q * 16777216 + ticks % 1200000) 4 ++ toBE (s.pmuStat m ok ws (ws ++ fw)) 2 ++
      ph.flatMap (fun v => toBE v.1 4 ++ toBE v.2.1 4) ++ toBE fr.1 4 ++ toBE fr.2.1 4
    b ++ toBE (crcCcitt b) 2

/-- A served output's data frame goes to every connection whose client switched its IDCODE on (R702). -/
def State.pmuRelay (s : State) (m : Nat) (b : Bytes) : State :=
  if s.flag F.PHX_PMU.PROTO m || wAt s.pmuSrv 0 % 2 = 0 || !bit (wNat s.pmuSrv 3 2) m then s else
  { s with pmuTx := s.pmuTx ++ (s.pmuConn.filter fun e => e.2.on.contains (s.fld F.PHX_PMU.IDCODE m)).map fun e => (e.2.key, b) }

/-- PMU_REPORT (R514 to R517): with no free buffer the publisher asks again. -/
def execPmuReport (dt : Nat) (m : Fin 64) (s : State) : Out :=
  let s := s.advance dt
  if !s.flag F.PHX_PMU.EN m || !s.phxRuns then finish s else
  match s.pmuAt m with
  | none => finish s
  | some te =>
    if s.ptp < te || !s.pmuReady m te then finish s
    else if !s.flag F.TIME_STATUS.TRACEABLE 0 then finish ((s.pmuStep m).bump .PHX_PMU_SUPPRESS m)
    else
      let pay := s.pmuFrame m te
      let n := s.fld F.PHX_PMU.ENCAP m
      let f : Frame := { port := 42, pl := 0, bytes := pay, gen := s.cur }
      let x := (rwStart s f 0 42).encap n (tmplOf (s.verAt .RW_ENCAP n s.cur)) 0
      if x.dead then finish ((x.s.pmuStep m).pmuRelay m pay) else
      let (b, s') := if x.bad then x.s.freshBytes x.b.length else (x.b, x.s)
      let q := s.fld F.PHX_PMU.QUEUE m
      match s'.publish b [] [(4, 16), (6, 0x1F1F1F), (8, 31)] (s.fld F.PHX_PMU.DEST m) (s.flag F.PHX_PMU.GROUP m) q (s.pubClass q) none with
      | none => finish s
      | some (_, t) => finish ((t.pmuStep m).pmuRelay m pay)

/-! ## Host commands on the recorder and the synchrophasor server (R520, R523, R525, R702, R703) -/

/-- REC_TRIGGER. -/
def execRecTrigger (dt : Nat) (r : Req) (s : State) : Out :=
  runCmd { op := 0xC5, role := some 1 } dt r s fun s =>
    let a := r.arg.toNat
    good (s.recTrigger (bits a 0 6) s.ptp (2 ^ bits a 8 5))

/-- REC_RELEASE: the oldest record and its protected rows. -/
def execRecRelease (dt : Nat) (r : Req) (s : State) : Out :=
  runCmd { op := 0xC6, role := some 1 } dt r s fun s =>
    let g := bits r.arg.toNat 0 6
    match s.records g with
    | [] => fail Status.badParam s
    | x :: l => if x.isOpen then fail Status.badParam s else good (s.setRecords g l)

/-- A row of a record lies in its window. -/
def Record.holds (r : Record) (row : Bytes) : Bool :=
  let t := ofLE ((row.drop 12).take 4) * 1000000000 + ofLE ((row.drop 8).take 4)
  decide (r.start ≤ t) && decide (t ≤ r.stop)

/-- The analog channels of a record: one a configured channel of a stream that its rows name. -/
def State.recChans (s : State) (rows : List Bytes) : List (Nat × Nat) :=
  (((rows.map fun b => ofLE (b.take 4) % 4096).foldl ins []).flatMap fun i => (s.chans i).map fun c => (i, c))

/-- REC_READ: bytes of the file from the offset, which firmware assembles from the rows whose instants lie in the window (R525). -/
def execRecRead (dt : Nat) (r : Req) (s : State) : Out :=
  runCmd { op := 0xC7, role := some 0, read := true, fn := some 11 } dt r s fun s =>
    let a := r.arg.toNat
    let g := bits a 0 6
    match s.records g with
    | [] => fail Status.badParam s
    | x :: _ =>
      if x.isOpen then fail Status.badParam s else
      let n := s.recN g
      let rows := ((List.range ((x.last + n - x.first) % max 1 n + 1)).map fun k =>
        s.dramBytes (s.recAddr g ((x.first + k) % max 1 n) % dramSize) 80).filter x.holds
      let b := Config.comtrade (bits a 8 1) x.words (s.recChans rows) rows
      let s := (List.range ((x.last + n - x.first) % max 1 n + 1)).foldl (fun (s : State) k =>
        s.dramAsk 3 false (s.recAddr g ((x.first + k) % max 1 n) % dramSize) 80 none) s
      .done 0 s b.length ((b.drop (r.w 0)).take r.outLen)

/-- PMU_SERVER (R702): the settings firmware serves from; turning it off closes its connections. -/
def execPmuServer (dt : Nat) (r : Req) (s : State) : Out :=
  runCmd { op := 0xC3, role := some 1 } dt r s fun s =>
    let conn := if bit (r.w 0) 0 then s.pmuConn else []
    .done 0 { s with pmuSrv := r.payload, pmuConn := conn } conn.length []

/-- PMU_CLIENT_TIMEOUT (R702): 5 s without an acknowledgement. -/
def execPmuClientTimeout (dt : Nat) (c : Fin 16) (s : State) : Out :=
  let s := s.advance dt
  match sfind s.pmuConn c with
  | none => finish s
  | some x => if s.now < x.at_ + 5000000000 then finish s else finish { s with pmuConn := sdel s.pmuConn c }

end Sys2Proof.Machine
end

