-- ==== Sys2Proof/Machine/Publish.lean ====
section
/-! DEFINITION. GOOSE publisher templates (R552 to R560) and GPIO outputs (R561 to R564). -/
namespace Sys2Proof.Machine

/-- State of a condition. -/
def State.cond (s : State) (c : Nat) : Cond := sget s.conds {} c

/-- A template. -/
def State.tmpl (s : State) (t : Nat) : Gpub := sget s.gpub {} t
def State.setTmpl (s : State) (t : Nat) (g : Gpub) : State := { s with gpub := sput s.gpub {} t g }

/-- Word w of a template. -/
def State.gw (s : State) (t w : Nat) : Nat := s.reg .EVT_GPUB t w

/-- Slot j: offset, length, condition, AUTO, values (Table 13-7). -/
structure Slot where
  off   : Nat
  len   : Nat
  cond  : Nat
  auto_ : Bool
  vt    : Nat
  vf    : Nat

def State.slot (s : State) (t j : Nat) : Slot :=
  let v := s.gw t (11 + 3 * j)
  { off := bits v 0 9, len := min 4 (bits v 9 3), cond := bits v 16 11, auto_ := bit v 30, vt := s.gw t (12 + 3 * j), vf := s.gw t (13 + 3 * j) }

/-- Interval before frame k of a state, k at least 1 (R555). -/
def State.gInterval (s : State) (t k : Nat) : Nat :=
  let t1 := max 1 (s.fld F.EVT_GPUB.T1 t)
  min (t1 * 2 ^ min 24 (k - 1)) (max t1 (s.fld F.EVT_GPUB.T0 t))

/-- Templates that differ from reset. -/
def State.tmplList (s : State) : List Nat := ((s.written .EVT_GPUB).map (·.1)).foldl ins []

/-- The instant of frame 0: it waits for the publisher, and frame 1's instant is fixed (R555, R556). -/
def State.frame0 (s : State) (t start : Nat) : State :=
  let g := s.tmpl t
  let iv := s.gInterval t 1
  let s := s.setTmpl t { g with due := some 0, k := 0, next := if s.flag F.EVT_GPUB.TB t then none else some (s.frc + 1000 * iv) }
  if s.flag F.EVT_GPUB.TB t then s.setPoint { grid := true, at_ := (start + iv * 65536) % 18446744073709551616, kind := .goose t } else s

/-- Quality byte of T (R554). -/
def State.tQuality (s : State) : Nat :=
  let tr := s.flag F.TIME_STATUS.TRACEABLE 0
  128 * b2n (Config.leapState (ptpSec s.ptp)) + 64 * b2n (s.fld F.TIME_STATUS.STATE 0 == 0) + 32 * b2n (!tr) + (if tr then 20 else 31)

/-- A new state of a template (R553, R554, R557, R558). -/
def State.newState (s : State) (t edge : Nat) (align : Option Nat) : State :=
  if !s.flag F.EVT_GPUB.EN t then s else
  let g := s.tmpl t
  let s := if g.wait0 then s.bump .EVT_PUB_SUPERSEDED t else s
  let s := s.clearPoints fun k => k == .goose t || k == .align t
  let val (j : Nat) : Nat := let x := s.slot t j; if (s.cond x.cond).state then x.vt else x.vf
  let s := s.setTmpl t {
    st := g.st % 4294967295 + 1
    edge := edge
    qual := s.tQuality
    vals := (List.range 8).map val
    at_ := s.frc
    wait0 := true
    bad := g.bad }
  match align with
  | none => s.frame0 t s.gridNow
  | some a => s.setPoint { grid := true, at_ := s.gridNext a % 18446744073709551616, kind := .align t }

/-- The instant of a later frame: it waits for the publisher, or is noted as passed while another waits (R559). -/
def State.frameDue (s : State) (t : Nat) : State :=
  let g := s.tmpl t
  let g := { g with k := g.k + 1 }
  s.setTmpl t (if g.due.isSome then { g with late := some g.k } else { g with due := some g.k })

/-- GOOSE_RETRANSMIT (R555): an instant of the schedule in µs. -/
def execGooseRetransmit (dt : Nat) (t : Fin 256) (s : State) : Out :=
  let s := s.advance dt
  match (s.tmpl t).next with
  | none => finish s
  | some at_ =>
    if s.frc < at_ || !s.flag F.EVT_GPUB.EN t || s.flt.safe then finish s else
    let s := s.frameDue t
    let g := s.tmpl t
    finish (s.setTmpl t { g with next := some (at_ + 1000 * s.gInterval t (g.k + 1)) })

/-- Twice the interval to the next frame, in ms, rounded up (R555, R556). -/
def State.tal (s : State) (t k : Nat) : Nat :=
  let iv := s.gInterval t (k + 1)
  if s.flag F.EVT_GPUB.TB t then cdiv (2 * iv * 16000) (max 1 s.clock.gridFreq) else cdiv (2 * iv) 1000

/-- What a frame carries besides its stored bytes: offset and bytes, in the order of Table 13-7. -/
def State.goosePuts (s : State) (t k : Nat) : List (Nat × Bytes) :=
  let g := s.tmpl t
  let frac := g.edge % 1000000000 * 16777216 / 1000000000
  [(s.fld F.EVT_GPUB.STNUM_OFF t, toBE g.st 5), (s.fld F.EVT_GPUB.SQNUM_OFF t, toBE g.sq 5), (s.fld F.EVT_GPUB.TAL_OFF t, toBE (s.tal t k) 4),
    (s.fld F.EVT_GPUB.T_OFF t, toBE (g.edge / 1000000000) 4 ++ toBE frac 3 ++ toBE g.qual 1)] ++
  ((List.range 8).map fun j => let x := s.slot t j; (x.off, toBE (g.vals.getD j 0) x.len))

/-- Two pieces overlap, or one passes the end. -/
def putsBad (n : Nat) : List (Nat × Bytes) → Bool
  | [] => false
  | x :: l => (x.2 ≠ [] && (decide (x.1 + x.2.length > n) || l.any fun y =>
      decide (y.2 ≠ []) && decide (x.1 < y.1 + y.2.length) && decide (y.1 < x.1 + x.2.length))) || putsBad n l

/-- Header-stack entries supplied (R268). -/
def State.gooseHdrs (s : State) (t : Nat) : List Nat := (List.range (min 4 (s.fld F.EVT_GPUB.HSP t))).map fun i => s.gw t (3 + i)

/-- Index of the first header of the types given, 31 when there is none. -/
def hdrIdx (l : List Nat) (ty : List Nat) : Nat := (l.findIdx? fun h => ty.contains (h % 256)).getD 31

/-- A frame's bytes; contents the spec calls undefined are free (R573). -/
def State.gooseBytes (s : State) (t k : Nat) : Bytes × State :=
  let n := min 512 (s.fld F.EVT_GPUB.LEN t)
  let raw := ((List.range 128).flatMap fun w => toLE (s.reg .EVT_GPUB_DATA t w) 4).take n
  let ps := s.goosePuts t k
  let heads := (s.gooseHdrs t).map fun h => (bits h 8 10, List.replicate (bits h 18 10) (0 : Byte))
  if putsBad n ps || putsBad n heads || (s.tmpl t).bad then s.freshBytes n
  else ((ps.foldl (fun b p => splice b p.1 p.2) raw).take n, s)

/-- An event log entry (R551). -/
def State.logEvt (s : State) (e : EvLog) : State :=
  if s.evtLog.length ≥ 1024 then s.bump .EVT_LOG_DROP 0 else { s with evtLog := s.evtLog ++ [e] }

/-- GOOSE_FRAME_BUILD (R553 to R560): with no buffer the publisher asks again. -/
def execGooseFrameBuild (dt : Nat) (t : Fin 256) (s : State) : Out :=
  let s := s.advance dt
  let g := s.tmpl t
  match g.due with
  | none => finish s
  | some k =>
    if !s.flag F.EVT_GPUB.EN t || s.flt.safe || s.pwr.closing then finish s else
    let (b, s1) := s.gooseBytes t k
    let hs := s.gooseHdrs t
    let w2 := s.gw t 2
    let idx := hdrIdx hs [6, 7] + 256 * hdrIdx hs [9, 10] + 65536 * hdrIdx hs [13, 14, 15]
    let rw := if bit w2 0 then some (s.fld F.EVT_GPUB.REWRITE t) else none
    match s1.publish b hs [(4, 16), (6, idx), (8, hdrIdx hs [16])] (s.fld F.EVT_GPUB.DEST t) (s.flag F.EVT_GPUB.GROUP t)
      (s.fld F.EVT_GPUB.QUEUE t) (s.fld F.EVT_GPUB.CLASS t) rw with
    | none => finish s
    | some (ok, u) =>
      let u := if ok then u else u.bump .EVT_PUB_DROP t
      let u := if g.dueLate then u.logEvt { act := t, cond := 0, rising := false, ptp := g.edge, frc := u.frc, note := 2 } else u
      finish (u.setTmpl t { g with
        sq := if g.sq = 4294967295 then 1 else g.sq + 1
        wait0 := false
        due := g.late
        dueLate := g.late.isSome
        late := none })

/-- A template's registers have been committed (R552, R553, R573): EN set starts it without a state; a write while EN was set leaves its
contents undefined; EN clear ends its schedule. -/
def State.tmplCommitted (s : State) (t : Nat) (wasEn : Bool) : State :=
  let s := if s.flag F.EVT_GPUB.EN t && wasEn then s else s.clearPoints fun k => k == .goose t || k == .align t
  if !s.flag F.EVT_GPUB.EN t then s.setTmpl t {}
  else if wasEn then s.setTmpl t { s.tmpl t with bad := true }
  else s.setTmpl t {}

/-! ## GPIO outputs -/

/-- An output takes a level: a GPIO condition on it reads the driven level (R561). -/
def State.drivePin (s : State) (n : Nat) (b : Bool) (pulse : Option Nat) : State :=
  let g := s.pin n
  let s := s.setPin n { g with out := b, pulse := pulse }
  if g.out = b then s else s.evtIn { src := .gpio n, value := b2n b }

/-- A GPIO action: set, clear, pulse or follow (R562, R563). -/
def State.gpioAct (s : State) (n op width : Nat) (state : Bool) : State :=
  if !s.flag F.GPIO_OUT_CFG.OUT_EN n || s.flt.safe then s else
  match op with
  | 0 => s.drivePin n true none
  | 1 => s.drivePin n false none
  | 2 => s.drivePin n true (some (s.now + 1000 * max 1 width))
  | _ => s.drivePin n state none

/-- GPIO_PULSE_END (R563). -/
def execGpioPulseEnd (dt : Nat) (n : Fin 32) (s : State) : Out :=
  let s := s.advance dt
  match (s.pin n).pulse with
  | none => finish s
  | some t => if s.now < t || s.flt.safe then finish s else finish (s.drivePin n false none)

/-- GPIO_OUT_CFG has been committed (R561, R562, R564): an output drives INIT from the commit that sets OUT_EN, and SAFE in the safe
state. -/
def State.gpioCommitted (s : State) (n : Nat) : State :=
  let g := s.pin n
  let en := s.flag F.GPIO_OUT_CFG.OUT_EN n
  if en && !g.drive then
    State.drivePin (s.setPin n { g with drive := true, cand := none }) n
      (if s.flt.safe then s.flag F.GPIO_OUT_CFG.SAFE n else s.flag F.GPIO_OUT_CFG.INIT n) none
  else if !en && g.drive then s.setPin n { g with drive := false, pulse := none }
  else s

end Sys2Proof.Machine
end

