-- ==== Sys2Proof/Machine/Security.lean ====
section
/-! DEFINITION. The security domain's commands and events (chapter 15). -/
namespace Sys2Proof.Machine

/-! ## Measurements, identity, keys -/

/-- Extend measurement register i by a digest of an item type (R645, R647). -/
def State.extend (s : State) (i typ : Nat) (d : Bytes) : State :=
  let x := s.sec
  let m := Config.shake256 (x.meas.getD i [] ++ toLE typ 4 ++ d)
  { s with sec := { x with
      meas := x.meas.set i m
      log := (x.log ++ [Meas.mk i typ d s.frc]).drop (x.log.length + 1 - 1024)
      logLost := x.logLost || decide (x.log.length ≥ 1024) } }

/-- Bytes of the operator table. -/
def operBytes (l : Sparse Operator) : Bytes := l.flatMap fun e => toLE e.1 4 ++ toLE e.2.role 4 ++ e.2.key

/-- Register 5: lifecycle, debug state, owner root key and operator table (Table 15-5), at start and at each change. -/
def State.extend5 (s : State) : State :=
  s.extend 5 5 (Config.shake256 (toLE s.sec.lifecycle 4 ++ toLE s.sec.debug 4 ++ Config.shake256 s.sec.ownerRoot ++
    Config.shake256 (operBytes s.sec.operators)))

/-- The device identifier (R648). -/
def deviceId : Bytes := (Config.shake256 Config.dikPublic).take 16

/-- Pad bytes with zeros to n bytes. -/
def padTo (n : Nat) (b : Bytes) : Bytes := b ++ List.replicate (n - b.length) 0

/-- Bytes of an item of n bytes at payload word i (R712). -/
def Req.item (r : Req) (i n : Nat) : Bytes := payBytes r.payload i n

/-- Keys zeroised on entry to VENDOR debug (Table 15-1, R665). -/
def State.zeroise (s : State) : State :=
  { s with
    sec := { s.sec with
      caks := []
      gkeys := [] }
    txSa := []
    rxSa := [] }

/-- Owner items of the persistent store go (Table 15-1). -/
def ownerGone (x : Sec) : Sec := { x with ownerRoot := [], operators := [], policy := 900, caks := [], gkeys := [] }

/-- Fuses may be programmed: VIN at 33 V or more and no HOLD (R662). -/
def State.fuseOk (s : State) : Bool := decide (s.pwr.vin ≥ 33000) && s.power != 3

/-- SEC_STATE (Table 15-11). -/
def State.secState (s : State) : Nat :=
  s.sec.lifecycle + 4 * s.sec.debug + 16 * s.sec.svnFloor + 1024 * s.sec.revoked + 16384 * b2n s.sec.rngFail +
  65536 * s.sec.ownerEpoch

/-! ## Sessions (R654 to R659) -/

/-- A session identifier that is new. -/
def newSid (s : State) (v : Nat) : Nat :=
  ((List.range 40).map fun i => (v + i) % 65536).find? (fun i =>
    !(s.sec.sessions.any fun e => e.2.sid == i) && !(s.sec.opening.any fun e => e.2.sid == i)) |>.getD 0

/-- The text t1 of R654. -/
def sessionText (ch op : Nat) (nh xh nd xd : Bytes) (sid : Nat) : Bytes :=
  [0x5A, 0x4B, 0x34, 0x38, 0x31, 0x36, 0x20, 0x53, 0x45, 0x53, 0x53, 0x49, 0x4F, 0x4E].map (BitVec.ofNat 8) ++
    deviceId ++ toLE ch 4 ++ toLE op 4 ++ nh ++ xh ++ nd ++ xd ++ toLE sid 2

/-- SESSION_BEGIN (R654). -/
def execSessionBegin (dt : Nat) (r : Req) (s : State) : Out :=
  runCmd { op := 0x100, role := none, fn := some 1 } dt r s fun s =>
    let op := r.w 0
    if s.power = 3 || s.sec.lifecycle = 3 then fail Status.secState s
    else if op > 15 || r.inLen < 92 || (sfind s.sec.operators op).isNone then fail Status.badParam s
    else if s.now < sget s.sec.lockout 0 op then fail 0xA08 s
    else if s.sec.rngFail then fail 0xA00 s
    else
      let xh := r.item 1 56
      let nh := r.item 15 32
      let (nd, s) := s.freshBytes 32
      let (x, s) := s.freshBytes 56
      let (v, s) := s.fresh
      let sid := newSid s v
      let xd := Config.x448Public x
      let t1 := sessionText r.ch op nh xh nd xd sid
      let sd := Config.signDik t1
      let o : Opening := { sid := sid, op := op, t1 := t1, sd := sd, xd := x, xh := xh, at_ := s.now }
      let s := { s with sec := { s.sec with sessions := sdel s.sec.sessions r.ch, opening := sset s.sec.opening r.ch o } }
      .done 0 s 0 (nd ++ xd ++ toLE sid 4 ++ padTo 116 sd)

/-- A failed verification: eight within 60 s lock the operator out for 60 s (R659). -/
def State.sessionFailed (s : State) (op : Nat) : State :=
  let l := (sget s.sec.fails [] op).filter (fun t => decide (s.now < t + 60000000000)) ++ [s.now]
  if l.length ≥ 8 then
    { s with sec := { s.sec with fails := sdel s.sec.fails op, lockout := sset s.sec.lockout op (s.now + 60000000000) } }
  else { s with sec := { s.sec with fails := sset s.sec.fails op l } }

/-- SESSION_FINISH (R654). -/
def execSessionFinish (dt : Nat) (r : Req) (s : State) : Out :=
  runCmd { op := 0x101, role := none, fn := some 1 } dt r s fun s =>
    match sfind s.sec.opening r.ch with
    | none => fail Status.secNoSession s
    | some o =>
      if o.sid ≠ r.w 0 || s.now ≥ o.at_ + 10000000000 then fail Status.secNoSession s
      else match sfind s.sec.operators o.op with
      | none => fail Status.secNoSession s
      | some k =>
        if Config.ed448Verify k.key (o.t1 ++ o.sd) (r.item 1 114) then
          let key := Config.kmac256 (Config.x448 o.xd o.xh) o.t1 32 2
          good { s with sec := { s.sec with
            opening := sdel s.sec.opening r.ch
            sessions := sset s.sec.sessions r.ch { sid := o.sid, op := o.op, key := key, last := s.now } } }
        else fail Status.secAuthFail (s.sessionFailed o.op)

/-- SESSION_CLOSE (R657). -/
def execSessionClose (dt : Nat) (r : Req) (s : State) : Out :=
  runCmd { op := 0x102, role := some 0, read := true, fn := some 1 } dt r s fun s =>
    if (s.session r.ch).isNone then fail Status.secNoSession s
    else good { s with sec := { s.sec with sessions := sdel s.sec.sessions r.ch } }

/-- SESSION_LAPSE (R654). -/
def execSessionLapse (dt : Nat) (ch : Fin 16) (s : State) : Out :=
  let s := s.advance dt
  match sfind s.sec.opening ch with
  | some o => if s.now ≥ o.at_ + 10000000000 then finish { s with sec := { s.sec with opening := sdel s.sec.opening ch } } else finish s
  | none => finish s

/-- IDLE_S as the device acts on it, in ns (R671). -/
def State.idleNs (s : State) : Nat := 1000000000 * max 10 (bits s.sec.policy 0 16)

/-- SESSION_IDLE_TIMEOUT (R657). -/
def execSessionIdleTimeout (dt : Nat) (ch : Fin 16) (s : State) : Out :=
  let s := s.advance dt
  match s.session ch with
  | some x => if s.now ≥ x.last + s.idleNs then finish { s with sec := { s.sec with sessions := sdel s.sec.sessions ch } } else finish s
  | none => finish s

/-! ## Quotes and measurements -/

/-- Registers a mask selects, ascending. -/
def maskRegs (m : Nat) : List Nat := (List.range 16).filter (bit m)

/-- Words of a quote before its signature (Table 15-6). -/
def quoteBytes (s : State) (nonce : Bytes) (mask : Nat) : Bytes :=
  let l := maskRegs mask
  wordsBytes [w32 0x544F5551, w32 (1 + 65536 * (4 * (54 + 16 * l.length))),
    w32 (s.sec.lifecycle + 4 * s.sec.debug + 16 * s.power + 128 * s.fld F.SEC_BOOT.BOOTED 0 + 256 * s.sec.svnFloor +
      16384 * b2n s.sec.logLost + 65536 * mask),
    w32 ((s.sec.running.map (·.version)).getD 0), w32 ((s.sec.running.map (·.compat)).getD 0),
    w32 (s.member + 512 * s.fld F.TIME_STATUS.TRACEABLE 0 + 1024 * s.fld F.FAB_STATE.TIME_SUSPECT 0),
    w32 (s.reg .FAB_EPOCH 0 0), w32 (s.reg .FAB_EPOCH 0 1)] ++ padTo 16 deviceId ++ padTo 32 nonce ++
  wordsBytes [w32 s.frc, w32 (s.frc / 4294967296), w32 (ptpNs s.ptp), w32 (ptpSec s.ptp), w32 (ptpSec s.ptp / 4294967296 % 65536)] ++
  l.flatMap fun i => s.sec.meas.getD i []

/-- SEC_QUOTE (R649, R650). -/
def execSecQuote (dt : Nat) (r : Req) (s : State) : Out :=
  runCmd { op := 0x103, role := none, fn := some 1 } dt r s fun s =>
    if s.sec.lifecycle = 3 then fail 0xA02 s
    else if r.inLen < 36 || r.w 8 ≥ 65536 then fail Status.badParam s
    else
      let q := quoteBytes s (r.item 0 32) (r.w 8)
      .done 0 s 0 (q ++ padTo 116 (Config.signDik q))

/-- SEC_CERT (R648); none in RETIRED (Table 15-9). -/
def execSecCert (dt : Nat) (r : Req) (s : State) : Out :=
  runCmd { op := 0x104, role := none, fn := some 1 } dt r s fun s =>
    if s.sec.lifecycle = 3 then fail 0xA02 s else .done 0 s 0 Config.certificate

/-- SEC_EXTEND (R646): register, item type, digest. -/
def execSecExtend (dt : Nat) (r : Req) (s : State) : Out :=
  runCmd { op := 0x105, role := some 2, fn := some 1 } dt r s fun s =>
    if r.w 0 < 8 || r.w 0 > 15 || r.inLen < 72 then fail Status.badParam s
    else good (s.extend (r.w 0) (r.w 1) (r.item 2 64))

/-! ## Operators and lifecycle -/

/-- OPERATOR_ENROL (R652): role and public key. -/
def execOperatorEnrol (dt : Nat) (r : Req) (s : State) : Out :=
  runCmd { op := 0x106, role := some 2, fn := some 1 } dt r s fun s =>
    match (List.range 16).find? fun i => (sfind s.sec.operators i).isNone with
    | none => fail Status.badParam s
    | some i =>
      if r.w 0 > 2 || r.inLen < 64 then fail Status.badParam s
      else .done 0 ({ s with sec := { s.sec with operators := sset s.sec.operators i { key := r.item 1 57, role := r.w 0 } } } : State).extend5 i []

/-- OPERATOR_REMOVE (R652, R657): the operator index. -/
def execOperatorRemove (dt : Nat) (r : Req) (s : State) : Out :=
  runCmd { op := 0x107, role := some 2, fn := some 1 } dt r s fun s =>
    match sfind s.sec.operators (r.w 0) with
    | none => fail Status.badParam s
    | some k =>
      if k.role = 2 && (s.sec.operators.filter fun e => e.2.role == 2).length ≤ 1 then fail 0xA03 s
      else good ({ s with sec := { s.sec with
        operators := sdel s.sec.operators (r.w 0)
        sessions := s.sec.sessions.filter fun e => e.2.op != r.w 0
        opening := s.sec.opening.filter fun e => e.2.op != r.w 0 } } : State).extend5

/-- PROVISION (R660): owner root key, and in BLANK the first ADMIN operator key. -/
def execProvision (dt : Nat) (r : Req) (s : State) : Out :=
  runCmd { op := 0x108, role := some 2, fn := some 1 } dt r s fun s =>
    if s.sec.lifecycle > 1 || !s.fuseOk then fail Status.secState s
    else if r.inLen < (if s.sec.lifecycle = 0 then 120 else 60) then fail Status.badParam s
    else
      let x := { s.sec with ownerRoot := r.item 0 57, policy := 900 }
      let x := if s.sec.lifecycle = 0 then
          closeSessions { x with lifecycle := 1, operators := sset [] 0 (Operator.mk (r.item 15 57) 2) }
        else x
      good ({ s with sec := x } : State).extend5

/-- TRANSFER_OWNER (R660): new owner root key, new first ADMIN key, and the current owner root key's signature over both. -/
def execTransferOwner (dt : Nat) (r : Req) (s : State) : Out :=
  runCmd { op := 0x109, role := some 2, fn := some 1 } dt r s fun s =>
    if s.sec.lifecycle ≠ 2 || !s.fuseOk then fail Status.secState s
    else if r.inLen < 236 then fail Status.badParam s
    else if !Config.ed448Verify s.sec.ownerRoot (payBytes r.payload 0 120) (r.item 30 114) then fail Status.secAuthFail s
    else good ({ s with sec := closeSessions { ownerGone s.sec with
      ownerRoot := r.item 0 57
      operators := sset [] 0 (Operator.mk (r.item 15 57) 2)
      ownerEpoch := (s.sec.ownerEpoch + 1) % 65536 } } : State).extend5

/-- SEC_LIFECYCLE (R660, R661): 2 FIELD, 3 RETIRED. -/
def execSecLifecycle (dt : Nat) (r : Req) (s : State) : Out :=
  runCmd { op := 0x10A, role := some 2, fn := some 1 } dt r s fun s =>
    let nxt := r.w 0
    if nxt ≠ 2 && nxt ≠ 3 then fail Status.badParam s
    else if !s.fuseOk || s.sec.lifecycle = 3 || (nxt = 2 && s.sec.lifecycle ≠ 1) then fail Status.secState s
    else if nxt = 2 then good ({ s with sec := closeSessions { s.sec with lifecycle := 2 } } : State).extend5
    else good ({ s with sec := closeSessions { ownerGone s.sec with lifecycle := 3, udsKill := true } } : State).extend5

/-! ## Debug (R663 to R668) -/

/-- A challenge for a level (1 VENDOR, 2 OWNER). -/
def State.challenge (s : State) (level : Nat) : Bytes × State :=
  let (c, s) := s.freshBytes 32
  (c, { s with sec := { s.sec with challenge := some (level, c, s.now) } })

/-- The unlock exchange: a status and the state. The challenge ends at its first use. -/
def State.unlock (s : State) (sig ownerSig : Bytes) : Nat × State :=
  match s.sec.challenge with
  | none => (Status.secAuthFail, s)
  | some (level, c, t) =>
    let s := { s with sec := { s.sec with challenge := none } }
    if s.now ≥ t + 60000000000 then (Status.secAuthFail, s)
    else if s.power = 3 || s.sec.debug ≠ 0 || (level = 2 && (s.sec.lifecycle = 0 || s.sec.lifecycle = 3)) then (Status.secState, s)
    else
      let m := c ++ deviceId ++ toLE level 4
      let ok := if level = 1 then
          Config.ed448Verify Config.vendorDebug m sig && (s.sec.lifecycle != 2 || Config.ed448Verify s.sec.ownerRoot m ownerSig)
        else
          Config.ed448Verify s.sec.ownerRoot m sig ||
          s.sec.operators.any fun e => e.2.role == 2 && Config.ed448Verify e.2.key m sig
      if !ok then (Status.secAuthFail, s) else
      let s := if level = 1 then s.zeroise else s
      (0, ({ s with sec := closeSessions { s.sec with debug := level } } : State).extend5)

/-- SEC_DEBUG_CHALLENGE (R664): the level. -/
def execSecDebugChallenge (dt : Nat) (r : Req) (s : State) : Out :=
  runCmd { op := 0x10B, role := none, fn := some 1 } dt r s fun s =>
    if r.w 0 ≠ 1 && r.w 0 ≠ 2 then fail Status.badParam s
    else if s.sec.rngFail then fail 0xA00 s
    else
      let (c, s) := s.challenge (r.w 0)
      .done 0 s 0 c

/-- SEC_DEBUG_UNLOCK (R664, R665): the signature, then the owner's. -/
def execSecDebugUnlock (dt : Nat) (r : Req) (s : State) : Out :=
  runCmd { op := 0x10C, role := none, fn := some 1 } dt r s fun s =>
    let (st, s) := s.unlock (r.item 0 114) (r.item 29 114)
    .done st s 0 []

/-! ## Firmware (R640 to R644) -/

/-- An image as its bytes give it (Table 15-3). -/
def imageOf (b : Bytes) : Image :=
  let w (i : Nat) := ofLE ((b.drop (4 * i)).take 4)
  let body := b.drop 256
  { fieldsOk := w 0 == 0x57464B5A && w 1 == 0x48160001 && w 5 == body.length && decide (1 ≤ w 5) && decide (w 5 ≤ 33554432)
    version := w 2
    compat := w 3
    svn := bits (w 4) 0 6
    keyIndex := bits (w 4) 6 2
    revoke := bits (w 4) 8 4
    header := b.take 96
    sig := (b.drop 96).take 114
    digest := (b.drop 32).take 64
    body := body }

/-- The result of verifying a slot (R641): 1 verified, otherwise the code of SEC_BOOT. -/
def verifySlot (x : Sec) : Option Image → Nat
  | none => 2
  | some h =>
    if !h.fieldsOk then 2
    else if bit x.revoked h.keyIndex then 5
    else if !Config.ed448Verify (Config.vendorRoot h.keyIndex) h.header h.sig then 4
    else if h.svn < x.svnFloor then 6
    else if !h.readOk then 7
    else if Config.shake256 h.body ≠ h.digest then 3
    else 1

/-- Recipe objects active on this member, as pairs of version and base. -/
def State.recipes (s : State) : List (Nat × Nat) :=
  (List.range 4).filterMap fun pl =>
    (sfind s.bankObj (pl * 2 + s.fld F.PARSE_CTL.ACTIVE_BANK pl)).map fun o => (o.version, o.compat)

/-- Versions of this member. -/
def State.versions (s : State) : Versions :=
  { fw := (s.sec.running.map (·.version)).getD 0, fwCompat := (s.sec.running.map (·.compat)).getD 0, recipes := s.recipes }

/-- Compatible members (R583). -/
def compatible (a b : Versions) : Bool :=
  decide (a.fw ≥ b.fwCompat) && decide (b.fw ≥ a.fwCompat) &&
  a.recipes.all fun x => b.recipes.all fun y => decide (x.1 ≥ y.2) && decide (y.1 ≥ x.2)

/-- Versions v are compatible with every reachable member (R584). -/
def State.batchCompatible (s : State) (v : Versions) : Bool :=
  s.peers.all fun e => match e.2.vers with
    | none => true
    | some w => !bit (s.reg .FAB_ROUTE e.1 0) 12 || compatible v w

/-- Write an image into slot B and verify it there (R643, R584). -/
def State.updateB (s : State) (r : Req) : Nat × State :=
  let img := if r.inLen = 0 then s.sec.slotB else some (imageOf (payBytes r.payload 0 r.inLen))
  if img.any fun i => !s.batchCompatible { s.versions with fw := i.version, fwCompat := i.compat } then (0x900, s) else
  let s : State := { s with sec := { s.sec with slotB := img } }
  (if verifySlot s.sec s.sec.slotB = 1 then 0 else 0xA01, s)

/-- FW_UPDATE (R643). -/
def execFwUpdate (dt : Nat) (r : Req) (s : State) : Out :=
  runCmd { op := 0x10D, role := some 2, fn := some 1 } dt r s fun s =>
    let (st, s) := s.updateB r
    .done st s 0 []

/-- FW_UPDATE with TRIAL (R643): TRY_B is set and a warm reset with cause 3 follows the completion. -/
def execFwTrial (dt : Nat) (r : Req) (s : State) : Out :=
  runCmdThen { op := 0x10D, role := some 2, fn := some 1 } dt r s
    (fun s =>
      let (st, s) := s.updateB r
      .done st s 0 [])
    fun st s => if st = 0 then s.warmReset 3 true else s

/-- FW_COMMIT (R644, R662). -/
def execFwCommit (dt : Nat) (r : Req) (s : State) : Out :=
  runCmd { op := 0x10E, role := some 2, fn := some 1 } dt r s fun s =>
    if s.fld F.SEC_BOOT.BOOTED 0 ≠ 1 || !s.fuseOk then fail Status.secState s
    else match s.sec.slotB with
    | none => fail 0xA01 s
    | some b =>
      let s := { s with sec := { s.sec with slotA := some b } }
      if verifySlot s.sec (some b) ≠ 1 then fail 0xA01 s
      else good { s with sec := { s.sec with
        svnFloor := max s.sec.svnFloor ((s.sec.running.map (·.svn)).getD b.svn)
        revoked := s.sec.revoked ||| (b.revoke % 2 ^ b.keyIndex) } }

/-! ## Key installs and policy -/

/-- MACSEC_CAK_INSTALL (R635): slot, CKN and CAK of 32 B each; refused in VENDOR (R665). -/
def execMacsecCakInstall (dt : Nat) (r : Req) (s : State) : Out :=
  runCmd { op := 0x10F, role := some 2, fn := some 1 } dt r s fun s =>
    if s.sec.debug = 1 then fail Status.secState s
    else if r.w 0 > 63 || r.inLen < 68 then fail Status.badParam s
    else good { s with sec := { s.sec with caks := sset s.sec.caks (r.w 0) (r.item 1 32, r.item 9 32) } }

/-- Two entries an identifier: a third replaces the entry with the earlier UNTIL (R637, R639). -/
def addGKey (l : List GKey) (k : GKey) : List GKey :=
  match l with
  | [a, b] => if a.until_ ≤ b.until_ then [k, b] else [a, k]
  | l => l ++ [k]

/-- GKEY_CONFIG (R639): identifier, ALG, FROM, UNTIL, KEY. -/
def execGkeyConfig (dt : Nat) (r : Req) (s : State) : Out :=
  runCmd { op := 0x110, role := some 2, fn := some 1 } dt r s fun s =>
    if s.sec.debug = 1 then fail Status.secState s
    else if r.w 0 > 255 || r.w 1 = 0 || r.w 1 > 5 || r.inLen < 56 then fail Status.badParam s
    else
      let k : GKey := { alg := r.w 1, from_ := wNat r.payload 2 2, until_ := wNat r.payload 4 2, key := r.item 6 32 }
      good { s with sec := { s.sec with gkeys := sset s.sec.gkeys (r.w 0) (addGKey (sget s.sec.gkeys [] (r.w 0)) k) } }

/-- The policy record is read (R671). -/
def policyRead (s : State) : Reply := .done 0 s s.sec.policy (toLE s.sec.policy 4)

/-- SEC_POLICY (R671). -/
def execSecPolicy (dt : Nat) (r : Req) (s : State) : Out :=
  runCmd { op := 0x111, role := some 2, fn := some 1 } dt r s fun s =>
    if r.inLen < 4 || r.w 0 ≥ 262144 then fail Status.badParam s
    else good { s with sec := { s.sec with policy := r.w 0 } }

/-- SEC_POLICY with ARG bit 31 (R671): from any session. -/
def execSecPolicyRead (dt : Nat) (r : Req) (s : State) : Out :=
  runCmd { op := 0x111, role := some 0, read := true, fn := some 1 } dt r s policyRead

/-! ## Entropy health (R629) -/

/-- SEC_RNG_FAIL: key generation stops and SEC_ALERT is raised. -/
def execSecRngFail (dt : Nat) (s : State) : Out :=
  let s := s.advance dt
  finish (({ s with sec := { s.sec with rngFail := true } } : State).pulse 0)

/-- ENTROPY_HEALTH_PASS. -/
def execEntropyHealthPass (dt : Nat) (s : State) : Out :=
  let s := s.advance dt
  finish { s with sec := { s.sec with rngFail := false } }

end Sys2Proof.Machine
end

