-- ==== Sys2Proof/Machine/Commit.lean ====
section
/-! DEFINITION. The commit of a generation (R167, R168, R176, R694, R847): what it waits for, the registers it changes, and what a
changed register starts. -/
namespace Sys2Proof.Machine

/-! ## What waits and what is staged -/

/-- Anything is staged and not committed (R567): register values, table entries, retirements, versions, banks, flushes. Copies into a
descriptor that is not active do not count. -/
def State.stagedAny (s : State) : Bool :=
  let g := s.curNext
  let mine (settled retired : Bool) (from_ until_ : Nat) : Bool := (!settled && from_ == g) || (retired && until_ == g)
  !s.cmt.isEmpty || s.flushQ.any (·.staged) ||
  s.exm.any (fun e => mine e.2.settled e.2.retired e.2.from_ e.2.until_ && e.2.desc == s.descAt e.2.table g) ||
  s.lpm.any (fun e => mine e.2.settled e.2.retired e.2.from_ e.2.until_) ||
  s.tcam.any (fun e => mine e.2.settled e.2.retired e.2.from_ e.2.until_) ||
  s.ver.any fun e => e.2.any fun v => !v.settled && v.from_ == g

/-- A commit may take effect: every table write staged before it has reached its store, every staged flush has finished its walk
(R168), and the generation before the oldest that may live is free (R176). -/
def State.commitFree (s : State) : Bool :=
  !(s.flushQ.any (·.staged)) &&
  !(s.mbx.any fun e => match e.2.busy with | some (_, .rw _) => true | _ => false) &&
  decide ((s.cur + 1 + 65536 - s.oldS % 65536) % 65536 < 32768)

/-! ## Changed registers (R847) -/

/-- A word a commit changes. -/
structure Chg where
  reg : Reg
  idx : Nat
  k   : Nat
  v   : Nat
  deriving DecidableEq, Repr

/-- The words whose committed value the staged one alters. -/
def State.changes (s : State) : List Chg :=
  s.cmt.filterMap fun e =>
    (Reg.ofCode (e.1 / 4294967296)).bind fun r =>
      let i := e.1 % 4294967296 / 256
      let k := e.1 % 256
      let m := (r.masks k).cmt
      let old := s.reg r i k
      let v := (old &&& (4294967295 - m)) ||| (e.2.toNat &&& m)
      if v = old then none else some { reg := r, idx := i, k := k, v := v }

/-- A change of a register touches a field. -/
def Chg.hits (was : State) (c : Chg) (f : Fld) : Bool :=
  c.reg == f.reg && c.k == f.word && bits c.v f.lo f.n != bits (was.reg c.reg c.idx c.k) f.lo f.n

/-! ## Port modes (Table 2-6) -/

/-- Ports whose mode, rate, FEC or serial mode a change affects (R47). -/
def Chg.ports (was : State) (c : Chg) : List Nat :=
  if c.hits was F.PORT_QUAD_CFG.MODE then (List.range 4).map fun i => 4 * c.idx + i
  else if c.hits was F.PORT_QUAD_CFG.LANE_25G then
    if was.fld F.PORT_QUAD_CFG.MODE c.idx ≠ 1 then [] else
    ((List.range 4).filter fun i => bit (was.fld F.PORT_QUAD_CFG.LANE_25G c.idx) i != bit (bits c.v 4 4) i).map fun i => 4 * c.idx + i
  else if (c.idx < 32 && c.hits was F.PORT_CFG.FEC) || (c.idx ≥ 32 && c.hits was F.PORT_CFG.SERIAL_MODE) then [c.idx]
  else []

/-- Steps 1 to 4: the port stops, its queues are emptied, its PFC state goes. -/
def State.portStop (s : State) (p : Nat) : State :=
  if !s.portExists p then s else
  let s := (s.stomp p (some .TX_MODE_STOMP)).lpiExit p
  let s := (s.receiving p).foldl (fun (s : State) f => (s.macAbort f .speedOrMode).endWaiting f) s
  let s := s.setReg .PORT_STATUS p 0 (s.reg .PORT_STATUS p 0 &&& 0x2)
  let s := s.irqSignal (128 + p) false
  let s := { s with pfcPause := s.pfcPause.filter fun e => e.1 / 8 != p }
  s.dropCopies (fun cp => cp.port == p && cp.voq.isNone) (fun _ s => s.bump .MODE_FLUSH p)

/-- MAC counters of a port (R66). -/
def macCtrs : List Ctr :=
  [.RX_FRAMES, .RX_OCTETS, .TX_FRAMES, .TX_OCTETS, .RX_FCS_ERR, .RX_RUNT, .RX_OVERSIZE, .RX_ABORT, .TX_ABORT, .TX_MODE_STOMP,
   .TX_STOMP, .RX_SYMBOL_ERR, .FEC_CORRECTED, .FEC_UNCORRECTED, .RX_PFC_IGNORED, .RX_PAUSE_IGNORED, .LPI_TX_EVENTS, .LPI_TX_TIME_US,
   .RX_NOT_READY, .MODE_FLUSH, .EGRESS_ABSENT]

/-- Counters of a newly created port start at zero (R67). -/
def State.zeroMac (s : State) (p : Nat) : State :=
  let ks := macCtrs.map (fun c => ckey c p) ++ (List.range 8).flatMap fun n => [ckey .RX_PFC (p * 8 + n), ckey .TX_PFC (p * 8 + n)]
  { s with ctrs := s.ctrs.filter fun e => !ks.contains e.1 }

/-- Steps 4 to 6: a port number that ceases to exist is flushed, one that is created starts afresh, and the link comes up when it can. -/
def State.portRenew (was s : State) (p : Nat) : State :=
  if was.portExists p && !s.portExists p then
    { s with flushQ := s.flushQ ++ [{ table := 0, gport := s.gport p, staged := false, static_ := false, tell := true }] }
  else if s.portExists p then (if was.portExists p then s else s.zeroMac p).tryUp p
  else s

/-! ## What a changed register starts -/

/-- A condition starts again, false and without an edge (R543). -/
def State.condReset (s : State) (c : Nat) : State := { s with conds := sdel s.conds c }

/-- A change of ACTIVE of a logical table (R157, R158). -/
def State.switchDesc (was s : State) (t : Nat) : State :=
  if was.fld F.EXM_LTBL_CTL.ACTIVE t = s.fld F.EXM_LTBL_CTL.ACTIVE t then s else
  let v := s.reg .EXM_LTBL_STAT t 0
  let s := s.setReg .EXM_LTBL_STAT t 0 (s.cur + 65536 * ((v / 65536 + 1) % 65536))
  { s with exmSw := sset s.exmSw t ((s.cur, was.fld F.EXM_LTBL_CTL.ACTIVE t) :: sget s.exmSw [] t) }

/-- DRAM stack 1 leaves self-refresh when nothing keeps it there. -/
def State.refreshEnd (s : State) : State :=
  if s.pwr.quiesce || s.pwr.dramRef then s else s.setFld F.DRAM_STAT.SELF_REFRESH 1 0

/-- The phasor engine stops (R526, Table 17-2): its streams read INVALID, and PHX is READY again once nothing stops it. -/
def State.phxStop (s : State) : State :=
  let s : State := { s with pwr := { s.pwr with phxWas := s.ready 9 || s.pwr.phxWas } }
  (s.phxInvalid fun _ => true).setReady 9 false

/-- The phasor engine runs again, its streams from IDLE (R526), unless QUIESCE or a shed stage still stops it. -/
def State.phxBack (s : State) : State :=
  if !s.pwr.phxWas || s.pwr.quiesce || s.shed 4 then s else
  let s := ((s.streams.map (·.1)).foldl State.restartStream s).setReady 9 true
  { s with pwr := { s.pwr with phxWas := false } }

/-- QUIESCE ends: the phasor engine and the DRAM stack come back (R733). -/
def State.quiesceEnd (s : State) : State :=
  if !s.pwr.quiesce then s else
  (State.phxBack { s with pwr := { s.pwr with quiesce := false } }).refreshEnd

/-- The measures that the budgets no longer allow end (R733), but in HOLD and SAFE, where a gated unit stays gated (R728). The wake of a
pipeline starts, and PIPELINE_WAKE ends it. -/
def State.endMeasures (s : State) : State :=
  let budget (f : Nat) : Nat := s.fld F.PWR_BUDGET.BUDGET_US f
  let s := if budget 0 < 50 then (List.range 40).foldl (fun (s : State) p => s.lpiExit p) s else s
  if s.power ≥ 3 then s else
  let s := if budget 0 < 20000 then s.quiesceEnd else s
  let s : State := if budget 0 < 2000 then { s with pwr := { s.pwr with wake := s.pwr.gated } } else s
  let s : State := if budget 1 < 20000 then { s with pwr := { s.pwr with banksOff := [] } } else s
  let s := if s.pwr.dramRef && (budget 2 < 5000 || !s.stackFree) then State.refreshEnd { s with pwr := { s.pwr with dramRef := false } } else s
  s.settlePower

/-- A changed budget: since when it reaches each step of Table 17-3; lowered, it ends what it no longer allows. -/
def State.budgetChanged (was s : State) (f : Nat) : State :=
  let b := s.fld F.PWR_BUDGET.BUDGET_US f
  let old := was.fld F.PWR_BUDGET.BUDGET_US f
  let reached := [50, 2000, 5000, 20000].filter fun n => decide (old < n) && decide (n ≤ b)
  let m := reached.foldl (fun m n => sset m (f + 4 * n) s.now) s.pwr.budgetAt
  let s : State := { s with pwr := { s.pwr with budgetAt := m } }
  if b ≥ old then s else s.endMeasures

/-- A changed PORT_CFG: ENABLE cleared is a link-down event, also where a mode change has already stopped the port; set, it wakes a gated
pipeline (R731) and lets the link come up (R51). -/
def State.enableChanged (was s : State) (p : Nat) : State :=
  if was.flag F.PORT_CFG.ENABLE p = s.flag F.PORT_CFG.ENABLE p then s
  else if s.flag F.PORT_CFG.ENABLE p then
    State.tryUp (if s.pwr.gated.contains (portPl p) then { s with pwr := { s.pwr with wake := ins s.pwr.wake (portPl p) } } else s) p
  else if was.linkUp p && !s.linkUp p then s.linkFlush p
  else s.linkLost p

/-- A changed MAX_FRAME acts on the frames whose start-of-frame delimiter is still to cross the pins (R47); the value before is kept for
those in reception, which last 13.2 ms at most (16,384 B at 10 Mb/s). -/
def State.maxChanged (was s : State) (p : Nat) : State :=
  if was.maxFrame p = s.maxFrame p then s else
  let x := sget s.ports {} p
  { s with ports := sset s.ports p { x with maxWas := (s.now, was.maxFrame p) :: x.maxWas.filter fun e => decide (s.now < e.1 + 14000000) } }

/-- A changed TIME_GRID_CFG: EN clear puts the timebase in FALLBACK, which runs at the nominal frequency (R474, R477). -/
def State.gridChanged (s : State) : State :=
  if !s.flag F.TIME_GRID_CFG.EN 0 || s.gridState = 2 then s.gridFallback else s

/-- A ring's new place: what overlaps have left in the old areas stays undefined until it is written; one in stack 1 ends its self-refresh. -/
def State.ringWake (was s : State) (r : Reg) (i : Nat) : State :=
  let s := { s with wild := s.wild ++ was.wildNow.filter fun a => !s.wild.contains a }
  if s.ringUpper r i then s.endMeasures else s

/-- What a commit starts when it has changed instance i of a register. -/
def State.regCommitted (was s : State) (r : Reg) (i : Nat) : State :=
  match r with
  | .PORT_CFG => was.enableChanged (was.maxChanged s i) i
  | .EXM_LTBL_CTL => was.switchDesc s i
  | .GCL_CTL => s.gateChanged i
  | .QCI_GATE_CTL => s.gateChanged (1024 + i)
  | .POL_CFG => if polMode (was.polCfg i) = 0 && polMode (s.polCfg i) ≠ 0 then
      { s with pol := sset s.pol i { sget s.pol {} i with fill := true } } else s
  | .MSEC_CTL => was.saCommitted s i
  | .PRED_PAIR => s.bypSettle
  | .TIME_GRID_CFG => s.gridChanged
  | .GPIO_OUT_CFG => s.gpioCommitted i
  | .PHX_STREAM =>
    let t := s.restartStream i
    if t.ingest > 500000000 then { t with phxWild := true } else t
  | .PHX_HARM => { s with harmAt := sset s.harmAt i s.ptp }
  | .PHX_PMU => s.pmuStart i
  | .PHX_PMU_LIST => s.pmuStart (i / 32)
  | .PHX_REC => was.ringWake s r i
  | .CAP_RING => was.ringWake s r i
  | .QTEL_RING => was.ringWake s r i
  | .PERF_RING => was.ringWake s r i
  | .EVT_SUB => if s.flag F.EVT_SUB.EN i then s else
      let t := s.setSub i 0
      { t with subs := sdel t.subs i }
  | .EVT_COND => s.condReset i
  | .PWR_BUDGET => was.budgetChanged s i
  | .FAB_CTL => s.linksSettle
  | .FAB_LINK_CFG => s.linksSettle
  | .PORT_QUAD_CFG => s.linksSettle.announce
  | _ => s

/-- Templates a commit has written, control words or frame bytes. -/
def chgTmpls (l : List Chg) : List Nat :=
  (l.filter fun c => c.reg == .EVT_GPUB || c.reg == .EVT_GPUB_DATA).map (·.idx) |>.foldl ins []

/-- A recorder group whose ring has moved or changed its size starts it empty (DESIGN CHOICE, log 112: the spec states no WR_IDX). -/
def State.recMoved (s : State) (g : Nat) : State :=
  State.setFld { s with recRows := sdel s.recRows g } F.PHX_REC.WR_IDX g 0

/-- The recipe words loaded in a bank keep their reserved bits clear (R122). -/
def State.bankClean (s : State) (bank : Nat) : Bool :=
  (s.written .PARSE_WCS).all fun e => e.1 / 8192 != bank || (bits (s.reg .PARSE_WCS e.1 3) 0 2 == 0 && bits (s.reg .PARSE_WCS e.1 2) 13 3 == 0)

/-- A bank is completely loaded (R122): by LOAD_RECIPE; otherwise every register of every word up to the last one written, a valid dispatch
entry and an entry address in use (DESIGN CHOICE, log 224: the spec does not say when a raw-written bank is complete). -/
def State.bankWhole (s : State) (bank : Nat) : Bool :=
  (sfind s.bankObj bank).isSome ||
  (sget s.codeLen 0 bank != 0 && sget s.codeMap 0 bank + 1 == 2 ^ (4 * sget s.codeLen 0 bank) &&
    (s.written .PARSE_DISPATCH).any (fun e => e.1 / 256 == bank && bit (s.reg .PARSE_DISPATCH e.1 0) 7) &&
    (s.written .PARSE_ENTRY).any fun e => e.1 / 44 == bank && bit (s.reg .PARSE_ENTRY e.1 0) 31)

/-- Pipelines whose active bank a commit has switched. -/
def State.switched (was s : State) : List Nat :=
  (List.range 4).filter fun pl => was.fld F.PARSE_CTL.ACTIVE_BANK pl != s.fld F.PARSE_CTL.ACTIVE_BANK pl

/-- A pipeline's active bank, and the object it holds. -/
def State.activeBank (s : State) (pl : Nat) : Nat := bankNo pl (s.fld F.PARSE_CTL.ACTIVE_BANK pl)
def State.activeObj (s : State) (pl : Nat) : Option BankObj := sfind s.bankObj (s.activeBank pl)

/-- The bank switches of a commit (R115, R117): each recipe object that becomes active is measured once, with the pipelines it becomes
active in. What the 64 bytes extended are made of is not stated; the model takes SHAKE256 of DIGEST followed by the pipeline set as 4 bytes
(DESIGN CHOICE, log 224). A bank not completely loaded is R122. -/
def State.switchBanks (was s : State) : State :=
  let l := was.switched s
  let s := if l.all fun pl => s.bankWhole (s.activeBank pl) && s.bankClean (s.activeBank pl) then s else s.undefined .bankIncomplete
  ((l.filterMap s.activeObj).eraseDups).foldl (fun (s : State) o =>
    s.extend 3 3 (Config.shake256 (o.digest ++ toLE ((l.filter fun pl => s.activeObj pl == some o).foldl (fun m pl => m + 2 ^ pl) 0) 4))) s

/-- A member whose active recipes have made it incompatible with a reachable member takes its links down with reason VERSION (R584). -/
def State.versionsAgree (was s : State) : State :=
  if s.versions = was.versions || s.batchCompatible s.versions then s
  else ((List.range 8).filter fun l => s.linkState l != 0).foldl (fun s l => s.nibenDown l 3) s

/-- The commit of R167. Of two CMT fields that must agree (R10) the spec names no pair: a word written without its partner takes effect
alone, as any other does (DESIGN CHOICE, log 226). -/
def State.commitGen (s : State) : State :=
  let was := s
  let l := s.changes
  let ps := (l.flatMap fun c => c.ports was).foldl ins []
  let ts := chgTmpls l
  let s := ps.foldl State.portStop s
  let s := l.foldl (fun s c => s.setReg c.reg c.idx c.k c.v) { s with cur := s.curNext, cmt := [] }
  let s := was.versionsAgree (was.switchBanks s)
  let s := ((l.map fun c => (c.reg, c.idx)).eraseDups).foldl (fun s e => was.regCommitted s e.1 e.2) s
  let s := ((l.filter fun c => c.reg == .PHX_REC && c.k ≤ 1).map (·.idx)).eraseDups.foldl State.recMoved s
  let s := ts.foldl (fun s t => s.tmplCommitted t (was.flag F.EVT_GPUB.EN t)) s
  let s := ps.foldl (fun s p => was.portRenew s p) s
  s.settleQueues

/-- GENERATION_COMMIT (R167, R694): the commit requested by the open transaction takes effect, and its command completes. -/
def execGenerationCommit (dt : Nat) (s : State) : Out :=
  let s := s.advance dt
  match s.txn with
  | none => finish s
  | some t =>
    if !t.commit || t.batch || !s.commitFree then finish s else
    let s := { s.commitGen with txn := none }
    match (s.chan t.ch).busy with
    | some (_, .commitDone r out) => finish (s.completeWait t.ch 0 r out)
    | some (_, .commit _) => finish (s.completeWait t.ch 0 s.cur [])
    | _ => finish s

end Sys2Proof.Machine
end

