-- ==== Sys2Proof/Machine/Load.lean ====
section
/-! DEFINITION. Loading recipe objects (R114 to R118), writes of two-version tables (R269 to R271), and the buffer commands (R324,
R325, R328, R348). -/
namespace Sys2Proof.Machine

/-! ## The Eloak object (Table 3-13) -/

/-- Header counts of an object. -/
def objCode (l : List Word) : Nat := wAt l 4 % 16384
def objPats (l : List Word) : Nat := wAt l 5 % 128
def objBrx (l : List Word) : Nat := wAt l 6 % 256
def objSlots (l : List Word) : Nat := wAt l 7 % 8192

/-- First words of its sections. -/
def objDispatch : Nat := 24
def objEntry : Nat := 280
def objPat : Nat := 324
def objBrxAt (l : List Word) : Nat := objPat + 9 * objPats l
def objCodeAt (l : List Word) : Nat := objBrxAt l + objBrx l

/-- Recipe word w of an object's code. -/
def objWord (l : List Word) (w : Nat) : Nat := wNat l (objCodeAt l + 4 * w) 4

/-- The operation a dispatch entry gives an opcode: none where VALID is clear. -/
def objOper (l : List Word) (opc : Nat) : Option Nat :=
  let v := wAt l (objDispatch + opc)
  if bit v 7 then some (bits v 0 6) else none

/-- A word has its reserved bits clear and its static target inside the code. -/
def objWordOk (l : List Word) (w : Nat) : Bool :=
  let v := objWord l w
  let o := objOper l (bits v 120 8)
  bits v 96 2 == 0 && bits v 77 3 == 0 &&
  ((o != some 0x0F && o != some 0x11) || decide (bits v 64 13 < objCode l)) &&
  (o != some 0x10 || decide (bits v 64 13 + bits v 0 13 < objCode l))

/-- Recipe word of an object, decoded. -/
def objRWord (l : List Word) (w : Nat) : RWord := rword (objWord l w)

/-- A place in an object's code: program counter and return addresses. -/
abbrev ObjAt := Nat × List Nat

/-- What the instruction at a place leads to: slots, and the next place, if the parse goes on. A PAT counts at its largest region: that of
an immediate length, otherwise 256 bytes. -/
def objEdges (l : List Word) (x : ObjAt) : List (Nat × Option ObjAt) :=
  let w := objRWord l x.1
  let next := [(1, some (x.1 + 1, x.2))]
  let run := match objOper l w.opc with
    | some 0x0F => [(1, some (w.tgt % 8192, x.2))]
    | some 0x10 =>
      let m := w.imm % 8192
      ((List.range (m + 1)).filter fun i => i &&& m == i).map fun i => (1, some (w.tgt % 8192 + i, x.2))
    | some 0x11 => if x.2.length ≥ 4 then [(1, none)] else [(1, some (w.tgt % 8192, (x.1 + 1) :: x.2))]
    | some 0x12 => (match x.2 with
      | [] => [(1, none)]
      | a :: t => [(1, some (a, t))])
    | some 0x1C => [(max 1 ((min (if w.sb = 0 then w.imm % 512 else 256) 256 + 63) / 64), some (x.1 + 1, x.2))]
    | some 0x1D => [(1, none)]
    | some _ => next
    | none => [(1, none)]
  if w.cond = 0 then run
  else if w.cond = 15 then next
  else if w.cond > 10 then [(1, none)]
  else run ++ next

/-- The most slots on a path of at most n instructions from a place, and whether one of them comes back to a place it has passed. -/
def objLongest (l : List Word) : Nat → List ObjAt → ObjAt → Nat × Bool
  | 0, _, _ => (0, false)
  | n + 1, seen, x =>
    if x.1 ≥ objCode l then (0, false)
    else if seen.contains x then (0, true)
    else (objEdges l x).foldl (fun m e =>
      let r := match e.2 with
        | some y => objLongest l n (x :: seen) y
        | none => (0, false)
      (max m.1 (e.1 + r.1), m.2 || r.2)) (0, false)

/-- The worst case of an object (R114): the longest path from any entry in use; with a loop, what firmware derives for it, if it can
(a free value: the spec gives no method). A path of more than 4,096 instructions counts as longer than any claim. -/
def objWorst (l : List Word) : Option Nat :=
  let r := ((List.range 44).filter fun p => bit (wAt l (objEntry + p)) 31).map fun p =>
    objLongest l 4097 [] (wAt l (objEntry + p) % 8192, [])
  let m := (r.map (·.1)).foldl max 0
  if r.any (·.2) then (Config.worstPath l).map (max m) else some m

/-- The checks of R114. -/
def objOk (l : List Word) : Bool :=
  wAt l 0 == 0x4B4F4C45 && wAt l 1 == 1 + 65536 * 0x4816 &&
  decide (1 ≤ objCode l) && decide (objCode l ≤ 8192) && decide (objPats l ≤ 64) && objSlots l != 0 && decide (objSlots l ≤ 4096) &&
  l.length == objCodeAt l + 4 * objCode l &&
  Config.shake256 (wordsBytes (l.drop 24)) == wordsBytes ((l.drop 8).take 16) &&
  ((objWorst l).map fun n => decide (n ≤ objSlots l)).getD false &&
  (List.range 256).all (fun o => ((objOper l o).map operDefined).getD true) &&
  (List.range 44).all (fun p => let v := wAt l (objEntry + p); !bit v 31 || decide (v % 8192 < objCode l)) &&
  (List.range (objBrx l)).all (fun i => let v := wAt l (objBrxAt l + i); decide (bits v 0 13 + bits v 16 13 < objCode l)) &&
  (List.range (objCode l)).all (objWordOk l)

/-- Engines of a pipeline still run from a bank (BANK_BUSY). -/
def State.bankBusy (s : State) (pl b : Nat) : Bool :=
  s.engines.any fun e => e.1 / 8 == pl && ((sfind s.frames e.2.frame).map fun f => f.bank == b).getD false

/-- Store words of a register, masked to its fields. -/
def State.setWords (s : State) (r : Reg) (i k : Nat) (l : List Word) : State :=
  (List.range l.length).foldl (fun (s : State) j => s.setReg r i (k + j) (wAt l j &&& (r.masks (k + j)).all)) s

/-- Write an object into a bank, over whatever it held. -/
def State.writeBank (s : State) (bank : Nat) (l : List Word) : State :=
  let s := (List.range 256).foldl (fun (s : State) i => s.setWords .PARSE_DISPATCH (bank * 256 + i) 0 [l.getD (objDispatch + i) 0]) s
  let s := (List.range 44).foldl (fun (s : State) i => s.setWords .PARSE_ENTRY (bank * 44 + i) 0 [l.getD (objEntry + i) 0]) s
  let s := (List.range 64).foldl (fun (s : State) i =>
    let w (j : Nat) : Word := if i < objPats l then l.getD (objPat + 9 * i + j) 0 else 0
    ((s.setWords .PARSE_PAT_VAL (bank * 64 + i) 0 [w 0, w 1, w 2, w 3]).setWords .PARSE_PAT_MASK (bank * 64 + i) 0
      [w 4, w 5, w 6, w 7]).setWords .PARSE_PAT_CTL (bank * 64 + i) 0 [w 8]) s
  let s := (List.range (objCode l)).foldl (fun (s : State) i =>
    s.setWords .PARSE_WCS (bank * 8192 + i) 0 ((l.drop (objCodeAt l + 4 * i)).take 4)) s
  { s with
    codeLen := sset s.codeLen bank (objCode l)
    codeMap := sset s.codeMap bank (2 ^ (4 * objCode l) - 1)
    bankObj := sset s.bankObj bank (objOf l) }

/-- Words of a register. -/
def State.words (s : State) (r : Reg) (i n : Nat) : List Word := (List.range n).map fun k => w32 (s.reg r i k)

/-- The words after an object's header as the bank that took it reads back (R115). -/
def State.readBank (s : State) (bank : Nat) (l : List Word) : List Word :=
  (List.range 256).flatMap (fun i => s.words .PARSE_DISPATCH (bank * 256 + i) 1) ++
  (List.range 44).flatMap (fun i => s.words .PARSE_ENTRY (bank * 44 + i) 1) ++
  (List.range (objPats l)).flatMap (fun i =>
    s.words .PARSE_PAT_VAL (bank * 64 + i) 4 ++ s.words .PARSE_PAT_MASK (bank * 64 + i) 4 ++ s.words .PARSE_PAT_CTL (bank * 64 + i) 1) ++
  (l.drop (objBrxAt l)).take (objBrx l) ++
  (List.range (objCode l)).flatMap fun i => s.words .PARSE_WCS (bank * 8192 + i) 4

/-- The bank reads back with the object's digest. -/
def State.bankMatches (s : State) (bank : Nat) (l : List Word) : Bool :=
  Config.shake256 (wordsBytes (s.readBank bank l)) == (objOf l).digest

/-- Bits of a mask of four. -/
def plMask (m : Nat) : List Nat := (List.range 4).filter (bit m)

/-- The versions this member would have with an object in the pipelines of a mask. -/
def State.versionsWith (s : State) (m : Nat) (o : BankObj) : Versions :=
  let old := ((List.range 4).filter fun pl => !bit m pl).filterMap fun pl =>
    (sfind s.bankObj (pl * 2 + s.fld F.PARSE_CTL.ACTIVE_BANK pl)).map fun o => (o.version, o.compat)
  { s.versions with recipes := (o.version, o.compat) :: old }

/-- LOAD_RECIPE (R114 to R116, R584): segments in order; at the last one the object is checked, and its banks are written as they fall
idle (RECIPE_BANK_WRITE). -/
def execLoadRecipe (dt : Nat) (r : Req) (s : State) : Out :=
  runCmd { op := 0x40, role := some 1 } dt r s fun s =>
    let a := r.arg.toNat
    let seg := a / 65536
    let last := bit a 4
    let m := a % 16
    let drop : State := { s with load := none }
    let next := (s.load.map (·.next)).getD 0
    if bits a 5 11 ≠ 0 || m = 0 || (seg ≠ 0 && seg ≠ next) || (!last && r.inLen ≠ 4096) || r.inLen = 0 then fail Status.badParam drop else
    let data := (if seg = 0 then [] else (s.load.map (·.data)).getD []) ++ r.payload
    if !last then good { s with load := some { plMask := m, next := seg + 1, data := data } }
    else if !objOk data || r.inLen % 4 ≠ 0 then fail 0x200 drop
    else if !s.batchCompatible (s.versionsWith m (objOf data)) then fail 0x900 drop
    else if r.txn = 0 && s.txn.isSome then fail Status.txnBusy drop
    else
      let t : State := { s with load := some { plMask := m, next := seg + 1, data := data } }
      .wait (if r.txn = 0 then { t with txn := some { id := 0, ch := r.ch, sid := r.sid, last := s.now, own := true } } else t) (.bank m)

/-- The staging of a waiting command is complete: it completes, or waits for the commit of its own transaction (R693). -/
def State.stagedDone (s : State) (ch : Nat) : State :=
  match (s.chan ch).busy with
  | none => s
  | some (r, _) =>
    if r.txn ≠ 0 then s.completeWait ch 0 0 []
    else ({ s with txn := s.txn.map fun t => { t with commit := true } } : State).setChan ch
      { s.chan ch with busy := some (r, .commitDone 0 []) }

/-- A bank does not read back as the object: reserved bits of its dispatch, entry or pattern words were set. The command ends with
BAD_OBJECT, and no switch of it stays staged (DESIGN CHOICE, log 224: the spec names no status for it). -/
def State.bankRefused (s : State) (ch : Nat) (r : Req) (l : Load) : State :=
  let s := (List.range 4).foldl (fun (s : State) pl =>
    if bit l.plMask pl then s.stageFld F.PARSE_CTL.ACTIVE_BANK pl (s.fld F.PARSE_CTL.ACTIVE_BANK pl) else s) { s with load := none }
  let s := if r.txn = 0 then { s with txn := none } else s
  s.completeWait ch 0x200 0 []

/-- RECIPE_BANK_WRITE (R115, R116): the inactive bank of a pipeline that LOAD_RECIPE waits for is idle; it is written and its switch
staged. -/
def execRecipeBankWrite (dt : Nat) (pl : Fin 4) (s : State) : Out :=
  let s := s.advance dt
  let b := 1 - s.fld F.PARSE_CTL.ACTIVE_BANK pl
  let waits (e : Nat × Chan) : Bool := match e.2.busy with | some (_, .bank m) => bit m pl | _ => false
  match s.mbx.find? waits, s.load with
  | some (ch, c), some l =>
    match c.busy with
    | some (r, .bank m) =>
      if s.bankBusy pl b then finish s else
      let s := s.writeBank (bankNo pl b) l.data
      if !s.bankMatches (bankNo pl b) l.data then finish (s.bankRefused ch r l) else
      let s := s.stageFld F.PARSE_CTL.ACTIVE_BANK pl b
      let m := m - 2 ^ pl.val
      if m ≠ 0 then finish (s.setChan ch { c with busy := some (r, .bank m) })
      else finish (State.stagedDone { s with load := none } ch)
    | _ => finish s
  | _, _ => finish s

/-! ## Two-version tables (R269 to R271) -/

/-- Versions of an entry, oldest first. -/
def State.vers (s : State) (t : VTab) (i : Nat) : List Ver := sget s.ver [] (t.code * 4294967296 + i)

/-- A staged write of an entry may proceed: it rewrites the version staged by its transaction, or the newer version has settled. -/
def State.verFree (s : State) (t : VTab) (i : Nat) : Bool :=
  match (s.vers t i).getLast? with
  | none => true
  | some v => v.settled || v.from_ == s.curNext || genGe s.old v.from_

/-- Stage words of an entry from word k on. -/
def State.verStage (s : State) (t : VTab) (i k : Nat) (l : List Word) : State :=
  let vs := s.vers t i
  let base := (vs.getLast?.map (·.words)).getD (List.replicate t.words 0)
  let w := (List.range t.words).map fun j => if k ≤ j && j < k + l.length then l.getD (j - k) 0 else base.getD j 0
  let new : Ver := { from_ := s.curNext, words := w }
  let out := match vs.getLast? with
    | none => [new]
    | some v => if !v.settled && v.from_ == s.curNext then vs.dropLast ++ [new] else [{ v with settled := true }, new]
  { s with ver := sset s.ver (t.code * 4294967296 + i) out }

/-- Write the held records in order. -/
def State.verWrite (s : State) (l : List (VTab × Nat × Nat × List Word)) : State :=
  l.foldl (fun s x => s.verStage x.1 x.2.1 x.2.2.1 x.2.2.2) s

/-- RW_VERSION_WAIT (R271): the writes that a channel's command holds may all proceed. -/
def execRwVersionWait (dt : Nat) (ch : Fin 16) (s : State) : Out :=
  let s := s.advance dt
  match (s.chan ch).busy with
  | some (_, .rw l) => if l.all fun x => s.verFree x.1 x.2.1 then finish ((s.verWrite l).stagedDone ch) else finish s
  | _ => finish s

/-! ## Buffer commands -/

/-- BUF_ALLOC: a buffer of a pool for the expert host. -/
def execBufAlloc (dt : Nat) (r : Req) (s : State) : Out :=
  runCmd { op := 0x8030, role := some 2, expert := true } dt r s fun s =>
    if r.arg.toNat ≥ 4 then fail Status.badParam s else
    match s.allocFor 45 5 r.arg.toNat with
    | none => fail 0x402 s
    | some (_, id, s) => .done 0 s id []

/-- BUF_FREE (R324, R325): a free by another than the owner with OWNER_CHECK clear is R348. -/
def execBufFree (dt : Nat) (r : Req) (s : State) : Out :=
  runCmd { op := 0x8031, role := some 2, expert := true } dt r s fun s =>
    let id := r.arg.toNat
    if id ≥ 1048576 || id % 262144 ≥ s.poolCount (id / 262144) then fail Status.badParam s else
    match sfind s.bufs id with
    | some (o, _) => good (State.freeBuf (if o ≠ 5 && !s.flag F.BUF_CTL.OWNER_CHECK 0 then s.undefined .foreignFree else s) id 5)
    | none => good (s.freeBuf id 5)

/-- BUF_UNQUARANTINE (R328): the buffer named in ARG as BUF_FREE names it goes back to its pool. -/
def execBufUnquarantine (dt : Nat) (r : Req) (s : State) : Out :=
  runCmd { op := 0x83, role := some 1 } dt r s fun s =>
    if s.quar.contains r.arg.toNat then good { s.drop1 .BUF_QUARANTINE (r.arg.toNat / 262144) with quar := del s.quar r.arg.toNat } else fail Status.badParam s

end Sys2Proof.Machine
end

