-- ==== Sys2Proof/Machine/Lookup.lean ====
section
/-! DEFINITION. Lookup, resolution, stream filters and policers, the redundancy decision, verification, and the arrival of a frame's
tail (R77, R123, R124, R139 to R142, R195 to R204, R239 to R252, R293 to R303, R411 to R425). -/
namespace Sys2Proof.Machine

/-! ## Lengths before the tail -/

/-- FLEN as lookup uses it: the frame's own; before the tail the largest claimed end (R301), and where there is none a free value,
for the spec states none (DESIGN CHOICE, log 41). -/
def State.lkLen (s : State) (f : Frame) : Nat × State :=
  if f.tail then (f.bytes.length, s) else match f.maxE with
  | some (e, _) => (e, s)
  | none => let (v, s) := s.fresh; (509 + v % 15872, s)

/-- The counter pair of a resolution (R815): at once when L is known, otherwise at the tail. -/
def State.countPair (s : State) (f : Frame) (n : Option Nat) : Frame × State :=
  match n with
  | none => (f, s)
  | some n => if f.tail then (f, s.pairAdd n f.len) else ({ f with count := f.count ++ [n] }, s)

/-! ## Exact-match lookups (R123, R124, R160, R195 to R198, R204, R532) -/

/-- A hit of a slot. -/
structure SlotHit where
  slot  : Nat
  table : Nat
  kind  : Nat
  key   : Nat
  hit   : Option (Nat × Entry)
  deriving DecidableEq, Repr

/-- The lookup of slot n, when it runs. -/
def State.slotLookup (s : State) (f : Frame) (n : Nat) : Option SlotHit × State :=
  let t := bits (sget f.fields 0 1) (8 * n) 8
  if !bit (sget f.fields 0 0) n || t = 0 then (none, s) else
  let key := bits (f.kb.getD 2 0) (160 * n) 160
  let key := key % 2 ^ s.keyW t (s.descAt t f.gen)
  let (h, s) := s.emLookup t key f.gen
  let s := s.perfEv 6 1 f.pl f.port 0 f.gen (f.flen % 16384)
  let s := match h with
    | some e => if e.1 ≥ ovfBase then s.perfEv 7 1 f.pl f.port 0 f.gen (f.flen % 16384) else s
    | none => s
  (some { slot := n, table := t, kind := s.kindOf t, key := key, hit := h }, s)

/-- The four slots in order. -/
def State.slotLookups (s : State) (f : Frame) : List SlotHit × State :=
  (List.range 4).foldl (fun (x : List SlotHit × State) n =>
    let (h, s) := x.2.slotLookup f n
    (match h with | some h => x.1 ++ [h] | none => x.1, s)) ([], s)

/-- The slot is the source lookup (R195). -/
def State.isSource (s : State) (pl : Nat) (h : SlotHit) : Bool :=
  h.kind == 1 && s.flag F.EXM_LKP_CTL.SA_EN pl && h.slot == s.fld F.EXM_LKP_CTL.SA_SLOT pl

/-- The port a learn request names: PORT_A for a port of a pair (R410). -/
def State.learnPort (s : State) (p : Nat) : Nat := match s.pairOf p with | some (k, _) => s.pairPort k 0 | none => p

/-- The learn request of a frame. -/
def learnOf (s : State) (f : Frame) (h : SlotHit) (p : Nat) : Learn :=
  { table := h.table, key := h.key, gport := s.gport p, port := p, ts := f.ts, ptp := f.tsPtp, suspect := f.suspect }

/-- The source lookup: learning, refresh, limit and pinned mismatch; whether the frame is discarded (R197, R198, R204). The limit acts on a
miss whatever LEARN_EN says, as R198 names no such condition. -/
def State.sourceLookup (s : State) (f : Frame) (h : SlotHit) : Bool × State :=
  let p := s.learnPort f.port
  let submit (s : State) : State := (s.learn (learnOf s f h p)).perfEv 8 1 f.pl f.port 0 f.gen (f.flen % 16384)
  let en := s.flag F.EXM_LEARN_CFG.LEARN_EN f.port
  match h.hit with
  | none =>
    if s.learnCount p ≥ s.fld F.EXM_LEARN_CFG.LIMIT p then
      if s.flag F.EXM_LEARN_CFG.POLICY p then (false, s.bump .LEARN_LIMIT_FLOOD 0) else (true, s.bump .LEARN_LIMIT_DROP 0)
    else (false, if en then submit s else s)
  | some (pos, e) =>
    let da := bit e.result 17
    if e.dest = s.gport p && !bit e.result 15 then (da, { s with exm := smod s.exm e pos fun x => { x with hit := true } })
    else if e.pinned then
      let s := s.bump .PINNED_SA_MISMATCH 0
      (da || s.flag F.EXM_LEARN_CFG.PIN_DISCARD f.port, s)
    else if en && e.learned && !e.static_ then (da, submit s)
    else (da, s)

/-- A destination lookup (order 3). -/
def fdbDest (r : Res) (e : Entry) : Res :=
  { r with
    dest := some e.dest
    group := bit e.result 15
    drop := r.drop || bit e.result 16
    copyP43 := r.copyP43 || bit e.result 18 }

/-- A STREAM result (order 5, Table 6-5). -/
def streamRes (r : Res) (v : Nat) : Res :=
  { r with
    filter := if bit v 12 then some (bits v 0 12) else r.filter
    cls := if bit v 17 then bits v 13 4 else r.cls
    counter := if bit v 38 then some (bits v 18 20) else r.counter
    ctDeny := r.ctDeny || bit v 39 }

/-- A TCAM action (orders 7 and 8, Table 6-4): DEST and CLASS only when they are not locked. -/
def tcamRes (r : Res) (a : Nat) : Res :=
  { r with
    dest := if bit a 16 && !r.lock then some (bits a 0 15) else r.dest
    group := if bit a 16 && !r.lock then bit a 15 else r.group
    drop := r.drop || bit a 17
    copyP43 := r.copyP43 || bit a 18
    lock := r.lock || bit a 19
    cls := if bit a 24 && !r.lock then bits a 20 4 else r.cls
    ctDeny := r.ctDeny || bit a 25
    mirror := if bit a 51 then some (bits a 26 6) else r.mirror
    policer := if bit a 50 then some (bits a 32 18) else r.policer
    filter := if bit a 85 then some (bits a 52 12) else r.filter
    counter := if bit a 84 then some (bits a 64 20) else r.counter
    rewrite := if bit a 112 then some (bits a 96 16) else r.rewrite }

/-- The LPM lookup and its next hop (R123, R212, R279). -/
def State.lpmStep (s : State) (f : Frame) (r : Res) : Res × State :=
  if !bit (sget f.fields 0 0) 4 then (r, s) else
  let kb := f.kb.getD 3 0
  let v6 := bit kb 128
  match s.lpmLookup (bits (sget f.fields 0 2) 16 16) v6 (if v6 then bits kb 0 128 else bits kb 0 32) f.gen with
  | none => (r, s)
  | some e =>
    let w := s.verAt .NH_TABLE e.result f.gen
    if e.result ≥ 262144 || !bit (wAt w 0) 16 then (r, s.bump .NH_MISS f.pl)
    else ({ r with
      dest := some (bits (wAt w 0) 0 15)
      group := bit (wAt w 0) 15
      rewrite := if bit (wAt w 1) 16 then some (bits (wAt w 1) 0 16) else r.rewrite }, s)

/-- Resolution (R242 to R244): sources in the order of Table 6-6, then the flood group. -/
def State.resolve (s : State) (f : Frame) : Res × Frame × State :=
  let (hits, s) := s.slotLookups f
  let r : Res := { cls := bits (s.reg .SCHED_CLASS_MAP f.port 0) (4 * s.prio f) 4, colour := inColour f }
  let src := hits.filter (s.isSource f.pl)
  let (drop, s) := src.foldl (fun (x : Bool × State) h => let (d, s) := x.2.sourceLookup f h; (x.1 || d, s)) (false, s)
  let r := { r with drop := drop }
  let r := (hits.filter fun h => h.kind == 1 && !s.isSource f.pl h).foldl (fun r h => match h.hit with
    | some e => fdbDest r e.2 | none => r) r
  let (r, s) := s.lpmStep f r
  let r := (hits.filter fun h => h.kind == 2).foldl (fun r h => match h.hit with
    | some e => streamRes r e.2.result | none => r) r
  let sub := (hits.filterMap fun h => if h.kind = 4 then h.hit.bind fun e =>
    if bit e.2.result 10 then some (bits e.2.result 0 10) else none else none).head?
  let (t0, s) := s.tcamSearch f 0
  let r := match t0 with | some row => tcamRes r row.action | none => r
  let (t1, s) := s.tcamSearch f 1
  let r := match t1 with | some row => tcamRes r row.action | none => r
  let f := { f with looked := true, sub := sub }
  if r.dest.isSome then (r, f, s) else
  let vid := sget f.fields 0 3 % 4096
  if s.flag F.VLAN_FLOOD.VALID vid then ({ r with dest := some (s.fld F.VLAN_FLOOD.GROUP vid), group := true }, f, s)
  else ({ r with drop := true }, f, s.bump .NO_DEST f.pl)

/-! ## Stream filter, gate and policers (R245 to R259) -/

/-- The stream filter and its gate: the discard cause 0 BLOCKED, 1 MAX_SDU, 2 gate closed, or the class the gate gives. -/
def State.qciFilter (s : State) (f : Frame) (q flen : Nat) : Option Nat × Option Nat × State :=
  let drop (c : Nat) (block : Bool) : Option Nat × Option Nat × State :=
    let s := s.bump .QCI_DROP (q * 3 + c)
    (some c, none, if block then s.setReg .QCI_FILTER_STAT q 0 1 else s)
  let sdu := s.fld F.QCI_FILTER.MAX_SDU q
  if s.flag F.QCI_FILTER_STAT.BLOCKED q then drop 0 false
  else if sdu ≠ 0 && flen > sdu then drop 1 (s.flag F.QCI_FILTER.BLOCK_OVERSIZE q)
  else if s.flag F.QCI_FILTER.GATE_EN q then
    let (o, ipv) := s.gateAt (1024 + s.fld F.QCI_FILTER.GATE q) f.tsPtp f.ts
    if o then (none, ipv, s) else drop 2 (s.flag F.QCI_FILTER.BLOCK_CLOSED q)
  else (none, none, s)

/-- A policer of a frame; its colour pair counts L as received, at the tail where that is not known yet (R815). -/
def State.policeRes (s : State) (f : Frame) (r : Res) (n flen : Nat) : Res × Frame × State :=
  let (p, s) := s.police n r.colour flen
  let (f, s) := s.countPair f p.pair
  ({ r with colour := p.colour, drop := r.drop || p.drop, markDei := (r.markDei || p.mark) && p.colour != 0 }, f, s)

/-- Filter, gate, flow meter, then the policer of resolution; a frame discarded on the way is a DROP from there on. -/
def State.filterPolice (s : State) (f : Frame) (r : Res) : Res × Frame × State :=
  if r.drop then (r, f, s) else
  let (flen, s) := s.lkLen f
  let (r, f, s) := match r.filter with
    | none => (r, f, s)
    | some q =>
      let (c, ipv, s) := s.qciFilter f q flen
      if c.isSome then ({ r with drop := true }, f, s) else
      let r := { r with cls := ipv.getD r.cls }
      if s.flag F.QCI_FILTER.METER_VALID q then s.policeRes f r (s.fld F.QCI_METER.METER q) flen else (r, f, s)
  if r.drop then (r, f, s) else
  match r.policer with
  | some n => s.policeRes f r n flen
  | none => (r, f, s)

/-! ## After lookup: redundancy, verification, admission -/

/-- A frame that arrives on a port of an active pair: the decision of its window, as the frame that goes on (R411 to R422). -/
def State.pairDecide (s : State) (fid : Nat) (f : Frame) (r : Res) (k lane : Nat) : Option Frame × State :=
  let hsr := s.pairRole k == 2
  let (d, s) :=
    if !hsr then s.redPrp f k lane else
    let sa := beNat f.bytes 6 6
    let own := s.exm.any fun e => s.kindOf e.2.table == 1 && e.2.key % 281474976710656 == sa && e.2.vis f.gen &&
      e.2.desc == s.descAt e.2.table f.gen && !bit e.2.result 15 && (e.2.owner != s.member || s.sanPort (e.2.dest % 64))
    let san := match r.dest with
      | some g => !r.group && (g / 64 != s.member || s.sanPort (g % 64))
      | none => false
    s.redHsr f k lane own san
  if d.gone then (none, s) else
  let red := d.seq.map fun q => Red.mk k lane hsr q d.pass d.ring d.rec_
  let f := { f with red := red, pass := d.pass, ring := if d.ring then some (s.pairPort k (1 - lane)) else none }
  match d.seq, d.rec_ with
  | some q, some i =>
    if !f.tail then (some { f with held := s.flag F.PRED_PAIR.CMP_EN k && bit (sget f.fields 0 7) 3 }, s) else
    let (held, s) := s.cmpFrame fid f k lane q i d.pass
    (some { f with held := held }, s)
  | _, _ => (some f, s)

/-- Recovery, then admission (R423, R332). -/
def State.toAdmission (s : State) (fid : Nat) (f : Frame) (r : Res) : State :=
  let (ok, s) := if r.drop then (true, s) else s.recovery f r.filter
  if !ok then (if f.held then s.admitFrame fid f r [] else s.endFrame fid)
  else s.admitAll fid f r f.pass f.ring

/-- Failure of verification (R296 to R298): a cause is counted and ACTION decides. -/
def State.authFailed (s : State) (fid : Nat) (f : Frame) (r : Res) (cause : Nat) : State :=
  let s := s.bump .AUTH_FAIL (f.port * 4 + cause)
  match s.fld F.AUTH_VCFG.ACTION f.port with
  | 1 =>
    let s := s.sideVerdict fid true true
    let f := { f with authFail := true }
    State.toAdmission { s with frames := sset s.frames fid f } fid f r
  | 2 => (s.sideVerdict fid false false).admitFrame fid f r [slowCopy fid f r 0 f.reason s.frc]
  | _ => if f.held then s.admitFrame fid f r [] else s.endFrame fid

/-- After the redundancy decision: the verdict of IEC 62351-6, or admission. -/
def State.afterRed (s : State) (fid : Nat) (f : Frame) (r : Res) : State :=
  match s.authNeed f with
  | 0 => s.toAdmission fid f r
  | 1 => { s with frames := sset s.frames fid { f with phase := .verdict, res := some r } }
  | _ => s.authFailed fid f r 3

/-- The redundancy decision at lookup, or at the tail for a PRP frame of more than 512 B whose tail has not arrived (R414). -/
def State.toRedundancy (s : State) (fid : Nat) (f : Frame) (r : Res) : State :=
  match if r.drop then none else s.pairOf f.port with
  | none => s.afterRed fid f r
  | some (k, lane) =>
    if s.pairRole k = 1 && !f.tail then { s with frames := sset s.frames fid { f with phase := .tailWait, res := some r } } else
    match s.pairDecide fid f r k lane with
    | (none, s) => s.endFrame fid
    | (some f, s) => s.afterRed fid f r

/-- Lookups of one frame and everything that follows at once. -/
def State.lookupFrame (s : State) (fid : Nat) (f : Frame) : State :=
  let (r, f, s) := s.resolve f
  let (f, s) := s.countPair f r.counter
  let s := { s with frames := sset s.frames fid f }
  let s := s.tagSides fid f.sub
  let s := match r.mirror with | some ring => s.capture ring fid f 0 63 r.cls r.colour | none => s
  let (r, f, s) := s.filterPolice f r
  let s := { s with frames := sset s.frames fid f }
  s.toRedundancy fid f r

/-- Searches a frame makes (R225). -/
def searches (f : Frame) : Nat :=
  ((List.range 2).filter fun n => bit (sget f.fields 0 0) (5 + n) && bits (sget f.fields 0 2) (8 * n) 8 != 0).length

/-- The next frame a port may release: its earliest dispatched one that waits, with no earlier frame in parse (R77). -/
def State.nextRelease (s : State) (p : Nat) : Option (Nat × Frame) :=
  let l := s.frames.filter fun e => e.2.port == p && (match e.2.phase with
    | .parsing _ => true
    | .ended => e.2.fwd || e.2.slow != 0
    | _ => false)
  match l.foldl (fun (a : Option (Nat × Frame)) e => match a with
    | none => some e
    | some x => if e.2.disp < x.2.disp then some e else a) none with
  | some (i, f) => if f.phase = .ended then some (i, f) else none
  | none => none

/-- Release one frame: a frame found bad ends; a slow-path frame goes to P43; others are looked up. -/
def State.releaseFrame (s : State) (fid : Nat) (f : Frame) : State :=
  if f.aborted.isSome || f.overrun || f.lateBad then s.endFrame fid
  else if !f.fwd then s.admitFrame fid f f.resOf [slowCopy fid f f.resOf (slowSource f.outcome) f.reason s.frc]
  else s.lookupFrame fid f

/-- A frame of another port of the pipeline that was dispatched earlier waits for search slots (R239). -/
def State.behind (s : State) (p pl disp : Nat) : Bool :=
  s.lookQ.any fun q => q != p && ((s.nextRelease q).map fun x => x.2.pl == pl && decide (x.2.disp < disp)).getD false

/-- Release from port p; a search past the window's budget, or behind one that waits, waits (R239). -/
def State.releasePort (s : State) (p : Nat) : State :=
  match s.nextRelease p with
  | none => s
  | some (fid, f) =>
    if f.fwd && searches f > 0 && (s.slotsUsed f.pl ≥ s.searchBudget || s.behind p f.pl f.disp) then { s with lookQ := ins s.lookQ p }
    else (State.releaseFrame { s with lookQ := del s.lookQ p } fid f).releaseHeld f.pl

/-- A port releases its next frame into pipeline pl. A frame of a port caught in a pair of R436 is undefined behaviour. -/
def State.releaseOf (capBad pl : Nat) (s : State) (p : Nat) : State :=
  match s.nextRelease p with
  | none => s
  | some (fid, f) =>
    if f.pl ≠ pl then s else
    ((if s.pairBad1 p then s.undefined .pair else s).modFrame fid fun f => { f with capBad := capBad }).releasePort p

/-- LOOKUP_RELEASE (R77): releases decided in one cycle, at most one a port, which are applied in ascending pipeline number (R333) and in a pipeline in
ascending port number (R415); capBad reads of a
frame by the capture writer mismatch (R327). -/
def execLookupRelease (dt : Nat) (r : Releases) (s : State) : Out :=
  let s := s.advance dt
  let l := (List.range 4).map fun pl => (pl, (List.finRange 44).filter fun p => r.ports.contains p && ((s.nextRelease p).map fun x => x.2.pl).getD 4 == pl)
  finish (l.foldl (fun s x => x.2.foldl (fun s (p : Fin 44) => s.releaseOf r.capBad x.1 p) s) s)

/-- Waiting ports of a pipeline, earliest dispatched frame first (R239). -/
def State.waitingPort (s : State) (pl : Nat) : Option Nat :=
  let l := s.lookQ.filterMap fun p => (s.nextRelease p).bind fun x => if x.2.pl = pl then some (p, x.2.disp) else none
  (l.foldl (fun (a : Option (Nat × Nat)) e => match a with
    | none => some e
    | some x => if e.2 < x.2 then some e else a) none).map (·.1)

/-- Release waiting ports while the budget lasts. -/
def State.releaseWaiting (pl : Nat) : Nat → State → State
  | 0, s => s
  | n + 1, s =>
    if s.slotsUsed pl ≥ s.searchBudget then s else
    match s.waitingPort pl with
    | none => s
    | some p => State.releaseWaiting pl n (s.releasePort p)

/-- TCAM_WINDOW_START (R235, R239). -/
def execTcamWindowStart (dt : Nat) (pl : Fin 4) (s : State) : Out :=
  let s := s.advance dt
  finish (State.releaseWaiting pl s.lookQ.length s)

/-! ## The verdict (R296 to R299, R638, R639) -/

/-- The value of a frame's extension matches (R294, R297): it is the last bytes of the extension, and covers everything from the first byte
of APPID on. -/
def Frame.valueOk (f : Frame) (alg : Nat) (key : Bytes) : Bool :=
  let ext := f.hdrs.getD (sget f.fields 0 8 % 32) 0
  let at_ := bits ext 8 10 + bits ext 18 10 - macLen alg
  let from_ := bits (f.hdrs.getD (bits (sget f.fields 0 6) 16 5) 0) 8 10
  (f.bytes.drop at_).take (macLen alg) == fit (macLen alg) (Config.authValue alg key ((f.bytes.take at_).drop from_))

/-- A frame's indices name its extension and its substation header (R154, R155). -/
def Frame.authNamed (f : Frame) : Bool :=
  f.hdrsFit && (f.hdrs.getD (sget f.fields 0 8 % 32) 0) % 256 == 0x10 &&
  [0x0D, 0x0E].contains ((f.hdrs.getD (bits (sget f.fields 0 6) 16 5) 0) % 256)

/-- The verdict on a frame (R297, R299, R638): the cause of its failure, 0 NO_KEY, 1 ALG, 2 VALUE, 3 MISSING; one that OVERLOAD passes
unverified is counted. Keys are tried one after the other. Of a frame whose header stack does not name what it should, the value is free
(R154, R155). -/
def State.verdict (s : State) (f : Frame) : Option Nat × State :=
  if s.authNeed f = 2 then (some 3, s) else
  let alg := bits (sget f.fields 0 8) 5 3
  let q := f.auth.getD (s.authAsk f).1
  let keys := q.keys.filter fun k => k.alg == alg
  if q.keys.isEmpty then (some 0, s)
  else if macLen alg = 0 || keys.isEmpty then (some 1, s)
  else if q.overload then
    if s.flag F.AUTH_VCFG.OVERLOAD f.port then (none, s.bump .AUTH_PASS_OVERLOAD f.port) else (some 2, s)
  else if !f.authNamed then let (v, s) := s.fresh; (if v % 2 = 1 then some 2 else none, s)
  else (if keys.any fun k => f.valueOk alg k.key then none else some 2, s)

/-- The verdict of a frame with outcome DROP, which only its side records await (R296, R298). -/
def State.dropVerdict (s : State) (fid : Nat) (f : Frame) (cause : Option Nat) : State :=
  match cause with
  | none => (s.sideVerdict fid true false).endFrame fid
  | some c =>
    let s := s.bump .AUTH_FAIL (f.port * 4 + c)
    match s.fld F.AUTH_VCFG.ACTION f.port with
    | 1 => (s.sideVerdict fid true true).endFrame fid
    | 2 => (s.sideVerdict fid false false).admitFrame fid f f.resOf [slowCopy fid f f.resOf 0 f.reason s.frc]
    | _ => s.endFrame fid

/-- AUTH_VERDICT: the verdict of a frame of a pipeline whose tail has arrived. capBad: how many reads of it by the capture writer mismatch
(R327). -/
def execAuthVerdict (dt : Nat) (pl : Fin 4) (f : Nat) (capBad : Nat) (s : State) : Out :=
  let s := s.advance dt
  match sfind s.frames f with
  | none => finish s
  | some x =>
    if x.pl ≠ pl.val || x.phase ≠ .verdict || !x.tail then finish s else
    let s := s.modFrame f fun x => { x with capBad := capBad }
    let x : Frame := { x with capBad := capBad }
    let (cause, s) := s.verdict x
    let t : State := match x.res, cause with
      | none, c => s.dropVerdict f x c
      | some r, none => (s.sideVerdict f true false).toAdmission f x r
      | some r, some c => s.authFailed f x r c
    finish (t.releaseHeld x.pl)

/-! ## The tail (R72, R141, R142, R293, R302, R426) -/

/-- The reason of a failed late check of FLEN against the deferred checks (R141): the largest E first, then the EXACT one. -/
def lateReason (flen : Nat) (maxE exactE : Option (Nat × Nat)) : Option Nat :=
  let largest := maxE.bind fun x => if flen < x.1 then some x.2 else none
  let exact := exactE.bind fun x => if flen ≠ x.1 then some x.2 else none
  largest.or exact

/-- A failed late check is counted (R142). -/
def State.lateCount (s : State) (pl r : Nat) : State := (s.bump .PARSE_LATE_MALFORMED pl).bump .PARSE_MALFORMED (pl * 256 + r)

/-- A copy cutting through when its frame's tail arrives: rewritten whole, or ended for its length (R302). -/
def State.tailTx (s : State) (node : Nat) (t : Tx) (f : Frame) : State :=
  let x := s.rwAgain f t.copy t.draws
  if x.len + 4 ≠ t.len then s.stomp node (some .RW_LEN_MISMATCH)
  else { s with tx := sset s.tx node { t with bytes := x.b, ct := false, sec := x.sec }, free := x.s.free }

/-- Parse waits of R139 end with the tail. -/
def State.wakeWait (s : State) (fid : Nat) (f : Frame) : State :=
  match f.phase with
  | .parsing k => { s with engines := match sfind s.engines (f.pl * 8 + k) with
      | some e => if e.frame = fid then sset s.engines (f.pl * 8 + k) { e with waitW := false } else s.engines
      | none => s.engines }
  | _ => s

/-- A redundant frame that the comparator has held for its tail (R426, R427). -/
def State.tailCompare (s : State) (fid : Nat) (f : Frame) (d : Red) : State :=
  match d.rec_ with
  | none => s
  | some i =>
    if !f.held || (sfind s.frames fid).isNone then s else
    let (held, s) := s.cmpFrame fid f d.pair d.lane d.seq i d.first
    if held then s else s.unhold fid

/-- A frame has reached END and its engine is kept for want of lookup space (R239). -/
def State.parked (s : State) (f : Frame) : Bool :=
  match f.phase with
  | .parsing k => ((sfind s.engines (f.pl * 8 + k)).map (·.done)).getD false
  | _ => false

/-- The effect of a tail on a frame whose ICV and length are good. A frame that fails the late check while it is still in parse goes on to
its END, which releases its side records (DESIGN CHOICE, log 224: R142 speaks of records already released). -/
def State.tailGood (s : State) (fid : Nat) (f : Frame) : State :=
  let s := if f.ended || s.parked f then s.overBudget f else s
  let (f, s) := if (f.ended || s.parked f) && f.phase ≠ .admitted then s.authStart f else (f, s)
  let s := { s with frames := sset s.frames fid f }
  match lateReason f.bytes.length f.maxE f.exactE with
  | some r =>
    let s := s.lateCount f.pl r
    match f.phase with
    | .admitted => s.killCopies fid
    | .ended => s.modFrame fid fun f => { f with lateBad := true }
    | .parsing _ => (s.modFrame fid fun f => { f with lateBad := true }).wakeWait fid f
    | _ => (s.endFrame fid).releaseHeld f.pl
  | none =>
    let s := s.tx.foldl (fun s e => if e.2.copy.frame = fid && e.2.ct then s.tailTx e.1 e.2 f else s) s
    match f.phase, f.res, f.red with
    | .tailWait, some r, _ =>
      match s.pairOf f.port with
      | none => (s.afterRed fid f r).releaseHeld f.pl
      | some (k, lane) =>
        match s.pairDecide fid f r k lane with
        | (none, s) => (s.endFrame fid).releaseHeld f.pl
        | (some f, s) => (s.afterRed fid f r).releaseHeld f.pl
    | .admitted, _, some d => s.tailCompare fid f d
    | .verdict, _, some d => s.tailCompare fid f d
    | _, _, _ => s.wakeWait fid f

/-- The tail of a frame that has left the device counts it and its slots, and settles its deferred length checks (R66, R106, R141,
R142). -/
def State.lostTail (s : State) (f : Nat) (t : Tail) (n : Nat) : State :=
  let s := { s with tails := sdel s.tails f }
  let l := t.len + n + t.off
  let s := s.countPairs t.count l
  if l > t.maxFrame then s.bump .RX_OVERSIZE t.port else
  let s := if t.port < 40 then (s.bump .RX_FRAMES t.port).add .RX_OCTETS t.port l else s
  let s := if t.icnt > budget l then s.bump .PARSE_OVER_BUDGET t.pl else s
  match lateReason (t.len + n - 4) t.maxE t.exactE with
  | some r => if t.parsed then s.lateCount t.pl r else s
  | none => s

/-- FRAME_TAIL: the frame's last bytes have arrived, its FCS the last four of them, and its FCS is good. -/
def execFrameTail (dt : Nat) (f : Nat) (more : Bytes) (s : State) : Out :=
  let s := s.advance dt
  match sfind s.frames f with
  | none => match sfind s.tails f with
    | none => finish s
    | some t => finish (s.lostTail f t more.length)
  | some x =>
    if x.tail then finish s else
    let all := x.bytes ++ more
    let bytes := all.take (all.length - 4)
    let y := { x with bytes := bytes, tail := true, icv := none, count := [] }
    let s := (s.countPairs x.count y.len).modFrame f fun x => { x with count := [] }
    let s := if x.port < 40 && !x.aborted.isSome && y.len ≤ x.maxFrame then (s.bump .RX_FRAMES x.port).add .RX_OCTETS x.port y.len else s
    if x.aborted.isSome then finish s
    else if y.len > x.maxFrame then finish ((s.macAbort f .tooLong).endWaiting f)
    else if x.overrun then finish { s with frames := sset s.frames f y }
    else if (x.buf.map fun id => decide (bytes.length + 4 > poolSize (id / 262144))).getD false then
      finish (s.overrunFrame f y)
    else
      match if x.icv.isSome then s.macsecIn x.port x.icv x.bytes true else (none, s) with
      | (some c, s) =>
        let s := s.bump c x.port
        match x.phase with
        | .parsing _ => finish ((s.modFrame f fun x => { x with aborted := some .fcs }).endWaiting f)
        | .ended => finish (s.modFrame f fun x => { x with aborted := some .fcs })
        | .admitted => finish (s.killCopies f)
        | _ => finish (s.endFrame f)
      | (none, s) =>
        finish ((State.seal { s with frames := sset s.frames f y } f).tailGood f y)

end Sys2Proof.Machine
end

