-- ==== Sys2Proof/Machine/Sched.lean ====
section
/-! DEFINITION. Scheduling: shapers, selection, dequeue, transmission and delivery (R338 to R340, R362 to R396, chapters 04, 14
and 16 for deliveries). -/
namespace Sys2Proof.Machine

/-! ## Shapers (R367 to R372) -/

/-- Committed settings of a node's shaper: rate, burst, enabled. -/
def State.shapeCfg (s : State) (l n : Nat) : Nat × Nat × Bool :=
  let (w0, w1) := if l = 3 then (s.reg .QSHAPE n 0, s.reg .QSHAPE n 1)
    else (s.reg .SCHED_SHAPE (l * 65536 + n) 0, s.reg .SCHED_SHAPE (l * 65536 + n) 1)
  (min w0 100000000, bits w1 0 24, bit w1 24)

/-- The refill of R369 under R371: elapsed time at the old rate, the new burst, then the new settings. -/
def refillOne (now : Nat) (cfg : Nat × Nat × Bool) (x : Shaper) : Shaper :=
  let a := (now - x.last) * x.rate + x.rem
  let tok := min (x.tok + (a / 8000000 : Nat)) (cfg.2.1 : Int)
  { tok := tok, rem := a % 8000000, last := now, rate := cfg.1, burst := cfg.2.1, en := cfg.2.2, stat := tok,
    wake := if tok > 0 then none else x.wake }

/-- Refill a node. -/
def State.refill (s : State) (l n : Nat) : State :=
  let x := sget s.shapers {} (nkey l n)
  { s with shapers := sput s.shapers {} (nkey l n) (refillOne s.frc (s.shapeCfg l n) x) }

/-- A node is eligible by tokens. -/
def State.tokensOk (s : State) (l n : Nat) : Bool :=
  let x := sget s.shapers {} (nkey l n)
  !x.en || decide (x.tok > 0)

/-- A dequeue of b bytes through a node: the tokens, and the wake time when they are spent (R370). -/
def State.spend (s : State) (b l n : Nat) : State :=
  let x := sget s.shapers {} (nkey l n)
  if !x.en then s else
  let tok := x.tok - b
  let need := (1 - tok).toNat * 8000000 - x.rem
  let wake := if tok > 0 then none else if x.rate = 0 then x.wake else some (x.last + cdiv need x.rate)
  { s with shapers := sset s.shapers (nkey l n) { x with tok := tok, wake := wake } }

/-- SHAPER_WAKE (R370). -/
def execShaperWake (dt : Nat) (lvl : Fin 4) (node : Nat) (s : State) : Out :=
  let s := s.advance dt
  match (sget s.shapers {} (nkey lvl node)).wake with
  | some t => if s.frc ≥ t then
      let s := s.refill lvl node
      let x := sget s.shapers {} (nkey lvl node)
      finish { s with shapers := sput s.shapers {} (nkey lvl node) { x with wake := none } }
    else finish s
  | none => finish s

/-- Nodes whose shaper is configured or has a state. -/
def State.shapedNodes (s : State) : List (Nat × Nat) :=
  let ks := s.shapers.map (·.1)
  let ks := ((s.written .QSHAPE).map fun e => nkey 3 e.1).foldl ins ks
  let ks := ((s.written .SCHED_SHAPE).map fun e => nkey (e.1 / 65536) (e.1 % 65536)).foldl ins ks
  ks.map fun k => (k / 1048576, k % 1048576)

/-- SHAPER_SWEEP (R370). -/
def execShaperSweep (dt : Nat) (s : State) : Out :=
  let s := s.advance dt
  finish (s.shapedNodes.foldl (fun s e => s.refill e.1 e.2) s)

/-! ## Eligibility (R363, R382, R596, R707) -/

/-- An active queue with its path. -/
structure Act where
  q : Nat
  g : Nat
  c : Nat
  deriving DecidableEq, Repr

/-- Queues that hold a copy and end at an L0 node. -/
def State.active (s : State) (node : Nat) : List Act :=
  s.queues.filterMap fun e => (s.path e.1).bind fun x => if x.2.2 = node then some (Act.mk e.1 x.1 x.2.1) else none

/-- Charged length of a copy (R362). -/
def State.charged (s : State) (node : Nat) (cp : Copy) : Nat :=
  match sfind s.frames cp.frame with
  | none => 0
  | some f =>
    let l := if cp.port = 40 || cp.port = 43 then f.claim + 4 else if cp.port ≥ 44 || cp.voq.isSome then 32 + 4 * f.hdrs.length + f.bytes.length
      else (s.rwLook f cp).1
    l + s.fld F.SCHED_PORT.OVH node

/-- Slots of a P40 receive ring. -/
def State.rxBuf (s : State) (r : Nat) : Nat := let b := s.fld F.HDMA_RX.BUF_SIZE r / 256 * 256; max 256 (min 16384 b)
def State.rxPosted (s : State) (r : Nat) : Nat :=
  if !s.flag F.HDMA_RX.EN r then 0 else serial (s.fld F.HDMA_RX.CI r) (sget s.rings {} (8 + r)).pi 16

/-- Slots a frame fills. -/
def State.rxNeed (s : State) (r n : Nat) : Nat := max 1 (cdiv n (s.rxBuf r))

/-- The head copy of a queue may start under its own conditions and its class gate's guard. -/
def State.headOk (s : State) (node : Nat) (a : Act) : Bool :=
  match (s.queue a.q).head? with
  | none => false
  | some cp => match sfind s.frames cp.frame with
    | none => true
    | some f =>
      (f.tail || cp.ct) &&
      (a.q < voq0 || (a.q - voq0) / 16 % 64 == 63 || decide ((sget s.voq {} a.q).credit > 0)) &&
      (node ≠ 40 || decide (s.rxNeed (a.c % 16 / 2) f.bytes.length ≤ s.rxPosted (a.c % 16 / 2))) &&
      (node ≥ 40 || !(sget s.gates {} a.c).cyc.cfg.guard || !(sget s.gates {} a.c).cyc.cfg.enable ||
        (match s.nextClose a.c with
         | none => true
         | some t => decide (cdiv (s.charged node cp * 8000) (max 1 (s.rate node)) ≤ t)))

/-- A queue, group or class node is eligible. -/
def State.okQueue (s : State) (node : Nat) (a : Act) : Bool := s.tokensOk 3 a.q && s.headOk node a
def State.okGroup (s : State) (node : Nat) (l : List Act) (g : Nat) : Bool :=
  s.tokensOk 2 g && l.any fun a => a.g == g && s.okQueue node a
def State.okClass (s : State) (node : Nat) (l : List Act) (c : Nat) : Bool :=
  s.tokensOk 1 c && s.gateOpen node (c % 16) && !s.pfcPaused node (c % 16) &&
  l.any fun a => a.c == c && s.okGroup node l a.g

/-- An L0 node can start a copy but for its tokens (R363, R364, R735). -/
def State.nodeReady (s : State) (node : Nat) : Bool :=
  (sfind s.tx node).isNone && !s.pwr.closing && !s.flt.safe &&
  (if node < 40 then s.txAlive node && !(sget s.ports {} node).down
   else if node < 44 then node != 42
   else if node < 52 then s.linkState (node - 44) == 3 && !(sget s.links {} (node - 44)).wait.any FabMsg.isFrame else false)

/-! ## Selection (R364) -/

/-- Nodes of level l that the committed links put under node n of the level above, whether or not they hold a copy. -/
def State.childrenOf (s : State) (l n : Nat) : List Nat :=
  ((s.written .SCHED_LINK).filter fun e => e.1 / 1048576 + 1 == l && (s.nodeLink l (e.1 % 1048576)).parent == n).map fun e => e.1 % 1048576

/-- One pick at a node of level l: its active children of level l + 1, which of them are eligible. An active child that shares its strict
slot with another child is undefined behaviour (R398). -/
def State.pickFrom (s : State) (l n : Nat) (kids : List Nat) (ok : Nat → Bool) : Option (Nat × Bool) × State :=
  let slot (k : Nat) : Nat := (s.nodeLink (l + 1) k).slot
  let strict := kids.filter fun k => slot k < 4
  let s := if strict.any fun k => (kids ++ s.childrenOf (l + 1) n).any fun j => j != k && slot j == slot k then s.undefined .tree else s
  match ((List.range 4).filterMap fun i => strict.find? fun k => slot k == i && ok k).head? with
  | some k => (some (k, false), s)
  | none =>
    let q := max 64 (s.fld F.SCHED_NODE.QUANTUM (l * 65536 + n))
    let round := sget s.rounds [] (nkey l n)
    let rec go : Nat → List Nat → Sparse Drr → Option Nat × List Nat × Sparse Drr
      | 0, r, m => (none, r, m)
      | _ + 1, [], m => (none, [], m)
      | fuel + 1, c :: r, m =>
        let x := sget m {} c
        let w : Int := ((s.nodeLink (l + 1) (c % 1048576)).weight * q : Nat)
        let x := if x.turn then x else { deficit := min (x.deficit + w) w, turn := true }
        if ok (c % 1048576) && x.deficit > 0 then (some (c % 1048576), c :: r, sput m {} c x)
        else go fuel (r ++ [c]) (sput m {} c { x with turn := false })
    let (k, r, m) := go round.length round s.drr
    (k.map fun k => (k, true), { s with rounds := sput s.rounds [] (nkey l n) r, drr := m })

/-- A decision of an L0 node: the queue it picks with the nodes picked from a DWRR group. -/
def State.pick (s : State) (node : Nat) (l : List Act) : Option (Act × List (Nat × Nat)) × State :=
  let cs := (l.map (·.c)).foldl ins []
  match s.pickFrom 0 node cs (s.okClass node l) with
  | (none, s) => (none, s)
  | (some (c, d1), s) =>
    let lc := l.filter fun a => a.c == c
    match s.pickFrom 1 c ((lc.map (·.g)).foldl ins []) (s.okGroup node lc) with
    | (none, s) => (none, s)
    | (some (g, d2), s) =>
      let lg := lc.filter fun a => a.g == g
      match s.pickFrom 2 g (lg.map (·.q)) (fun q => s.okQueue node { q := q, g := g, c := c }) with
      | (none, s) => (none, s)
      | (some (q, d3), s) =>
        (some ({ q := q, g := g, c := c },
          (if d1 then [(1, c)] else []) ++ (if d2 then [(2, g)] else []) ++ (if d3 then [(3, q)] else [])), s)

/-- Every node on the path loses b tokens, those picked from a DWRR group b of their deficit. -/
def State.chargePath (s : State) (node b : Nat) (a : Act) (dw : List (Nat × Nat)) : State :=
  let s := (((s.spend b 0 node).spend b 1 a.c).spend b 2 a.g).spend b 3 a.q
  { s with drr := dw.foldl (fun m x => let d := sget m {} (nkey x.1 x.2); sput m {} (nkey x.1 x.2) { d with deficit := d.deficit - b }) s.drr }

/-! ## Telemetry (R391 to R395) -/

/-- Count a copy dequeued from a queue that is sampled (R391). -/
def State.countSample (s : State) (q : Nat) : State :=
  if s.fld F.QTEL_CFG.EXP q = 0 then s else { s with qtelCnt := sset s.qtelCnt q (sget s.qtelCnt 0 q + 1) }

/-- A dequeued copy that is not discarded is sampled when its turn has come (R391, R392). -/
def State.sample (s : State) (node : Nat) (a : Act) (depth : Nat) (cp : Copy) : State :=
  let e := s.fld F.QTEL_CFG.EXP a.q
  if e = 0 || sget s.qtelCnt 0 a.q % 2 ^ (e - 1) ≠ 0 then s else
  let so := min 4294967295 (s.frc - cp.at_)
  let s := s.setReg .QTEL_MAX a.q 0 (max (s.reg .QTEL_MAX a.q 0) (depth % 524288))
  let s := s.setReg .QTEL_MAX a.q 1 (max (s.reg .QTEL_MAX a.q 1) so)
  let rec_ := wordsBytes [w32 (a.q + 1048576 * (a.c % 16) + 16777216 * node), w32 (ptpNs s.ptp),
    w32 (depth % 524288 + 524288 * (ptpSec s.ptp % 8192)), w32 so]
  s.ringPut .QTEL_RING 0 rec_ false .QTEL_DROP .QTEL_OVERRUN 203 204 500

/-! ## What becomes of a dequeued copy -/

/-- Age discard (R338). -/
def State.aged (s : State) (f : Frame) (cp : Copy) : Bool := decide (s.frc - f.ts > s.ageLimit cp.cls)
def State.dropAged (s : State) (f : Frame) (cp : Copy) : State :=
  let s := if cp.port < 44 then s.bump .ADM_AGED (cp.port * 16 + cp.cls) else s
  (s.dropCapture f 4 cp).unref cp.frame

/-- The descriptor of a frame delivered to P43 (Table 4-9). -/
def slowDesc (f : Frame) (cp : Copy) : List Word :=
  [w32 (f.outcome + 16 * cp.p43src + 256 * cp.reason + 65536 * f.hdrs.length + 2097152 * (f.pl % 4) + 8388608 * f.bank + 16777216 * cp.exc),
   w32 (f.src % 32768 + 65536 * f.gen),
   w32 (f.bytes.length % 16384 + 16384 * b2n f.untrace + 32768 * b2n f.suspect + 65536 * f.icnt), 0,
   w32 (ptpSec f.tsPtp), w32 (ptpSec f.tsPtp / 4294967296 % 65536), w32 (ptpNs f.tsPtp), w32 (f.tsSub % 65536)] ++
  ((List.range 8).map fun i => if i = 7 then w32 (cp.meta7.getD (sget f.fields 0 7)) else w32 (sget f.fields 0 i)) ++
  (List.range 16).map fun i => w32 (f.hdrs.getD i 0)

/-- A client address lies in an allowed prefix of PMU_SERVER; none listed means any (R701). -/
def State.pmuAllowed (s : State) (ip : Nat) : Bool :=
  let l := s.pmuSrv.drop 5
  l.isEmpty || (List.range (l.length / 2)).any fun i => let n := 32 - min 32 (wAt l (2 * i + 1)); ip / 2 ^ n == wAt l (2 * i) / 2 ^ n

/-- A C37.118.2 command on a connection: data off and on of the outputs served that carry its IDCODE, or an answer with the header or a
configuration (R702). The frame's places and command numbers are IEEE C37.118.2's (PRESUMED, log 254). -/
def State.pmuCommand (s : State) (i : Nat) (c : PmuConn) (b : Bytes) : State :=
  if b.length < 18 || beNat b 0 2 ≠ 0xAA41 then s else
  let id := beNat b 4 2
  if !(List.range 64).any (fun m => bit (wNat s.pmuSrv 3 2) m && s.fld F.PHX_PMU.IDCODE m == id) then s else
  let put (c : PmuConn) : State := { s with pmuConn := sset s.pmuConn i c }
  let say (k : Nat) : State := { s with pmuTx := s.pmuTx ++ [(c.key, Config.c37Answer k id)] }
  match beNat b 14 2 with
  | 1 => put { c with on := c.on.filter (· != id) }
  | 2 => put { c with on := ins c.on id }
  | 3 => say 3
  | 5 => say 5
  | 6 => say 6
  | _ => s

/-- A TCP segment for the C37.118.2 server that reaches firmware through P43 (R702): a connection opens, is acknowledged, carries a command
or closes; one that cannot open is answered with a reset, recorded as no bytes. -/
def State.pmuSegment (s : State) (b : Bytes) : State :=
  let o := if beNat b 12 2 = 0x8100 then 18 else 14
  let t := o + 4 * (byteAt b o % 16)
  let port := if s.pmuSrv.getD 2 0 = 0 then 4712 else wAt s.pmuSrv 2
  if wAt s.pmuSrv 0 % 2 = 0 || beNat b (o - 2) 2 ≠ 0x0800 || byteAt b o / 16 ≠ 4 || byteAt b (o + 9) ≠ 6 ||
    beNat b (o + 16) 4 ≠ wAt s.pmuSrv 1 || beNat b (t + 2) 2 ≠ port then s else
  let key := beNat b (o + 12) 4 * 65536 + beNat b t 2
  let fl := byteAt b (t + 13)
  match s.pmuConn.find? fun e => e.2.key == key with
  | some (i, c) =>
    if bit fl 0 || bit fl 2 then { s with pmuConn := sdel s.pmuConn i } else
    let c := if bit fl 4 then { c with at_ := s.now } else c
    let end_ := o + beNat b (o + 2) 2
    let from_ := t + 4 * (byteAt b (t + 12) / 16)
    ({ s with pmuConn := sset s.pmuConn i c } : State).pmuCommand i c ((b.drop from_).take (end_ - from_))
  | none =>
    if !bit fl 1 || bit fl 4 then s else
    match (List.range 16).find? fun i => (sfind s.pmuConn i).isNone && s.pmuAllowed (beNat b (o + 12) 4) with
    | none => { s with pmuTx := s.pmuTx ++ [(key, [])] }
    | some i => { s with pmuConn := sset s.pmuConn i { at_ := s.now, key := key } }

/-- Delivery to P43. -/
def State.toP43 (s : State) (f : Frame) (cp : Copy) : State :=
  let s := (s.pmuSegment f.bytes).heardNode f.port f.bytes
  State.unref { s with p43 := s.p43 ++ [SlowFrame.mk (slowDesc f cp) f.bytes] } cp.frame

/-- Delivery to a P40 receive ring (R707, R708); slots that the host changed have undefined contents (R717). -/
def State.toHost (s : State) (f : Frame) (cp : Copy) (c : Nat) : State :=
  let r := c % 16 / 2
  let ci := s.fld F.HDMA_RX.CI r
  let n := s.rxNeed r f.bytes.length
  let words := [w32 (f.src % 32768 + 32768 * b2n f.untrace + 65536 * cp.cls + 1048576 * b2n f.suspect),
    w32 (ptpNs f.tsPtp), w32 (ptpSec f.tsPtp), w32 (ptpSec f.tsPtp / 4294967296 % 65536 + 65536 * f.gen), w32 (sget f.fields 0 32)]
  let x := sget s.rings {} (8 + r)
  let hit (i : Nat) : Bool := decide (serial ci i 16 < n)
  let (words, bytes, s) := if !x.changed.any hit then (words, f.bytes, s) else
    let (w, s) := s.freshBytes 20
    let (b, s) := s.freshBytes f.bytes.length
    (bytesWords w, b, { s with rings := sset s.rings (8 + r) { x with changed := x.changed.filter fun i => !hit i } })
  let s := { s with hostRx := s.hostRx ++ [HostFrame.mk r ci n words bytes] }
  ((s.setFld F.HDMA_RX.CI r ((ci + n) % 65536)).pulse (184 + r)).unref cp.frame

/-- Recirculation through P41 into the pipeline the frame left (R18, R76). No field of a rewrite list names another (Tables 7-2, 7-3), so
none does (DESIGN CHOICE, log 128). -/
def State.recirculate (s : State) (f : Frame) (b : Bytes) : State :=
  if s.pendingOf 41 ≥ 128 then s.bump .PARSE_STALL_DROP 41 else
  let k := poolFor (b.length + 4)
  let s := s.enterFrame {
    port := 41
    pl := f.pl
    bytes := b
    ts := f.ts
    tsPtp := f.tsPtp
    tsSub := f.tsSub
    untrace := f.untrace
    suspect := f.suspect
    pool0 := k
    phase := .waitBuf k
    headSeq := s.nextHead
    src := s.gport 41 }
  ({ s with nextHead := s.nextHead + 1 } : State).grantCycle

/-- The FRAME message of a copy (Table 14-6). -/
def frameMsgOf (s : State) (f : Frame) (cp : Copy) (q : Nat) : FrameMsg :=
  let d := cp.dest.getD 0
  { src := s.member
    hops := 0
    dest := d % 32768
    group := decide (d ≥ 32768)
    member := (q - voq0) / 16 / 64
    cls := cp.cls
    colour := cp.colour
    markDei := cp.markDei
    hdrs := f.hdrs.map w32
    rewrite := cp.rewrite
    suspect := f.suspect
    untrace := f.untrace
    bytes := f.bytes
    tsNs := ptpNs f.tsPtp
    tsSec := ptpSec f.tsPtp
    srcGport := f.src
    age := min 4294967295 ((s.frc - f.ts) / 64)
    hdrIndex := sget f.fields 0x1F1F1F 6 % 2097152
    pcp := sget f.fields 16 4 % 32 }

/-- A copy leaves on a Niben link: a FRAME message of this member, or one in transit (R595, R596, R600, R619). -/
def State.toLink (s : State) (l : Nat) (f : Frame) (cp : Copy) (q : Nat) : State :=
  let m := match f.transit with
    | some m => { m with hops := m.hops + 1, age := min 4294967295 (m.age + (s.frc - cp.at_) / 64) }
    | none => frameMsgOf s f cp q
  let len := 32 + 4 * f.hdrs.length + f.bytes.length
  let s := if q < voq0 then s else
    let v := sget s.voq {} q
    { s with voq := sput s.voq {} q { v with credit := if m.dest % 64 = 63 || m.group then v.credit else v.credit - len } }
  if s.flag F.FAB_STATE.TIME_FENCED 0 && bit (s.fld F.FAB_CTL.TC_CLASSES 0) cp.cls then (s.bump .FAB_TC_FENCE_DROP 0).unref cp.frame
  else s.sendOn l (.frame cp (m.hops) m.age m)

/-- A copy of an expired frame goes to P43 (R276). -/
def State.expiredCopy (s : State) (f : Frame) (cp : Copy) : State :=
  s.addCopy cp.frame f (slowCopy cp.frame f f.resOf 0 4 s.frc)

/-- Queue a two-step entry (R459). -/
def State.pushTxTs (s : State) (p : Nat) (e : TxTs) : State :=
  let l := sget s.clock.txts [] p
  if l.length ≥ 64 then s.bump .TIME_TXTS_DROP p
  else { s with clock := { s.clock with txts := sset s.clock.txts p (l ++ [e]) } }

/-- The blocks behind the first are read as a copy is sent: those that match at a re-read are counted, and the first whose reads all fail is where
the copy will end (R327). The answer is its byte in the stored frame. -/
def State.laterReads (s : State) (fid : Nat) (bad : List Nat) : Option Nat × State :=
  (bad.zip (List.range bad.length)).foldl (fun (x : Option Nat × State) e =>
    if x.1.isSome || e.2 = 0 then x else
    let (ok, s) := x.2.blockRead fid e.1
    (if ok then none else some (256 * e.2), s)) (none, s)

/-- A copy begins on a front-panel port (R264 to R267, R300, R383); one discarded here is not sampled (R392). -/
def State.startTx (s : State) (node : Nat) (bad : List Nat) (f : Frame) (cp : Copy) (a : Act) (b depth : Nat) : State :=
  let (e, x) := (rwStart s f cp.frame node).run cp
  let s := x.s
  if x.dead then (if x.toP43 then s.expiredCopy f cp else s).unref cp.frame
  else
    let len := x.len + 4
    if len > s.maxFrame node then (s.bump .RW_OVERSIZE node).unref cp.frame else
    let s := match e with | some e => s.pushTxTs node e | none => s
    let s := (s.sample node a depth cp).lpiExit node
    let wire := cdiv (b * 8000) (max 1 (s.rate node))
    let g := (sget s.gates {} a.c).cyc.cfg
    let outlast := g.enable && !g.guard && ((s.nextClose a.c).map fun t => decide (wire > t)).getD false
    let s := if outlast then s.bump .GCL_OVERRUN a.c else s
    let (fail, s) := s.laterReads cp.frame bad
    { s with tx := sset s.tx node {
        copy := cp
        q := a.q
        bytes := x.b
        len := len
        start := s.now
        dur := cdiv (len * 8000) (max 1 (s.rate node))
        ct := !f.tail
        fail := fail.map fun n => n + x.b.length - f.bytes.length
        took := f.bytes.length
        draws := x.drawn
        sec := x.sec
        trailer := x.trailer } }

/-- The copy selected by a decision leaves its queue (R366). -/
def State.dequeue (s : State) (node : Nat) (bad : List Nat) (capBad : Nat) (a : Act) (dw : List (Nat × Nat)) : State :=
  match s.queue a.q with
  | [] => s
  | cp :: rest =>
    let depth := s.qBlocks a.q
    let b := s.charged node cp
    let s := (s.setQueue a.q rest).release cp
    let s := (s.chargePath node b a dw).countSample a.q
    let s := s.perfEv 11 1 (if cp.port < 40 then portPl cp.port else 0) cp.port cp.cls s.cur a.q
    match sfind s.frames cp.frame with
    | none => s.settleQueues
    | some f =>
      let f := { f with capBad := capBad }
      let s := if cp.port < 44 && s.flag F.ADM_CAP.VALID (cp.port * 16 + cp.cls) then
          s.capture (s.fld F.ADM_CAP.RING (cp.port * 16 + cp.cls)) cp.frame f 1 cp.port cp.cls cp.colour
        else s
      if s.aged f cp then (s.dropAged f cp).settleQueues else
      let (ok, s) := s.blockRead cp.frame (bad.headD 0)
      let (fail, s) := if !ok || node < 40 then (none, s) else s.laterReads cp.frame bad
      if !ok || fail.isSome then (s.unref cp.frame).settleQueues else
      let s := s.protTouch node cp.cls
      let s :=
        if node < 40 then s.startTx node bad f cp a b depth
        else if node = 40 then (s.sample node a depth cp).toHost f cp a.c
        else if node = 41 then
          let (_, x) := (rwStart s f cp.frame 41).run cp
          let s := x.s
          if x.dead then (if x.toP43 then s.expiredCopy f cp else s).unref cp.frame
          else ((s.sample node a depth cp).recirculate f x.b).unref cp.frame
        else if node = 43 then (s.sample node a depth cp).toP43 f cp
        else (s.sample node a depth cp).toLink (node - 44) f cp a.q
      s.settleQueues

/-- A copy stands in a queue of another port's path (R398), local traffic in a fabric queue, or a virtual output queue on a link other than
its binding (R625). -/
def State.strays (s : State) (node : Nat) (l : List Act) : Bool :=
  l.any fun a => (s.queue a.q).any fun cp => match cp.voq with
    | some q => s.boundLink ((q - voq0) / 1024) ((q - voq0) / 16) != some (node - 44)
    | none => cp.port != node && !(node ≥ 44 && cp.port ≥ 44)

/-- In the safe state a queued copy is discarded as it is reached (Table 18-6). -/
def State.dropHead (s : State) (l : List Act) : State :=
  match l with
  | [] => s
  | a :: _ => match s.queue a.q with
    | [] => s
    | cp :: rest => (s.setQueue a.q rest).discard cp

/-- SCHED_DECISION (R364): bad: the reads of the copy's frame that mismatch (R327). -/
def execSchedDecision (dt : Nat) (node : Fin 64) (bad : CopyReads) (s : State) : Out :=
  let s := (s.advance dt).settleQueues
  let l := s.active node
  if s.flt.safe then finish (s.dropHead l) else
  if l.isEmpty || !s.nodeReady node then finish s else
  let s := if node < 44 && s.pairBad1 node then s.undefined .pair else s
  let s := if s.strays node l then s.undefined (if node < 44 then .tree else .strayQueue) else s
  let s := s.refill 0 node
  let s := ((l.map (·.c)).foldl ins []).foldl (fun s c => s.refill 1 c) s
  let s := ((l.map (·.g)).foldl ins []).foldl (fun s g => s.refill 2 g) s
  let s := l.foldl (fun s a => s.refill 3 a.q) s
  if !s.tokensOk 0 node then finish s else
  match s.pick node l with
  | (none, s) => finish s
  | (some (a, dw), s) => finish (s.dequeue node bad.blocks bad.capBad a dw)

/-- COPY_TX_DONE (R323): the last byte of a copy has left a front-panel port, or it has reached the block that cannot be read, where it ends under
R70 (R327). -/
def execCopyTxDone (dt : Nat) (node : Fin 64) (s : State) : Out :=
  let s := s.advance dt
  match sfind s.tx node with
  | none => finish s
  | some t =>
    if t.fail.any fun n => decide (s.txBegun t > n) then finish (s.stompAt node (some .TX_STOMP) t.fail) else
    if t.ct || s.now < t.start + t.dur then finish s else
    let s := (s.bump .TX_FRAMES node).add .TX_OCTETS node t.len
    let s := { s with
      tx := sdel s.tx node
      sent := s.sent ++ [Sent.mk node t.bytes true t.start (fcs t.bytes)] }
    finish ((s.txEnds node).unref t.copy.frame)

/-- Discard over-age copies at the head of one queue. -/
def State.sweepQueue (q : Nat) : Nat → State → State
  | 0, s => s
  | n + 1, s =>
    match s.queue q with
    | [] => s
    | cp :: rest =>
      match sfind s.frames cp.frame with
      | none => State.sweepQueue q n ((s.setQueue q rest).release cp)
      | some f =>
        if !s.aged f cp then s else
        State.sweepQueue q n (State.dropAged ((s.setQueue q rest).release cp) f cp)

/-- AGE_SWEEP (R340). -/
def execAgeSweep (dt : Nat) (s : State) : Out :=
  let s := s.advance dt
  finish (s.queues.foldl (fun s e => State.sweepQueue e.1 e.2.length s) s).settleQueues

end Sys2Proof.Machine
end

