-- ==== Sys2Proof/Machine/Batch.lean ====
section
/-! DEFINITION. Batches and Niben links (chapter 14): blocks, link bring-up, messages, credit, the batch commit, the time comparison
and members that leave. -/
namespace Sys2Proof.Machine

/-! ## Blocks (R576 to R580) -/

/-- Change the record of a link. -/
def State.modLink (s : State) (l : Nat) (f : Link → Link) : State := { s with links := sset s.links l (f (sget s.links {} l)) }

/-- Messages of types 9 to 15 at the head of a message stream, and what of it is not yet whole (R590). A zero word is padding. -/
def splitMsgs : Nat → Bytes → Nat × Bytes
  | 0, b => (0, b)
  | n + 1, b =>
    if b.length < 4 then (0, b) else
    let w := beNat b 0 4
    let len := 4 * max 1 (bits w 4 13)
    if b.length < len then (0, b) else
    let r := splitMsgs n (b.drop len)
    (r.1 + b2n (decide (w % 16 ≥ 9)), r.2)

/-- An acknowledgement releases every block before it (R578). -/
def Link.release (k : Link) (ack now : Nat) : Link :=
  let n := serial k.acked ack 16
  if n = 0 || n > k.retry then k else
  { k with acked := ack, retry := k.retry - n, retryAt := now, resends := 0, kept := k.kept.filter fun x => decide (serial k.acked (x.seq + x.n) 16 > n) }

/-- The ACK and NAK of a received block act on the retry buffer, which takes what waited for room (R578, R579). -/
def State.acked (s : State) (l ack : Nat) (nak : Bool) : State :=
  let s := s.modLink l fun k => let k := k.release ack s.now; if nak && serial k.acked ack 16 < k.retry then k.resend ack else k
  s.pumpLink l (sget s.links {} l).wait

/-- A discarded DATA block: the first since an accepted one is answered with NAK; too many in a second raise FAB_LINK_ERR (R577,
Table 14-2). -/
def State.nak (s : State) (l : Nat) : State :=
  let k := sget s.links {} l
  if k.nakOut then s else
  let naks := s.now :: k.naks.filter fun t => s.now < t + 1000000000
  let s := { s with links := sset s.links l { k with nakOut := true, naks := naks } }
  let n := s.fld F.FAB_LINK_CFG.NAK_THRESH l
  if n ≠ 0 && naks.length > n then s.raise (20 + l) else s

/-- NIBEN_BLOCK_RX (R576 to R578). -/
def execNibenBlockRx (dt : Nat) (l : Fin 8) (block : Bytes) (s : State) : Out :=
  let s := s.advance dt
  let data := byteAt block 4 / 64 == 0
  if block.length ≠ 256 || s.linkState l < 2 then finish s
  else if crc32c 0 (block.take 252) ≠ beNat block 252 4 then
    finish (if data then (s.bump .FAB_BLK_CRC l).nak l else s)
  else
    let s := s.acked l (beNat block 2 2) (bit (byteAt block 5) 0)
    if !data then finish s else
    let k := sget s.links {} l
    if beNat block 0 2 ≠ k.expect then finish ((s.bump .FAB_BLK_SEQ l).nak l)
    else
      let (bad, rest) := splitMsgs 64 (k.stream ++ (block.drop 8).take 244)
      finish ((s.modLink l fun k => { k with expect := (k.expect + 1) % 65536, nakOut := false, stream := rest }).add .FAB_MSG_BAD 0 bad)

/-- NIBEN_REPLAY_TIMEOUT (R580): the sixteenth resend in a row without release takes the link down. -/
def execNibenReplayTimeout (dt : Nat) (l : Fin 8) (s : State) : Out :=
  let s := s.advance dt
  let k := sget s.links {} l
  if s.linkState l < 2 || k.retry = 0 || s.now < k.retryAt + 2000000 then finish s else
  let s := s.bump .FAB_REPLAY_TIMEOUT l
  if k.resends + 1 ≥ 16 then finish (s.nibenDown l 5)
  else finish (s.modLink l fun k => { k.resend k.acked with resends := k.resends + 1, retryAt := s.now })

/-! ## Bring-up (R582, R583, R651) -/

/-- LINK_TRAINING_LOCK: locked for 1 ms, a link goes to CHECK and sends its HELLO. -/
def execLinkTrainingLock (dt : Nat) (l : Fin 8) (s : State) : Out :=
  let s := s.advance dt
  if !s.linkAllowed l || s.linkState l > 1 || s.now < ((sget s.links {} l).lockAt.getD s.now) + 1000000 then finish s
  else finish ((s.setLinkState l 2).sendOn l .hello)

/-- Reason a HELLO is refused for (Table 14-3): none when every check passes. -/
def State.helloRefusal (s : State) (h : Hello) : Option Nat :=
  let attested := h.certOk && h.sigOk && h.nonceOk && (h.lifecycle == 1 || h.lifecycle == 2) && h.lifecycle == s.sec.lifecycle &&
    (h.debug == 0 || (h.debug == 2 && bit s.sec.policy 17)) && h.ownerMatch
  if h.member = s.member then some 1
  else if !attested then some 2
  else if !compatible s.versions h.vers then some 3
  else
    let lead := s.fld F.FAB_STATE.LEADER 0
    let known := if lead = s.member then true else (((sget s.peers {} lead).vers.map (compatible s.versions)).getD true)
    if known && h.leaderCompat then none else some 4

/-- NOTICE LEARN for every entry this member owns (R622). -/
def State.noticeAll (s : State) : State :=
  s.exm.foldl (fun (s : State) x =>
    let e := x.2
    if s.kindOf e.table == 1 && e.learned && e.vis s.cur && e.desc == s.descAt e.table s.cur && !bit e.result 15 && e.owner == s.member then
      s.notice true e (sget s.fdbTime (0, false) x.1).1
    else s) s

/-- Routes again; members that have become reachable get this member's entries. -/
def State.routesNow (s : State) : State :=
  let was := s.reachable
  let s := s.routesUpdate
  if s.reachable.all was.contains then s else s.noticeAll

/-- HELLO (R582). -/
def execHelloMsg (dt : Nat) (l : Fin 8) (h : Hello) (s : State) : Out :=
  let s := s.advance dt
  let st := s.linkState l
  if st < 2 then finish s else
  let s := (s.setFld F.FAB_LINK_STAT.PEER l h.member).setFld F.FAB_LINK_STAT.PEER_LINK l h.link
  let s := s.modLink l fun k => { k with peer := some h }
  match s.helloRefusal h with
  | some r =>
    let s := (s.setFld F.FAB_LINK_STAT.REASON l r).setLinkState l 4
    finish (if st = 3 then s.routesUpdate.announce else s)
  | none =>
    let p := sget s.peers {} h.member
    let s := { s with peers := sset s.peers h.member { p with
      vers := some h.vers
      trace := h.trace
      epoch := h.epoch
      digest := h.digest } }
    finish ((s.setLinkState l 3).announce.routesNow)

/-- LINK_STATE (R587): another member's links and ports; a change is flooded on. -/
def execLinkStateMsg (dt : Nat) (src : Nat) (reach : List (Nat × Nat × Nat)) (ports : List Nat) (s : State) : Out :=
  let s := s.advance dt
  let p := sget s.peers {} src
  if src = s.member || (p.links == reach && p.ports == ports) then finish s else
  let s := { s with peers := sset s.peers src { p with links := reach, ports := ports } }
  finish ((s.sendAll (.linkState src reach ports)).routesNow)

/-- MEMBER_UNREACHABLE (R620): unreachable for 50 ms. -/
def execMemberUnreachable (dt : Nat) (m : Fin 512) (s : State) : Out :=
  let s := s.advance dt
  match (sget s.peers {} m).unreachAt with
  | none => finish s
  | some t =>
    if s.now < t + 50000000 then finish s else
    let lo := voq0 + 1024 * m
    let s := s.dropCopies (fun cp => match cp.voq with | some q => decide (lo ≤ q) && decide (q < lo + 1024) | none => false)
      (fun _ s => s.bump .FAB_UNREACH_DROP 0)
    let s := { s with
      voq := s.voq.filter fun e => !(decide (lo ≤ e.1) && decide (e.1 < lo + 1024))
      flushQ := s.flushQ ++ (List.range 64).map fun (p : Nat) => Flush.mk 0 (64 * m + p) false false none false
      peers := sdel s.peers m }
    finish s.syncRounds.batchSettle

/-! ## FRAME messages (R589, R599 to R602) -/

/-- A buffer for a FRAME message: the smallest pool that holds it, then larger ones. -/
def State.allocFab (s : State) (k : Nat) : Option (Nat × Nat × State) :=
  ((List.range 4).filter fun j => decide (j ≥ k)).findSome? fun j => (s.alloc j 0).map fun x => (j, x.1, x.2)

/-- The frame a FRAME message carries. -/
def State.fabFrame (s : State) (l : Nat) (m : FrameMsg) (id j : Nat) : Frame :=
  { port := 44 + l
    pl := 0
    bytes := m.bytes
    ts := s.frc - 64 * m.age
    tsPtp := m.tsSec * 1000000000 + m.tsNs
    untrace := m.untrace
    suspect := m.suspect
    buf := some id
    blocks := poolBlocks j
    gen := s.cur
    hdrs := m.hdrs.map (·.toNat)
    fields := sset (sset (sset [] 4 m.pcp) 6 m.hdrIndex) 8 31
    src := m.srcGport }

/-- A FRAME message for this member is admitted (R599, R602). -/
def State.fabOwn (s : State) (l : Nat) (m : FrameMsg) : State :=
  match s.allocFab (poolFor (m.bytes.length + 4)) with
  | none => s
  | some (j, id, s) =>
    let fid := s.nextFrame
    let f := s.fabFrame l m id j
    let r : Res := { dest := some m.dest, group := m.group, cls := m.cls, colour := m.colour, markDei := m.markDei, rewrite := m.rewrite, noFabric := true }
    ((s.enterFrame f).seal fid).admitAll fid f r true none

/-- A FRAME message for another member goes on (R600). -/
def State.fabTransit (s : State) (l : Nat) (m : FrameMsg) (member : Nat) : State :=
  let g := if m.group then 64 * member + 63 else m.dest
  match s.boundLink member g, s.allocFab (poolFor (m.bytes.length + 4)) with
  | some k, some (j, id, t) =>
    let fid := t.nextFrame
    let f := { t.fabFrame l m id j with transit := some m }
    let cp := { Copy.base fid f { dest := none, cls := m.cls, colour := m.colour, markDei := m.markDei, rewrite := m.rewrite } (44 + k) m.cls t.frc with
      transit := true }
    ((t.enterFrame f).seal fid).admitFrame fid f {} [cp]
  | _, _ => s.bump .FAB_TRANSIT_DROP 0

/-- FRAME. -/
def execFrameMsg (dt : Nat) (l : Fin 8) (m : FrameMsg) (s : State) : Out :=
  let s := s.advance dt
  if s.linkState l ≠ 3 then finish s
  else if m.hops ≥ 15 then finish (s.bump .FAB_HOPS_DROP 0)
  else
    let to_ := if m.group then m.member else m.dest / 64
    finish (if to_ = s.member then s.fabOwn l m else s.fabTransit l m to_)

/-! ## Credit (R596 to R598) -/

/-- CREDIT: the balance of a virtual output queue grows. -/
def execCreditMsg (dt : Nat) (g : Nat) (cls : Fin 16) (bytes : Nat) (s : State) : Out :=
  let s := s.advance dt
  let q := voqOf g cls
  let v := sget s.voq {} q
  finish (State.settleQueues { s with voq := sput s.voq {} q { v with credit := v.credit + (bytes : Nat) } })

/-- REQUEST: a source at the credit generator of a local port and class. -/
def execRequestMsg (dt : Nat) (src : Nat) (p : Fin 40) (cls : Fin 16) (on : Bool) (s : State) : Out :=
  let s := s.advance dt
  let i := p.val * 16 + cls
  finish { s with cgReq := sput s.cgReq [] i (mark (sget s.cgReq [] i) src on) }

/-- CREDIT_ISSUE: one CREDIT message, when the occupancy and the rate allow, to the next source in turn. -/
def execCreditIssue (dt : Nat) (p : Fin 40) (cls : Fin 16) (s : State) : Out :=
  let s := s.advance dt
  let i := p.val * 16 + cls
  let l := sget s.cgReq [] i
  let n := 2 ^ (10 + min 6 (s.fld F.FAB_CTL.CREDIT_SZ 0))
  let rate := s.rate p
  if !s.flag F.FAB_CTL.EN 0 || l.isEmpty || rate = 0 || s.occ p cls ≥ s.fld F.FAB_CG.THRESH i then finish s
  else if s.now * (17 * rate) < sget s.cgAt 0 i * (17 * rate) + (if (sfind s.cgAt i).isSome then n * 128000 else 0) then finish s
  else
    let from_ := sget s.cgNext 0 i
    let m := ((l.find? fun m => decide (m ≥ from_)).orElse fun _ => l.head?).getD 0
    let g := s.gport p
    finish (State.sendTo { s with cgNext := sset s.cgNext i (m + 1), cgAt := sset s.cgAt i s.now } m g (.credit g cls n))

/-! ## The shared forwarding database (R604, R607) -/

/-- NOTICE: it enters the learn queue. -/
def execNoticeMsg (dt : Nat) (n : NoticeMsg) (s : State) : Out :=
  let s := s.advance dt
  finish (s.learn {
    table := n.table
    key := n.key
    gport := n.gport
    port := n.gport % 64
    ts := s.frc
    ptp := n.at_
    notice := true
    drop := !n.learn
    suspect := n.suspect })

/-- FLUSH: an immediate flush of a global port. -/
def execFlushMsg (dt : Nat) (g : Nat) (s : State) : Out :=
  let s := s.advance dt
  finish { s with flushQ := s.flushQ ++ [{ table := 0, gport := g, staged := false, static_ := false }] }

/-! ## The batch commit (R611 to R614) -/

/-- Every reachable member has reported its digest. -/
def State.allReported (s : State) : Bool := s.reachable.all fun m => m == s.member || (sfind s.batch.reports m).isSome

/-- A time point at least 2 ms ahead. -/
def State.ahead (s : State) : Nat × State := let (v, s) := s.fresh; (s.ptp + 2000000 + v, s)

/-- The leader chooses T and sends it (step 4 of Table 14-7), once the reports are in or the wait for them ends. -/
def State.chooseT (s : State) (late : Bool) : State :=
  if s.batch.leading.isNone || s.batch.commitAt.isSome || !(late || s.allReported) then s else
  let (t, s) := s.ahead
  State.sendAll { s with batch := { s.batch with commitAt := some t } } (.atTime s.batch.epoch t)

/-- A digest report of member m (R611, R613). -/
def State.digestReport (s : State) (epoch m : Nat) (d : Bytes) : State :=
  if m = s.member then s
  else if m = s.fld F.FAB_STATE.LEADER 0 then { s with batch := { s.batch with digest := d } }
  else if !s.isLeader then s
  else if s.batch.leading.isSome then
    if epoch = s.batch.epoch then State.chooseT { s with batch := { s.batch with reports := sset s.batch.reports m d } } false else s
  else if epoch = s.epoch && d = s.digest then
    let (t, s) := s.ahead
    (State.sendTo { s with peers := sset s.peers m { sget s.peers {} m with epoch := epoch, digest := d } } m (64 * m + 63) (.atTime epoch t)).batchSettle
  else s

/-- CONFIG: a segment of a configuration, a digest report, or (segment 65535) the time point T. -/
def execConfigMsg (dt : Nat) (epoch : Nat) (seg : Nat) (last : Bool) (words : List Word) (report : Option (Nat × Bytes)) (s : State) : Out :=
  let s := s.advance dt
  let s := match report with | some (m, d) => s.digestReport epoch m d | none => s
  let b := s.batch
  if seg = 65535 then finish (if b.epoch = epoch && b.leading.isNone then { s with batch := { b with commitAt := some (wNat words 0 2) } } else s)
  else if b.leading.isSome || (words.isEmpty && !last) then finish s
  else if seg = 0 then
    finish { s with batch := { b with
      epoch := epoch
      segs := words
      whole := last
      cfgAt := some s.now
      staged := none
      own := none
      noReport := false
      commitAt := none } }
  else if b.epoch = epoch && !b.whole then finish { s with batch := { b with segs := b.segs ++ words, whole := last } }
  else finish s

/-- BATCH_STAGE_TIMEOUT (R612): a local transaction is still open 90 ms after the configuration arrived. -/
def execBatchStageTimeout (dt : Nat) (s : State) : Out :=
  let s := s.advance dt
  let b := s.batch
  match b.cfgAt with
  | none => finish s
  | some t =>
    if b.staged.isSome || s.txn.isNone || s.now < t + 90000000 then finish s
    else finish { s with batch := { b with noReport := true } }

/-- DIGEST_REPORT_DEADLINE: the reports are in, or 100 ms have passed. -/
def execDigestReportDeadline (dt : Nat) (s : State) : Out :=
  let s := s.advance dt
  match s.batch.leading with
  | none => finish s
  | some t => finish (s.chooseT (decide (s.now ≥ t + 100000000)))

/-- The words of a digest. -/
def digestWords (d : Bytes) : List Word := bytesWords (d.take 64)

/-- The epoch and digest become current (step 5), and are measured. -/
def State.newEpoch (s : State) (epoch : Nat) (d : Bytes) : State :=
  let s := (s.setReg .FAB_EPOCH 0 0 epoch).setReg .FAB_EPOCH 0 1 (epoch / 4294967296)
  let s := (List.range 16).foldl (fun (s : State) i => s.setReg .FAB_EPOCH 0 (2 + i) (wAt (digestWords d) i)) s
  s.extend 7 7 (Config.shake256 (d ++ toLE epoch 8))

/-- Two-version tables by their code. -/
def vtabOf (c : Nat) : Option VTab := [VTab.RW_LIST, .RW_MAC, .RW_ENCAP, .NH_TABLE, .MC_GROUP, .FAB_MCG].find? fun t => t.code == c

/-- The table entry and word of a configuration key, and whether its newest version differs there. -/
def State.cfgEntry (s : State) (e : Nat × Word) : Option (VTab × Nat × Nat) :=
  if e.1 / 4294967296 < 1024 then none else
  (vtabOf (e.1 / 4294967296 - 1024)).bind fun t =>
    let i := e.1 % 4294967296 / 32
    let k := e.1 % 32
    let now := ((s.vers t i).getLast?.map (·.words)).getD (List.replicate t.words 0)
    if now.getD k 0 = e.2 then none else some (t, i, k)

/-- The table writes of a configuration may all proceed. -/
def State.cfgFree (s : State) (m : Sparse Word) : Bool :=
  m.all fun e => match s.cfgEntry e with | some (t, i, _) => s.verFree t i | none => true

/-- Stage a configuration. -/
def State.cfgStage (s : State) (m : Sparse Word) : State :=
  m.foldl (fun (s : State) e =>
    if e.1 / 4294967296 < 1024 then
      match Reg.ofCode (e.1 / 4294967296) with
      | some r => s.stage r (e.1 % 4294967296 / 256) (e.1 % 256) (r.masks (e.1 % 256)).cmt e.2.toNat
      | none => s
    else match s.cfgEntry e with
      | some (t, i, k) => s.verStage t i k [e.2]
      | none => s) s

/-- The members' epochs as the leader knows them after a commit: those that reported its digest hold it. -/
def State.peersAgree (s : State) : Sparse Peer :=
  s.batch.reports.foldl (fun m e =>
    if e.2 = s.batch.digest then sset m e.1 { sget m {} e.1 with epoch := s.batch.epoch, digest := s.batch.digest } else m) s.peers

/-- The batch state after its commit point. -/
def Batch.after (b : Batch) (config : Sparse Word) : Batch :=
  { resendAt := b.resendAt, timeAt := b.timeAt, suspect := b.suspect, fenced := b.fenced, config := config }

/-- The leader commits its transaction at T. -/
def State.leaderCommit (s : State) : State :=
  let b := s.batch
  let config := cfgMerge b.config s.stagedConfig
  let peers := s.peersAgree
  let s := s.commitGen
  let s := State.newEpoch { s with txn := none, peers := peers, batch := b.after config } b.epoch b.digest
  let s := match b.waits with | some ch => s.completeWait ch 0 (b.epoch % 4294967296) [] | none => s
  s.batchSettle

/-- Another member commits at T when its digest agrees; otherwise it is HELD. -/
def State.memberCommit (s : State) : State :=
  let b := s.batch
  let lead := s.fld F.FAB_STATE.LEADER 0
  let peers := if lead = s.member then s.peers else sset s.peers lead { sget s.peers {} lead with epoch := b.epoch, digest := b.digest }
  let s := { s with peers := peers }
  match b.staged with
  | none => State.batchSettle { s with batch := b.after b.config }
  | some l =>
    if b.own ≠ some b.digest then State.batchSettle { s with batch := b.after b.config } else
    let m := cfgOf l
    (State.newEpoch { (s.cfgStage m).commitGen with batch := b.after m } b.epoch b.digest).batchSettle

/-- BATCH_COMMIT_AT_T (steps 5 and 6 of Table 14-7). -/
def execBatchCommitAtT (dt : Nat) (s : State) : Out :=
  let s := s.advance dt
  match s.batch.commitAt with
  | none => finish s
  | some t =>
    let agrees := s.batch.leading.isSome || (s.batch.staged.isSome && s.batch.own == some s.batch.digest)
    if s.ptp < t || (agrees && (!s.commitFree || !s.cfgFree (cfgOf (s.batch.staged.getD [])))) then finish s else
    finish (if s.batch.leading.isSome then s.leaderCommit else s.memberCommit)

/-- HELD_RESEND (R613): every 1 s the leader sends the whole configuration to members that do not hold its digest. -/
def execHeldResend (dt : Nat) (s : State) : Out :=
  let s := s.advance dt
  if !s.isLeader || s.now < s.batch.resendAt + 1000000000 then finish s else
  let l := cfgWords s.batch.config
  let d := s.digest
  let s : State := { s with batch := { s.batch with resendAt := s.now } }
  finish ((s.reachable.filter fun m => m != s.member && (sget s.peers {} m).digest != d).foldl
    (fun (s : State) m => s.sendTo m (64 * m + 63) (.config s.epoch l (some (s.member, d)))) s)

/-! ## Time comparison (R615 to R617) -/

/-- TIME_COMPARE_TX: every 125 ms a TIME message on each UP link. -/
def execTimeCompareTx (dt : Nat) (s : State) : Out :=
  let s := s.advance dt
  if s.now < s.batch.timeAt + 125000000 then finish s else
  let s : State := { s with batch := { s.batch with timeAt := s.now } }
  finish (((List.range 8).filter fun l => s.linkState l == 3).foldl (fun (s : State) l =>
    let rx := ((sget s.links {} l).rxTime.map (·.2)).getD 0
    (s.sendOn l (.timeTx s.ptp rx)).modLink l fun k => { k with txTime := s.ptp }) s)

/-- One comparison of a flag: entered above a limit (ps), left after ten in a row below half of it. -/
def timeFlag (set : Bool) (n : Nat) (d : Int) (limit : Nat) : Bool × Nat :=
  if d.natAbs > limit then (true, 0)
  else if !set then (false, 0)
  else if 2 * d.natAbs < limit then (if n + 1 ≥ 10 then (false, 0) else (true, n + 1))
  else (true, 0)

/-- The member's disagreement with the reference, in ps, as far as link l is the first of its route (R616). -/
def State.disagreement (s : State) (l : Nat) : Option Int :=
  let ref := s.fld F.FAB_STATE.TIME_REF 0
  if ref = s.member then some 0
  else if s.boundLink ref (64 * ref + 63) ≠ some l then none
  else
    let far := if s.fld F.FAB_ROUTE.HOPS ref > 1 then Config.routeOffset ref s.ptp else 0
    some ((sget s.links {} l).offset + far)

/-- A comparison of the member's time with the reference (R617). -/
def State.compareTime (s : State) (d : Int) : State :=
  let was := (s.flag F.FAB_STATE.TIME_SUSPECT 0, s.flag F.FAB_STATE.TIME_FENCED 0)
  let a := timeFlag was.1 s.batch.suspect d 1000000
  let b := timeFlag was.2 s.batch.fenced d 100000000
  let s : State := { s with batch := { s.batch with suspect := a.2, fenced := b.2 } }
  let s := (s.setFld F.FAB_STATE.TIME_SUSPECT 0 (b2n a.1)).setFld F.FAB_STATE.TIME_FENCED 0 (b2n b.1)
  if (a.1, b.1) = was then s else s.pulse 53

/-- TIME (R615): the peer's transmit timestamp and its reception of this member's last TIME give offset and round trip. -/
def execTimeMsg (dt : Nat) (l : Fin 8) (txTs rxTs : Nat) (s : State) : Out :=
  let s := s.advance dt
  if s.linkState l ≠ 3 then finish s else
  let k := sget s.links {} l
  let back : Int := (txTs : Int) - s.ptp
  let forth : Int := (rxTs : Int) - k.txTime
  let s := s.modLink l fun k => { k with rxTime := some (txTs, s.ptp) }
  if rxTs = 0 || k.txTime = 0 then finish s else
  let s := s.setFld F.FAB_LINK_STAT.RTT_US l (min 4095 ((forth - back).toNat / 1000))
  let s := s.modLink l fun k => { k with offset := (back + forth) * 500 - sgn (s.fld F.FAB_LINK_CFG.ASYM_PS l) 16 }
  match s.disagreement l with
  | none => finish s
  | some d => finish (s.compareTime d)

end Sys2Proof.Machine
end

