-- ==== Sys2Proof/Machine/Dram.lean ====
section
/-! DEFINITION. The DRAM controllers and the crossings (R799, R804 to R814): arbitration, open rows, calibration, block checks. -/
namespace Sys2Proof.Machine

/-! ## Arbitration (R805 to R807) -/

/-- AGE of a service class in ns. -/
def State.dramAge (s : State) (k : Nat) : Nat := let v := s.fld F.DRAM_SC_CFG.AGE k; 8 * (if v = 0 then 1 else v)

/-- The row of a request is open. -/
def DramCh.hit (c : DramCh) (r : DramReq) : Bool := (sfind c.rows (Config.dramRow r.addr)).isSome

/-- Two requests of one block that keep their order (R807). -/
def DramReq.keeps (a b : DramReq) : Bool := a.addr == b.addr && (a.write || b.write)

/-- Some pair that keeps its order waits in an open row. -/
def DramCh.ordered (c : DramCh) (row : Nat) : Bool :=
  (sfind c.rows row).isSome &&
  (List.range c.reqs.length).any fun j => (c.reqs.take j).any fun a =>
    Config.dramRow a.addr == row && (match c.reqs[j]? with | some b => a.keeps b | none => false)

/-- Request i may go: none of its block before it keeps its order with it, and in an open row where such a pair waits it is the
first. -/
def DramCh.mayGo (c : DramCh) (i : Nat) (r : DramReq) : Bool :=
  let before := c.reqs.take i
  before.all fun a => !a.keeps r && !(Config.dramRow a.addr == Config.dramRow r.addr && c.ordered (Config.dramRow r.addr))

/-- Index of the request served next: promoted ones by age, then the lowest class, an open row first within it (R806). -/
def DramCh.choose (c : DramCh) : Option Nat :=
  let l := (List.range c.reqs.length).filterMap fun i =>
    match c.reqs[i]? with | some r => if c.mayGo i r then some (i, r) else none | none => none
  match l.find? fun e => e.2.promo with
  | some (i, _) => some i
  | none =>
    let best (k : Nat) : Option Nat :=
      let m := l.filter fun e => e.2.cls == k
      match m.find? fun e => c.hit e.2 with
      | some (i, _) => some i
      | none => m.head?.map (·.1)
    [0, 1, 2, 3].findSome? best

/-! ## Serving (R808, R811 to R813) -/

/-- The requests that have waited the AGE of their class are promoted and counted. -/
def State.dramPromote (s : State) (k : Nat) : State :=
  let c := sget s.dramCh {} k
  let due (r : DramReq) : Bool := !r.promo && decide (s.now ≥ r.at_ + s.dramAge r.cls)
  let n := c.reqs.filter due
  let s := { s with dramCh := sset s.dramCh k { c with reqs := c.reqs.map fun r => if due r then { r with promo := true } else r } }
  n.foldl (fun s r => (s.bump .DRAM_PROMOTE (k * 4 + r.cls)).perfEv 14 1 k 0 r.cls 0 0) s

/-- Rows after an access: hint OPEN keeps the row open and closes another of its bank, hint CLOSE precharges it. -/
def DramCh.after (c : DramCh) (r : DramReq) (now : Nat) : DramCh :=
  let row := Config.dramRow r.addr
  let rest := c.rows.filter fun e => Config.dramBank e.1 != Config.dramBank row
  { c with rows := if r.cls = 3 then sdel rest row else sset rest row now }

/-- Records whose rows lie in a block that failed are TRUNCATED (R813). -/
def State.truncAt (s : State) (a : Nat) : State :=
  s.recs.foldl (fun s e =>
    let n := s.recN e.1
    let inRow (k : Nat) : Bool := let b := s.recAddr e.1 k % dramSize; decide (b < a + 64) && decide (a < b + 80)
    let inRec (r : Record) : Bool := !r.isOpen && (List.range ((r.last + n - r.first) % max 1 n + 1)).any fun k => inRow ((r.first + k) % max 1 n)
    if e.2.any inRec then s.setRecords e.1 (e.2.map fun r => if inRec r then { r with trunc := true } else r) else s) s

/-- Data bits as a read with some of them flipped gives them; bit n is bit n mod 8 of byte n / 8. -/
def flipBits (b : Bytes) (l : List Nat) : Bytes :=
  (List.range b.length).map fun i => l.foldl (fun x n => if n / 8 = i then x ^^^ (1 <<< (n % 8)) else x) (b.getD i 0)

/-- A read of a block that flips some of its 528 bits, 512 of data and 16 of side band, mismatches the CRC (R811). -/
def State.readBad (s : State) (a : Nat) (flips : List Nat) : Bool :=
  let b := memReadBytes s.dram a 64
  let side := (sfind s.dramSide (a / 64)).getD (blockCrc a b)
  let got := flips.foldl (fun x n => if n < 512 then x else x ^^^ 2 ^ (n % 16)) side
  blockCrc a (flipBits b (flips.filter fun n => decide (n < 512))) != got

/-- The flips in data word w of a firmware block and its code byte (R803). -/
def inWord (w n : Nat) : Bool := n / 64 == w || (n / 64 == 7 && n / 8 % 8 == w)

/-- SEC-DED of a firmware block as it is read (R812): the words with a single-bit error, which it corrects, whether a word has more, and
the flips that remain. -/
def secDed (flips : List Nat) : Nat × Bool × List Nat :=
  let n (w : Nat) : Nat := (flips.filter fun i => decide (i < 512) && inWord w i).length
  let one := (List.range 7).filter fun w => n w == 1
  (one.length, (List.range 7).any fun w => decide (n w ≥ 2), flips.filter fun i => !(decide (i < 512) && one.any fun w => inWord w i))

/-- One block of a MEM_READ has been read, with some bits flipped; the last completes it. -/
def State.memDone (s : State) (ch : Nat) (bad : Bool) (a : Nat) (flips : List Nat) : State :=
  match (s.chan ch).busy with
  | some (r, .mem left b out) =>
    let first := r.w 0 + 4294967296 * r.w 1
    let out := flipBits out (flips.filterMap fun n => if n < 512 && first ≤ a + n / 8 then some (n + 8 * a - 8 * first) else none)
    if left ≤ 1 then s.completeWait ch 0 (b2n (b || bad)) out
    else s.setChan ch { s.chan ch with busy := some (r, .mem (left - 1) (b || bad) out) }
  | _ => s

/-- The flips that remain in the reads of a block, the first and its re-reads, once SEC-DED has corrected them in the firmware region. -/
def readsOf (r : DramReq) (reads : List (List Nat)) : List (List Nat) :=
  (List.range 4).map fun j => let l := reads.getD j []; if r.cls = 0 then (secDed l).2.2 else l

/-- The reads in a row that mismatch the CRC, four at most. -/
def State.badReads (s : State) (r : DramReq) (l : List (List Nat)) : Nat := (l.takeWhile (s.readBad r.addr)).length

/-- The checks of a read: those of its reads in a row, the first and its re-reads, that mismatch the CRC (R813). -/
def State.dramCheck (s : State) (k : Nat) (r : DramReq) (reads : List (List Nat)) : State :=
  if r.write then s else
  let l := readsOf r reads
  let n := s.badReads r l
  let bad := decide (n ≥ 4)
  let s := if n = 0 then s else if bad then (s.bump .DRAM_CRC_FAIL k).raise 32 else s.bump .DRAM_CRC_RETRY k
  let s := if bad && r.cls = 3 && r.own.isNone then s.truncAt r.addr else s
  match r.own with
  | some ch => s.memDone ch bad r.addr (l.getD (min n 3) [])
  | none => s

/-- SEC-DED of a firmware block, at each of its reads (R812): corrected single-bit errors are counted, a double-bit one raises line 33. -/
def State.dramEcc (s : State) (k : Nat) (r : DramReq) (reads : List (List Nat)) : State :=
  if r.cls ≠ 0 || r.write then s else
  (reads.take (min 4 (1 + s.badReads r (readsOf r reads)))).foldl (fun (s : State) l =>
    let s := s.add .DRAM_SECDED_CORR k (secDed l).1
    if (secDed l).2.1 then s.raise 33 else s) s

/-- Requests of the management cores for the firmware region reach stack 0 (R803, R804). -/
def State.coreReqs (s : State) (k : Nat) (l : List (Nat × Bool)) : State :=
  if k ≠ 0 || !s.ready 2 then s else l.foldl (fun (s : State) e => s.dramAsk 0 e.2 (e.1 % 1073741824) 1 none) s

/-- DRAM_REQUEST (R806): the controller of a stack serves the request it chooses; none during a calibration pause. first and again: the bits
that are flipped in the first read of the block and in each re-read. -/
def execDramRequest (dt : Nat) (stack : Fin 2) (cores : List (Nat × Bool)) (first : List Nat) (again : List (List Nat)) (s : State) : Out :=
  let reads := first :: again
  let s := ((s.advance dt).coreReqs stack cores).dramPromote stack
  let c := sget s.dramCh {} stack
  if !bit (s.reg .DRAM_STAT stack 0) 0 || bit (s.reg .DRAM_STAT stack 0) 1 || s.now < c.calEnd then finish s else
  match c.choose with
  | none => finish s
  | some i =>
    match c.reqs[i]? with
    | none => finish s
    | some r =>
      let hit := c.hit r
      let s := { s with dramCh := sset s.dramCh stack ({ c with reqs := c.reqs.eraseIdx i }.after r s.now) }
      let s := (s.bump .DRAM_REQ (stack * 4 + r.cls)).perfEv 12 1 stack 0 r.cls 0 0
      let s := if hit then s.perfEv 13 1 stack 0 r.cls 0 0 else s
      finish ((s.dramEcc stack r reads).dramCheck stack r reads)

/-- DRAM_CALIBRATION (R810): once a second, with a pause of at most 1 µs. -/
def execDramCalibration (dt : Nat) (stack : Fin 2) (s : State) : Out :=
  let s := s.advance dt
  let c := sget s.dramCh {} stack
  if !bit (s.reg .DRAM_STAT stack 0) 0 || bit (s.reg .DRAM_STAT stack 0) 1 || s.now < c.calAt + 1000000000 then finish s else
  let (v, s) := s.fresh
  finish { s with dramCh := sset s.dramCh stack { c with calAt := s.now, calEnd := s.now + v % 1001 } }

/-- DRAM_ROW_IDLE_CLOSE (R808). -/
def execDramRowIdleClose (dt : Nat) (stack : Fin 2) (row : Nat) (s : State) : Out :=
  let s := s.advance dt
  let c := sget s.dramCh {} stack
  match sfind c.rows row with
  | none => finish s
  | some t => if s.now < t + 1000 then finish s else finish { s with dramCh := sset s.dramCh stack { c with rows := sdel c.rows row } }

/-- CDC_FLUSH (R799): the live side of a crossing flushes it; counted, and a performance event. -/
def execCdcFlush (dt : Nat) (s : State) : Out := finish (((s.advance dt).bump .CDC_FLUSH 0).perfEv 15 1 0 0 0 0 0)

end Sys2Proof.Machine
end

