-- ==== Sys2Proof/Machine/Collector.lean ====
section
/-! DEFINITION. The rows of the fault collector, the watchdog, the journal and the interrupt controller (chapter 18). -/
namespace Sys2Proof.Machine

/-! ## Lines and FAULT_WORD (R761 to R764) -/

/-- Lines the device's own rules raise, and those never raised (Table 18-1): their causes have rows of their own. -/
def ownLine (i : Nat) : Bool := (4 ≤ i && i < 8) || (16 ≤ i && i < 28) || i ≥ 39

/-- FAULT_LINE_LATCH (R761): the condition of a line arises, or, where stays is set, persists from now on. A counter pair in error
reads as zero from then on (R817), and a TCAM row whose shadow is in error takes part in no search (R233): at_ names the pair or the row. -/
def execFaultLineLatch (dt : Nat) (i : Fin 64) (stays : Bool) (at_ : Nat) (s : State) : Out :=
  let s := s.advance dt
  if ownLine i then finish s else
  let s := if i.val = 36 then { s with pairs := sdel s.pairs at_, pairBad := ins s.pairBad at_ } else s
  let s := if 8 ≤ i.val && i.val < 12 then s.shadowBad (i - 8) (at_ % 8192) else s
  finish (State.raise { s with flt := { s.flt with cond := mark s.flt.cond i stays } } i)

/-- Bits of FAULT_WORD are cleared (R763): each line's source and event line go low, and its WATCH timer stops unless its condition
sets the bit again in the next cycle. -/
def State.faultClear (s : State) (w v : Nat) : State :=
  let gone := s.reg .FAULT_WORD 0 w &&& v
  let s := s.setReg .FAULT_WORD 0 w (s.reg .FAULT_WORD 0 w - gone)
  ((List.range 32).filter (bit gone)).foldl (fun s i =>
    let l := 32 * w + i
    let s := (s.irqSignal (64 + l) false).evtLine (32 + l) false
    if s.flt.cond.contains l then s.raise l
    else { s with flt := { s.flt with watch := sdel s.flt.watch l } }) s

/-- FAULT_WORD_CLEAR (R763). -/
def execFaultWordClear (dt : Nat) (w : Fin 2) (v : Word) (s : State) : Out := finish ((s.advance dt).faultClear w v.toNat)

/-- COLLECTOR_MISMATCH (R764): from here on no WATCH or FENCE applies. -/
def execCollectorMismatch (dt : Nat) (s : State) : Out :=
  let s := s.advance dt
  if !s.pwr.on then finish s
  else finish (State.safeEnter { s with flt := { s.flt with copyOk := false } } .collector 0)

/-! ## WATCH (R768, R769) -/

/-- Reads that a reset of the DRAM controllers has lost complete with DOMAIN_RESET (R699, R799). -/
def State.failReads (s : State) : State :=
  s.mbx.foldl (fun s e => match e.2.busy with
    | some (_, .mem _ _ _) => s.completeWait e.1 6 0 []
    | _ => s) s

/-- The escalation is recorded, reported and entered in the journal. -/
def State.escalate (s : State) (i stage : Nat) : State :=
  let s := (s.setFld F.FLT_ESC.LINE 0 i).setFld F.FLT_ESC.STAGE 0 stage
  let s := { s with flt := { s.flt with escAt := s.now } }
  (s.journal1 2 i).pulse 5

/-- The device reset of a WATCH escalation: a warm reset with cause 5. -/
def State.watchReset (s : State) (i : Nat) : State := State.doReset (s.escalate i 2) false 5 false

/-- A WATCH timer has expired with its bit set. -/
def State.watchStep (s : State) (i : Nat) : State :=
  let stage := if s.escLine = i then s.escStage else 0
  if stage = 1 then s.watchReset i
  else if stage ≥ 2 then s
  else match s.blockReset i with
    | none => s.watchReset i
    | some t => State.failReads { t.escalate i 1 with flt := { (t.escalate i 1).flt with watch := sset t.flt.watch i (t.now + t.watchNs i) } }

/-- WATCH_EXPIRY (R768): nothing without a timer that has run out, in the safe state or with differing copies. -/
def execWatchExpiry (dt : Nat) (i : Fin 64) (s : State) : Out :=
  let s := s.advance dt
  match sfind s.flt.watch i with
  | none => finish s
  | some t =>
    if s.now < t then finish s else
    let s := { s with flt := { s.flt with watch := sdel s.flt.watch i } }
    if !bit s.faultWord i || s.flt.safe || !s.flt.copyOk then finish s else finish (s.watchStep i)

/-- ESCALATION_CLEAR (R769): 60 s without a latch of the recorded line. -/
def execEscalationClear (dt : Nat) (s : State) : Out :=
  let s := s.advance dt
  if s.escStage = 0 || s.now < sget s.flt.lastAt 0 s.escLine + 60000000000 then finish s
  else finish (s.setFld F.FLT_ESC.STAGE 0 0)

/-! ## The watchdog (R770, R771) -/

/-- The period in ns: 30 s from STAGE 1 until MGMT, then PERIOD_MS. -/
def State.wdogNs (s : State) : Nat :=
  if s.flt.wdogTop then 30000000000 else 1000000 * max 10 (s.fld F.FLT_WDOG.PERIOD_MS 0)

/-- The watchdog starts again. -/
def State.wdogRestart (s : State) (top : Bool) : State :=
  { s with flt := { s.flt with
      wdogAt := some s.now
      wdogTop := top
      warned := false } }

/-- A write of KICK: only 0x4B49 restarts a watchdog that runs. -/
def State.kickWrite (s : State) (v : Nat) : State :=
  if v ≠ 0x4B49 || s.flt.wdogAt.isNone then s else s.wdogRestart s.flt.wdogTop

/-- KICK (R770). -/
def execKick (dt : Nat) (v : BitVec 16) (s : State) : Out := finish ((s.advance dt).kickWrite v.toNat)

/-- WDOG_WARN (R771): half a period without a kick. -/
def execWdogWarn (dt : Nat) (s : State) : Out :=
  let s := s.advance dt
  match s.flt.wdogAt with
  | none => finish s
  | some t =>
    if s.flt.warned || s.now < t + s.wdogNs / 2 then finish s
    else finish (State.pulse { s with flt := { s.flt with warned := true } } 7)

/-- WATCHDOG (R771): line 40 latches; a warm reset with cause 6, or the safe state at the third in a row. -/
def execWatchdog (dt : Nat) (s : State) : Out :=
  let s := s.advance dt
  match s.flt.wdogAt with
  | none => finish s
  | some t =>
    if s.now < t + s.wdogNs then finish s else
    let s := (s.wdogRestart s.flt.wdogTop).latch 40
    let n := min 3 (s.fld F.FLT_ESC.WDOG_RESETS 0 + 1)
    let s := s.setFld F.FLT_ESC.WDOG_RESETS 0 n
    if n ≥ 3 then finish (s.safeEnter .watchdog 0) else finish (s.doReset false 6 false)

/-! ## The safe state and the journal -/

/-- SAFE_ENTRY (R772, R773): a cause of Table 18-5 arises; the line is recorded for causes 1 and 2. -/
def execSafeEntry (dt : Nat) (c : SafeCause) (s : State) : Out :=
  let s := s.advance dt
  if !s.pwr.on then finish s
  else finish (s.safeEnter c (match c with | .escalation => s.escLine | .thermal => 39 | _ => 0))

/-- JOURNAL_SIGN_TIMER (R779): 60 s during which entries were written. -/
def execJournalSignTimer (dt : Nat) (s : State) : Out :=
  let s := s.advance dt
  if !s.journal.fresh || s.now < s.journal.signAt + 60000000000 then finish s else finish s.jSign

/-- JOURNAL_ENTRY_WRITE (R776, R778, R780). -/
def execJournalEntryWrite (dt : Nat) (s : State) : Out := finish (s.advance dt).jDrain

/-- JOURNAL_READ (R781): whole entries from a SEQ on, or from the oldest retained one; the count in RESULT. -/
def execJournalRead (dt : Nat) (r : Req) (s : State) : Out :=
  runCmd { op := 0xF1, role := some 0, read := true } dt r s fun s =>
    let q := r.w 0 + 4294967296 * r.w 1
    let l := (s.journal.newest.filter fun e => decide (e.seq ≥ q)).reverse
    if l.isEmpty then fail Status.badParam s else
    let take := l.foldl (fun (x : Nat × Bytes × Bool) e =>
      let b := jSlots e
      if x.2.2 || x.2.1.length + b.length > r.outLen then (x.1, x.2.1, true) else (x.1 + 1, x.2.1 ++ b, false)) (0, [], false)
    .done 0 s take.1 take.2.1

/-! ## The interrupt controller (R785 to R791) -/

/-- Sources with a signal (Table 18-8). -/
def irqUsed (i : Nat) : Bool :=
  (i ≤ 10 && i != 6 && i != 9) || (32 ≤ i && i ≤ 55) || (64 ≤ i && i < 205) || (208 ≤ i && i < 240) || (256 ≤ i && i < 320)

/-- SOURCE_EVENT (R783, R785): the signal of a source takes a level; a reserved source is never raised. -/
def execSourceEvent (dt : Nat) (i : Fin 1024) (level : Bool) (s : State) : Out :=
  let s := s.advance dt
  if irqUsed i then finish (s.irqSignal i level) else finish s

/-- The deliverable source of a target with the highest PRIO, the lowest number among equals (R787). -/
def State.irqBest (s : State) (t : Nat) : Option Nat :=
  (s.irqCands.filter (s.irqDeliverable t)).foldl (fun b i =>
    match b with
    | none => some i
    | some j => if s.irqPrio i > s.irqPrio j || (s.irqPrio i == s.irqPrio j && i < j) then some i else some j) none

/-- A read of CLAIM (R787): the value read, SOURCE and VALID. -/
def State.irqClaim (s : State) (t : Nat) : Nat × State :=
  match s.irqBest t with
  | none => (0, s)
  | some i =>
    let s := { s with irq := { s.irq with
        pend := del s.irq.pend i
        stack := sset s.irq.stack t ((i, s.irqPrio i) :: sget s.irq.stack [] t) } }
    (i + 2147483648, (s.perfEv 16 1 0 0 0 0 0).irqSettle)

/-- CLAIM. -/
def execIrqClaim (dt : Nat) (t : Fin 5) (s : State) : Out :=
  let (v, s) := (s.advance dt).irqClaim t
  finish { s with rd := [w32 v] }

/-- A write of COMPLETE (R788, R790). -/
def State.irqComplete (s : State) (t i : Nat) : State :=
  let l := sget s.irq.stack [] t
  if l.any fun a => a.1 == i then
    State.irqSettle { s with irq := { s.irq with
      stack := sput s.irq.stack [] t (l.filter fun a => a.1 != i)
      fall := del s.irq.fall i } }
  else s.bump .IRQ_BAD_COMPLETE t

/-- COMPLETE. -/
def execIrqComplete (dt : Nat) (t : Fin 5) (i : BitVec 10) (s : State) : Out := finish ((s.advance dt).irqComplete t i.toNat)

/-- COALESCE_RELEASE (R789): TIME_US after the first held event. -/
def execCoalesceRelease (dt : Nat) (g : Fin 64) (s : State) : Out :=
  let s := s.advance dt
  match sfind s.irq.first g with
  | none => finish s
  | some t =>
    let u := s.fld F.IRQ_GROUP.TIME_US g
    if s.now < t + 1000 * (if u = 0 then 1 else u) then finish s else finish (s.irqRelease g).irqSettle

/-- STALE_DELIVERY (R790): a source without WAKE has waited STALE_MS for its sleeping target. -/
def execStaleDelivery (dt : Nat) (i : Fin 1024) (s : State) : Out :=
  let s := s.advance dt
  let t := s.irqTarget0 i
  let ms := s.fld F.IRQ_TGT.STALE_MS t
  match sfind s.irq.stale i with
  | none => finish s
  | some a =>
    if ms = 0 || !s.irq.asleep.contains t || s.now < a + 1000000 * ms then finish s
    else finish (State.irqSettle { s with irq := { s.irq with fall := ins s.irq.fall i } })

/-- TARGET_WAKE (R790): the held sources of a target become deliverable. -/
def execTargetWake (dt : Nat) (t : Fin 5) (s : State) : Out :=
  let s := s.advance dt
  finish (State.irqSettle { s with irq := { s.irq with
    asleep := del s.irq.asleep t
    wakes := del s.irq.wakes t } })

end Sys2Proof.Machine
end

