-- ==== Sys2Proof/Machine/Events.lean ====
section
/-! DEFINITION. The event engine: conditions, passes, actions, forwarding switches, and the time points that fire (chapter 13, R480 to
R483). -/
namespace Sys2Proof.Machine

/-! ## Compared values (R537, R538) -/

/-- A float32 in units of 2^-149, exactly; infinities lie beyond every number, a NaN has no value. -/
def f32Int (v : Nat) : Option Int :=
  if bits v 0 31 = 2139095040 then some (if bit v 31 then -(2 ^ 300) else 2 ^ 300) else f32Val v

/-- How a condition reads a value: float32, signed or unsigned. -/
inductive ValKind where
  | float
  | signed
  | plain
  deriving DecidableEq, Repr

/-- Kind of a condition's value by TYPE, and by the tag of a GOOSE member. -/
def valKind (ty tag : Nat) : ValKind :=
  if ty = 1 then .float else if ty = 2 then .signed
  else if ty = 3 then (if tag = 0x87 then .float else .signed) else .plain

/-- A 32-bit value as an exact number. -/
def ValKind.num (k : ValKind) (v : Nat) : Option Int :=
  match k with
  | .float => f32Int v
  | .signed => some (sgn v 32)
  | .plain => some (v % 4294967296 : Nat)

/-- a exceeds b; a value that is no number exceeds nothing. -/
def above (a b : Option Int) : Bool := match a, b with | some x, some y => decide (x > y) | _, _ => false

/-- The comparison of a condition, true so far or not (R538). -/
def State.compare (s : State) (c : Nat) (e : EvIn) (was : Bool) (prev : Option Nat) : Bool :=
  let ty := s.fld F.EVT_COND.TYPE c
  let k := valKind ty e.tag
  let v := e.value % 4294967296
  let num := k.num v
  let num := if s.flag F.EVT_COND.ABS c && (ty == 1 || ty == 2) then num.map fun x => (x.natAbs : Int) else num
  let th := s.fld F.EVT_COND.THRESH c
  let hm := s.fld F.EVT_COND.HYST_MASK c
  let t := k.num th
  let h := if ty = 1 then f32Int hm else if ty = 2 then some (hm : Int) else some 0
  let mask := if ty = 3 || ty = 5 || ty = 7 then hm else 4294967295
  let sub := match t, h with | some x, some y => some (x - y) | _, _ => none
  let add := match t, h with | some x, some y => some (x + y) | _, _ => none
  let same := if ty = 1 || ty = 2 then (match num, t with | some x, some y => decide (x = y) | _, _ => false)
    else (v &&& mask) == (th &&& mask)
  match s.fld F.EVT_COND.OP c with
  | 0 => if was then !(above sub num || (sub.isSome && num == sub)) && num.isSome else above num t
  | 1 => if was then !(above num add || (add.isSome && num == add)) && num.isSome else above t num
  | 3 => !same
  | 4 => (v &&& mask) != 0
  | 5 => (v &&& mask) == mask
  | 6 => (prev.map fun p => p != v).getD false
  | _ => same

/-- The input is invalid for the condition (R539). -/
def State.inputBad (s : State) (c : Nat) (e : EvIn) : Bool :=
  !e.valid ||
  (match e.src with
   | .goose sub _ => (sget s.subs {} sub).state != 1
   | .input _ => (s.fld F.EVT_COND.HYST_MASK c &&& (4294967295 - e.vmask % 4294967296)) != 0
   | _ => false)

/-- A condition takes an input: its raw result and what it keeps of the input (R537 to R539). -/
def State.evalInput (s : State) (c : Nat) (e : EvIn) : Bool × Cond :=
  let x := s.cond c
  if s.inputBad c e then (false, { x with noData := false, invalid := true, cmp := false, cnt := 0 }) else
  let ok := s.compare c e x.cmp x.prev
  let n := if ok then x.cnt + 1 else 0
  let cmp := if s.fld F.EVT_COND.TYPE c = 2 && !x.cmp then ok && decide (n > s.fld F.EVT_COND.COUNT_M1 c) else ok
  (cmp != s.flag F.EVT_COND.INVERT c,
    { x with noData := false, invalid := false, cmp := cmp, cnt := min n 16, prev := some (e.value % 4294967296) })

/-! ## LOGIC (R540) -/

/-- Operands of a LOGIC condition with their inversion. -/
def State.operands (s : State) (c : Nat) : List (Nat × Bool) :=
  let a := s.fld F.EVT_COND.SRC c
  let b := s.fld F.EVT_COND.THRESH c
  let m := s.fld F.EVT_COND.HYST_MASK c
  ([(bits a 0 11, bit m 0), (bits a 16 11, bit m 1), (bits b 0 11, bit m 2), (bits b 16 11, bit m 3)]).take (bits m 9 2 + 1)

/-- The raw result of a LOGIC condition: lower operands as they are in this pass, the others as they were before it. -/
def State.evalLogic (s : State) (pre : Sparse Cond) (c : Nat) : Bool :=
  let m := s.fld F.EVT_COND.HYST_MASK c
  let l := (s.operands c).map fun o => (if o.1 < c then (s.cond o.1).state else (sget pre {} o.1).state) != o.2
  let n := (l.filter id).length
  let v := match bits m 4 2 with
    | 0 => n == l.length
    | 1 => n != 0
    | 2 => decide (n ≥ bits m 6 3)
    | _ => n % 2 == 1
  v != s.flag F.EVT_COND.INVERT c

/-- LOGIC conditions. -/
def State.logics (s : State) : List Nat := s.condList.filter fun c => s.fld F.EVT_COND.TYPE c == 8

/-- LOGIC conditions that depend on conditions of a set, through any chain of operands. -/
def State.dependents (s : State) : Nat → List Nat → List Nat
  | 0, _ => []
  | n + 1, l =>
    let more := s.logics.filter fun c => !l.contains c && (s.operands c).any fun o => l.contains o.1
    if more.isEmpty then [] else State.dependents s n (l ++ more) ++ more

/-! ## Timers and edges (R541, R542) -/

/-- EVT_COND_STAT. -/
def State.condStat (s : State) (c : Nat) : Nat :=
  let x := s.cond c
  b2n x.state + 2 * b2n x.raw + 4 * b2n x.invalid + 8 * b2n x.latched + 16 * b2n x.noData

/-- An edge of a condition. -/
structure Edge where
  cond   : Nat
  rising : Bool
  deriving DecidableEq, Repr

/-- A raw result drives a condition through its timers and latch. -/
def State.drive (x : List Edge × State) (c : Nat) (raw : Bool) (y : Cond) : List Edge × State :=
  let (l, s) := x
  let y := if raw = y.raw then y else { y with raw := raw, rawAt := s.now, timer := none }
  let latch := s.flag F.EVT_COND.LATCH c
  let want := raw || (latch && y.latched)
  let put (y : Cond) : State := { s with conds := sput s.conds {} c y }
  if want = y.state then (l, put { y with timer := none }) else
  let change := s.fld F.EVT_COND.OP c == 6 && s.fld F.EVT_COND.TYPE c != 8
  let d := if want then s.fld F.EVT_COND.PU_US c else if change then 0 else s.fld F.EVT_COND.DO_US c
  let at_ := y.rawAt + 1000 * d
  if at_ ≤ s.now then
    (l ++ [Edge.mk c want], put { y with state := want, timer := none, latched := y.latched || (want && latch) })
  else (l, put { y with timer := some at_ })

/-! ## Actions (R548 to R551) -/

/-- Actions whose words differ from reset. -/
def State.actList (s : State) : List Nat := ((s.written .EVT_ACT).map (·.1)).foldl ins []

/-- An action that runs: its number and its edge. -/
structure ActRun where
  act  : Nat
  edge : Edge
  deriving DecidableEq, Repr

/-- The edge matches the action. -/
def State.actMatches (s : State) (a : Nat) (e : Edge) : Bool :=
  let k := s.fld F.EVT_ACT.KIND a
  k != 0 && k != 7 && s.fld F.EVT_ACT.COND a == e.cond &&
  ((k == 2 && bits (s.fld F.EVT_ACT.ARG a) 5 2 == 3) ||
   (match s.fld F.EVT_ACT.EDGE a with | 1 => !e.rising | 2 => true | _ => e.rising))

/-- Actions of a pass in ascending index, MIN_GAP applied. -/
def State.triggered (s : State) (es : List Edge) : List ActRun × State :=
  (s.actList.flatMap fun a => (es.filter (s.actMatches a)).map fun e => ActRun.mk a e).foldl (fun (x : List ActRun × State) r =>
    let (l, s) := x
    match sfind s.acts r.act with
    | some t =>
      if s.now < t + 1000 * s.fld F.EVT_ACT.MIN_GAP_US r.act then (l, s.bump .EVT_ACT_GAP r.act)
      else (l ++ [r], { s with acts := sset s.acts r.act s.now })
    | none => (l ++ [r], { s with acts := sset s.acts r.act s.now })) ([], s)

/-- Templates that take a new state in a pass, with the angle frame 0 waits for: those whose AUTO slots follow a changed condition, then
those of GOOSE actions, the highest index deciding. -/
def State.newStates (s : State) (es : List Edge) (rs : List ActRun) : Sparse (Option Nat) :=
  let auto_ := s.tmplList.filter fun t => (List.range 8).any fun j =>
    let x := s.slot t j
    x.auto_ && x.len != 0 && es.any fun e => e.cond == x.cond
  (rs.filter fun r => s.fld F.EVT_ACT.KIND r.act == 1).foldl (fun m r =>
    sset m (s.fld F.EVT_ACT.ARG r.act % 256)
      (if s.flag F.EVT_ACT.ALIGN r.act then some (s.fld F.EVT_ACT.ARG2 r.act) else none))
    (auto_.foldl (fun m t => sset m t none) [])

/-- Recorder groups triggered in a pass, reasons folded. -/
def State.recReasons (s : State) (rs : List ActRun) : Sparse Nat :=
  (rs.filter fun r => s.fld F.EVT_ACT.KIND r.act == 3).foldl (fun m r =>
    let v := s.fld F.EVT_ACT.ARG r.act
    smod m 0 (v % 64) fun x => x ||| 2 ^ bits v 8 5) []

/-- Switches asked for in a pass: of each set the last direction. -/
def State.switches (s : State) (rs : List ActRun) : List (Nat × Bool) :=
  (rs.filter fun r => s.fld F.EVT_ACT.KIND r.act == 4).foldl (fun l r =>
    let v := s.fld F.EVT_ACT.ARG r.act
    (l.filter fun x => x.1 != v % 64) ++ [(v % 64, bit v 8)]) []

/-- The action that decides each pin in a pass: the one of the highest index (R549). -/
def State.pinActs (s : State) (rs : List ActRun) : Sparse ActRun :=
  (rs.filter fun r => s.fld F.EVT_ACT.KIND r.act == 2).foldl (fun m r => sset m (s.fld F.EVT_ACT.ARG r.act % 32) r) []

/-- A GPIO action drives its pin. -/
def State.pinAct (s : State) (r : ActRun) : State :=
  let v := s.fld F.EVT_ACT.ARG r.act
  s.gpioAct (v % 32) (bits v 5 2) (s.fld F.EVT_ACT.ARG2 r.act % 16777216) r.edge.rising

/-- IRQ and log effects of one action. -/
def State.actOne (ptp frc : Nat) (s : State) (r : ActRun) : State :=
  let v := s.fld F.EVT_ACT.ARG r.act
  let k := s.fld F.EVT_ACT.KIND r.act
  let s := if k = 5 then s.pulse (256 + v % 64) else s
  if k = 6 || s.flag F.EVT_ACT.LOG r.act then
    s.logEvt { act := r.act, cond := r.edge.cond, rising := r.edge.rising, ptp := ptp, frc := frc }
  else s

/-- The actions that the edges of a pass trigger, at the instant of the edges. -/
def State.runActions (s : State) (es : List Edge) (ptp frc : Nat) : State :=
  if es.isEmpty then s else
  let (rs, s) := s.triggered es
  let s := rs.foldl (State.actOne ptp frc) ((s.pinActs rs).foldl (fun s e => s.pinAct e.2) s)
  let s := (s.newStates es rs).foldl (fun s e => s.newState e.1 ptp e.2) s
  let s := (s.recReasons rs).foldl (fun s e => s.recTrigger e.1 ptp e.2) s
  { s with fswQ := s.fswQ ++ s.switches rs }

/-! ## Passes (R544) -/

/-- Conditions driven by a pass, then the LOGIC conditions that depend on them, then the actions. -/
def State.pass (s : State) (pre : Sparse Cond) (l : List (Nat × Bool × Cond)) (ptp frc : Nat) : State :=
  let x := l.foldl (fun x e => State.drive x e.1 e.2.1 e.2.2) (([] : List Edge), s)
  let deps := ((s.dependents s.logics.length (l.map (·.1))).foldl ins [])
  let x := deps.foldl (fun (x : List Edge × State) c =>
    State.drive x c (x.2.evalLogic pre c) { x.2.cond c with noData := false }) x
  x.2.runActions x.1 ptp frc

/-- A pass over an input; a CHANGE condition that it turned true turns false again after it (R538). -/
def State.inputPass (s : State) (e : EvIn) : State :=
  let cs := s.condList.filter (s.evNames e.src)
  let t := s.pass s.conds (cs.map fun c => (c, s.evalInput c e)) e.ptp e.frc
  let ch := cs.filter fun c => t.fld F.EVT_COND.OP c == 6 && (t.cond c).cmp
  if ch.isEmpty then t else
  t.pass t.conds (ch.map fun c => (c, t.flag F.EVT_COND.INVERT c, { t.cond c with cmp := false })) e.ptp e.frc

/-- EVT_PASS (R544): the oldest queued input. -/
def execEvtPass (dt : Nat) (s : State) : Out :=
  let s := s.advance dt
  match s.evtQ with
  | [] => finish s
  | e :: q => if !s.ready 10 then finish s else finish (State.inputPass { s with evtQ := q } e)

/-- EVT_TIMER_EXPIRY (R541): an expiry runs a pass of its own. -/
def execEvtTimerExpiry (dt : Nat) (c : Fin 2048) (s : State) : Out :=
  let s := s.advance dt
  match (s.cond c).timer with
  | none => finish s
  | some t =>
    if s.now < t || !s.ready 10 then finish s
    else finish (s.pass s.conds [(c.val, (s.cond c).raw, s.cond c)] (s.ptp - (s.now - t)) (s.frc - (s.now - t)))

/-- SUB_LOSS (R535). -/
def execSubLoss (dt : Nat) (i : Fin 1024) (s : State) : Out :=
  let s := s.advance dt
  let x := sget s.subs {} i
  if x.state = 1 && s.now ≥ x.last + 1000000 * max 1 (s.fld F.EVT_SUB.HOLD_MS i) then finish (s.setSub i 2) else finish s

/-! ## Host commands -/

/-- EVT_RESET_LATCH (R715): the latch of condition ARG [10:0]. -/
def execEvtResetLatch (dt : Nat) (r : Req) (s : State) : Out :=
  runCmd { op := 0xD1, role := some 1, fn := some 10 } dt r s fun s =>
    let c := r.arg.toNat
    if c ≥ 2048 then fail Status.badParam s else
    let y := s.cond c
    good (s.pass s.conds [(c, y.raw, { y with latched := false })] s.ptp s.frc)

/-- An entry of the event log as EVT_LOG_READ returns it (DESIGN CHOICE, log 129: the spec gives no layout). -/
def EvLog.words (e : EvLog) : List Word :=
  [w32 (e.act + 65536 * e.cond + 134217728 * b2n e.rising), w32 e.note, w32 (ptpNs e.ptp), w32 (ptpSec e.ptp), w32 (ptpSec e.ptp / 4294967296),
    w32 e.frc, w32 (e.frc / 4294967296), 0]

/-- EVT_LOG_READ (R551): as many of the oldest entries as OUT_LEN takes, with their number in RESULT. -/
def execEvtLogRead (dt : Nat) (r : Req) (s : State) : Out :=
  runCmd { op := 0xD2, role := some 0, read := true } dt r s fun s =>
    let l := s.evtLog.take (r.outLen / 32)
    .done 0 { s with evtLog := s.evtLog.drop l.length } l.length (wordsBytes (l.flatMap EvLog.words))

/-! ## Forwarding switches (R565 to R568) -/

/-- Operation k of set x: table, key and RESULT for a direction; none where it is not in use. -/
def State.fswOp (s : State) (x k : Nat) (on : Bool) : Option (Nat × Nat × Nat) :=
  let w (j : Nat) : Nat := s.reg .EVT_FSW (x * 8 + k) j
  if !bit (w 5) 8 then none else
  let key := w 0 + 4294967296 * (w 1 + 4294967296 * (w 2 + 4294967296 * (w 3 + 4294967296 * w 4)))
  some (w 5 % 256, key, if on then w 6 + 4294967296 * (w 7 % 256) else w 8 + 4294967296 * (w 9 % 256))

/-- Operations of a switch that are skipped, their key not visible at CUR + 1, are counted (R566). -/
def State.fswMissed (s : State) (x : Nat) (on : Bool) : State :=
  ((List.range 8).filter fun k => match s.fswOp x k on with
    | none => false
    | some (t, key, _) => (s.exmHits t (s.descAt t s.curNext) key s.curNext).isEmpty).foldl (fun s _ => s.bump .EVT_FSW_MISS x) s

/-- The writes of a switch: the state with them staged, or none where a REPLACE finds no slot. -/
def State.fswStage (s : State) (x : Nat) (on : Bool) : Option State :=
  (List.range 8).foldl (fun (u : Option State) k => u.bind fun s =>
    match s.fswOp x k on with
    | none => some s
    | some (t, key, result) =>
      let d := s.descAt t s.curNext
      match s.exmHits t d key s.curNext with
      | [] => some s
      | (_, e) :: _ =>
        match s.exmWrite t d 1 false e.static_ key result with
        | .ok _ s => some s
        | .refused _ => none
        | .noSlot => none) (some s)

/-- FSW_COMMIT: the oldest switch asked for. It waits while staged writes of a transaction are not committed (R567). A REPLACE without a slot
fails the whole switch and raises REHASH_NEEDED (R183, R566). -/
def execFswCommit (dt : Nat) (s : State) : Out :=
  let s := s.advance dt
  match s.fswQ with
  | [] => finish s
  | (x, on) :: q =>
    if s.flag F.EVT_FSW_STAT.ON x = on then finish { s with fswQ := q }
    else if (s.txn.isSome && s.stagedAny) || !s.commitFree then finish s
    else
    let s := s.fswMissed x on
    match s.fswStage x on with
    | none => finish (State.logEvt { (s.bump .EVT_FSW_FAIL x).pulse 54 with fswQ := q }
        { act := x, cond := 0, rising := on, ptp := s.ptp, frc := s.frc, note := 1 })
    | some t => finish (State.setFld { t.commitGen with fswQ := q } F.EVT_FSW_STAT.ON x (b2n on))

/-! ## Time points (R481 to R483) -/

/-- What a point drives when it fires. -/
def State.pointFires (s : State) (p : Point) : State :=
  match p.kind with
  | .pmu m => { s with pmuDue := sset s.pmuDue m (sget s.pmuDue [] m ++ [s.ptp]) }
  | .goose t =>
    let s := s.frameDue t
    s.setPoint { grid := true, at_ := (p.at_ + s.gInterval t ((s.tmpl t).k + 1) * 65536) % 18446744073709551616, kind := .goose t }
  | .align t => s.frame0 t p.at_
  | .recEnd g =>
    let l := s.records g
    match l.getLast? with
    | none => s
    | some r => if r.isOpen then s.setRecords g (l.dropLast ++ [{ r with stop := s.ptp, grid := false }]) else s

/-- TIME_POINT_FIRE: point i is reached, or was passed. -/
def execTimePointFire (dt : Nat) (i : Nat) (s : State) : Out :=
  let s := s.advance dt
  match s.clock.points[i]? with
  | none => finish s
  | some p => if p.late || p.reachedAt (p.clock s) then finish ((s.takePoint i p).pointFires p) else finish s

end Sys2Proof.Machine
end

