-- ==== Sys2Proof/WellFormed.lean ====
section
/-! DEFINITION. Which commands are well formed: operands inside the ranges their rules give. The meanings are total; they
answer for an ill-formed command too. -/
namespace Sys2Proof
open Machine

/-- A request as a channel can carry it: 16 channels (R680), lengths of at most 4,096 bytes that the payload fills (R683, R684). -/
def Machine.Req.wf (r : Req) : Bool :=
  decide (r.ch < 16) && decide (r.inLen ≤ 4096) && decide (r.outLen ≤ 4096) && r.payload.length == (r.inLen + 3) / 4 &&
  decide (r.tag.length ≤ 16) && decide (r.sid < 65536) && decide (r.txn < 65536) &&
  (r.opcode.all fun o => decide (o < 65536) && !cmdOpcodes.contains o)

/-- The unit's state exists, and the words it has, where a table lays them out. -/
def Machine.Held.wf : Held → Nat → Bool
  | .entry loc, k => decide (loc < 1056768) && decide (k < 8)
  | .row pl n _, k => decide (pl < 4) && decide (n < 8192) && decide (k < 46)
  | .version t i, k => decide (i < t.count) && decide (k < t.words)
  | .buffer b, k => decide (b < 1048576) && decide (k < 64)
  | .node l n, k => decide (l < 4) && decide (n < 1048576) && decide (k < 64)
  | .redundancy i, k => decide (i < 65536) && decide (k < 64)
  | .stream i, k => decide (i < 4096) && decide (k < 65536)
  | .condition c, k => decide (c < 2048) && decide (k < 64)
  | .template t, k => decide (t < 256) && decide (k < 64)
  | .fabric l, k => decide (l < 8) && decide (k < 65536)
  | .coalescing g, k => decide (g < 64) && decide (k < 64)
  | .dramTiming i, k => decide (i < 2) && decide (k < 65536)
  | .clocks, k | .supply, k | .shedStage, k | .collector, k | .journal, k | .crossing, k => decide (k < 65536)

/-- The word exists (R713). -/
def Machine.RegAddr.wf (a : RegAddr) : Bool :=
  match a.held with
  | some h => h.wf a.word
  | none => decide (a.idx < a.reg.count) && decide (a.word < a.reg.words)

/-- A frame at a front-panel port whose first min(L, 512) bytes are there (R72). -/
def Machine.Arrival.wf (a : Arrival) : Bool :=
  decide (a.port < 40) && decide (0 < a.bytes.length) &&
  (if a.long then a.bytes.length == 512 else decide (a.bytes.length ≤ 508) && decide (a.bytes.length + 4 ≤ a.len) && decide (a.len ≤ 512))

/-- A debug access names a word that exists. -/
def Machine.JtagOp.wf : JtagOp → Bool
  | .readReg a => a.wf
  | .writeReg a _ => a.wf
  | .challenge l => l == 1 || l == 2
  | .bypass | .idcode | .sample | .extest | .zeinekTest | .unlock _ _ | .halt => true
  | .readMem _ a => (a.map fun b => b.held.isSome && b.wf).getD true
  | .writeMem _ a _ => (a.map fun b => b.held.isSome && b.wf).getD true

/-- A well-formed command. -/
def Instr.wf : Instr → Bool
  | .mbxNop _ r => r.wf
  | .getInfo _ r => r.wf
  | .txnBegin _ r => r.wf
  | .batchTxnBegin _ r => r.wf
  | .txnCommit _ r => r.wf
  | .txnAbort _ r => r.wf
  | .setLatencyBudget _ r => r.wf
  | .pwrStatus _ r => r.wf
  | .portConfig _ r => r.wf
  | .portCounters _ r => r.wf
  | .counterRead _ r => r.wf
  | .loadRecipe _ r => r.wf
  | .exmTableConfig _ r => r.wf
  | .exmWrite _ r => r.wf
  | .exmSearch _ r => r.wf
  | .tableNext _ r => r.wf
  | .flushByPort _ r => r.wf
  | .lpmWrite _ r => r.wf
  | .lpmSearch _ r => r.wf
  | .tcamWrite _ r => r.wf
  | .tcamRead _ r => r.wf
  | .polConfig _ r => r.wf
  | .qciConfig _ r => r.wf
  | .rwWrite _ r => r.wf
  | .macsecConfig _ r => r.wf
  | .admConfig _ r => r.wf
  | .mcGroupWrite _ r => r.wf
  | .capRingConfig _ r => r.wf
  | .bufUnquarantine _ r => r.wf
  | .schedConfig _ r => r.wf
  | .gclWrite _ r => r.wf
  | .qtelConfig _ r => r.wf
  | .predPairConfig _ r => r.wf
  | .predRcvyConfig _ r => r.wf
  | .timeConfig _ r => r.wf
  | .timeStatusCmd _ r => r.wf
  | .phxStreamConfig _ r => r.wf
  | .phxHarmConfig _ r => r.wf
  | .pmuConfig _ r => r.wf
  | .pmuServer _ r => r.wf
  | .recConfig _ r => r.wf
  | .recTrigger _ r => r.wf
  | .recRelease _ r => r.wf
  | .recRead _ r => r.wf
  | .evtConfig _ r => r.wf
  | .evtResetLatch _ r => r.wf
  | .evtLogRead _ r => r.wf
  | .fabConfig _ r => r.wf
  | .fabStatus _ r => r.wf
  | .faultConfig _ r => r.wf
  | .forceSafe _ r => r.wf
  | .unfence _ r => r.wf
  | .journalRead _ r => r.wf
  | .sessionBegin _ r => r.wf
  | .sessionFinish _ r => r.wf
  | .sessionClose _ r => r.wf
  | .secQuote _ r => r.wf
  | .secCert _ r => r.wf
  | .secExtend _ r => r.wf
  | .operatorEnrol _ r => r.wf
  | .operatorRemove _ r => r.wf
  | .provision _ r => r.wf
  | .transferOwner _ r => r.wf
  | .secLifecycle _ r => r.wf
  | .secDebugChallenge _ r => r.wf
  | .secDebugUnlock _ r => r.wf
  | .fwUpdate _ r => r.wf
  | .fwTrial _ r => r.wf
  | .fwCommit _ r => r.wf
  | .macsecCakInstall _ r => r.wf
  | .gkeyConfig _ r => r.wf
  | .secPolicy _ r => r.wf
  | .secPolicyRead _ r => r.wf
  | .configReadback _ _ r => r.wf
  | .regRead _ a r => a.wf && r.wf
  | .regWrite _ a r => a.wf && r.wf
  | .memRead _ r => (r.unit.map fun b => b.held.isSome && b.wf).getD true && r.wf
  | .memWrite _ r => (r.unit.map fun b => b.held.isSome && b.wf).getD true && r.wf
  | .exmWriteX _ r => r.wf
  | .exmTableConfigX _ r => r.wf
  | .tcamWriteX _ r => r.wf
  | .bufAlloc _ r => r.wf
  | .bufFree _ r => r.wf
  | .registerWrite _ (.firmware r i) k _ => RegAddr.wf { reg := r, idx := i, word := k }
  | .registerWrite _ .bar0 off _ => off % 4 == 0 && decide (off < 1048576)
  | .hdmaTxFrame _ _ t => decide (0 < t.bytes.length) && (t.pipeline.getD 0 < 4)
  | .frameHeadReady _ as => as.all Arrival.wf
  | .p43Inject _ _ b => decide (0 < b.length)
  | .shaperWake _ l n => decide (n < [64, 1024, 65536, 1048576].getD l.val 0)
  | .pfcReceived _ _ _ q => q.length == 8
  | .linkUp _ _ v m => decide (v < 8) && decide (m.fec < 4)
  | .sgmiiSpeedChange _ _ v _ _ _ => decide (1 ≤ v) && decide (v ≤ 3)
  | .gridEstimate _ g => decide (g.angle < 4294967296)
  | .nibenBlockRx _ _ b => b.length == 256
  | .helloMsg _ _ h => decide (h.member < 512) && decide (h.link < 8)
  | .frameMsg _ _ m => decide (m.src < 512) && decide (m.member < 512) && decide (m.cls < 16) && decide (m.colour < 3) && decide (m.hdrs.length ≤ 16)
  | .creditMsg _ g _ _ => decide (g < 32768)
  | .requestMsg _ src _ _ _ => decide (src < 512)
  | .noticeMsg _ n => decide (n.src < 512) && decide (n.table < 256) && decide (n.gport < 32768)
  | .flushMsg _ g => decide (g < 32768)
  | .linkStateMsg _ src _ _ => decide (src < 512)
  | .rcRead _ a => a.wf
  | .jtagAccess _ o => o.wf
  | .recipeBankWrite _ _ | .flushWalk _ | .rwVersionWait _ _ | .mbxReqDb _ _ _
  | .mbxCplDb _ _ _ | .mbxChannelDisable _ _ | .txnLapse _ | .hostIfReset _
  | .hdmaTxDoorbell _ _ _ | .hdmaRxDoorbell _ _ _ | .i2cRead _ _ _ | .uartCommand _ _
  | .bufSpillRetry _ | .engineDispatch _ _ _ | .recipeNop _ _ _ | .ldf _ _ _
  | .ldv _ _ _ | .movi _ _ _ | .aluAdd _ _ _ | .aluSub _ _ _
  | .aluAnd _ _ _ | .aluOr _ _ _ | .aluXor _ _ _ | .aluShl _ _ _
  | .aluShr _ _ _ | .extract _ _ _ | .cmp _ _ _ | .tst _ _ _
  | .br _ _ _ | .brx _ _ _ | .call _ _ _ | .ret _ _ _
  | .adv _ _ _ | .push _ _ _ | .decber _ _ _ | .chklen _ _ _
  | .lds _ _ _ | .keyWrite _ _ _ | .metaWrite _ _ _ | .sideRec _ _ _
  | .svx _ _ _ | .pat _ _ _ | .endParse _ _ _ | .parseWindowWaitEnd _ _ _
  | .macAbort _ _ _ | .bufOverrun _ _ _ | .frameTail _ _ _ | .lookupRelease _ _
  | .tcamWindowStart _ _ | .authVerdict _ _ _ _ | .schedDecision _ _ _ | .copyTxDone _ _
  | .ageSweep _ | .shaperSweep _ | .policerSweep _ | .gateTransition _ _
  | .gclCycleStart _ _ | .pfcPauseExpiry _ _ _ | .linkDown _ _ | .lpiEntry _ _
  | .generationCommit _ | .maintSweep _ | .ageingTick _ _ | .learnWindow _
  | .tcamScrub _ _ | .throttleRise _ _ | .throttleFall _ _ | .ddForgetSweep _
  | .cmpResolve _ _ _ | .rcvyResetTimeout _ _ | .supervisionTx _ _ | .bypDrvOn _ _
  | .ref25Lost _ | .timeStep _ _ _ | .timeSourceLost _ | .traceableExpiry _
  | .ppsInEdge _ _ | .irigInFrame _ _ | .ppsOutEdge _ | .timeTxtsRead _ _
  | .timeNowRead _ | .timeGridNowRead _ | .gpioInputAccept _ _ | .gridHoldoverEntry _
  | .gridHoldoverExpiry _ | .timePointFire _ _ | .svSampleRecord _ | .streamLoss _ _
  | .phxTick _ | .harmWindowEnd _ _ | .pmuReport _ _ | .phxBankWake _ _
  | .recClose _ _ | .evtPass _ | .evtTimerExpiry _ _ | .subLoss _ _
  | .gooseFrameBuild _ _ | .gooseRetransmit _ _ | .gpioPulseEnd _ _ | .fswCommit _
  | .nibenReplayTimeout _ _ | .linkTrainingLock _ _ | .creditIssue _ _ _ | .configMsg _ _ _ _ _ _
  | .timeMsg _ _ _ _ | .timeCompareTx _ | .batchCommitAtT _ | .heldResend _
  | .memberUnreachable _ _ | .starterRun _ _ _ | .secRngFail _ | .sessionLapse _ _
  | .sessionIdleTimeout _ _ | .holdEntry _ _ | .vinDipShort _ | .shedStage _ _
  | .closure _ _ | .holdExit _ | .shedUndo _ | .vinLow _ _
  | .storeArmed _ _ | .storeFault _ _ _ | .pwrMeasureApply _ _ | .pipelineWake _ _ _
  | .powerOn _ _ _ _ _ | .porstN _ _ _ | .wrstN _ _ | .warmResetRequest _ _
  | .coldResetRequest _ _ | .proofDone _ _ | .proofTimeout _ _ | .thermalShutdown _ _ _
  | .thermalRestart _ _ _ | .faultLineLatch _ _ _ _ | .watchExpiry _ _ | .escalationClear _
  | .faultWordClear _ _ _ | .collectorMismatch _ | .kick _ _ | .wdogWarn _
  | .watchdog _ | .safeEntry _ _ | .journalSignTimer _ | .journalEntryWrite _
  | .sourceEvent _ _ _ | .irqClaim _ _ | .irqComplete _ _ _ | .coalesceRelease _ _
  | .staleDelivery _ _ | .dramRequest _ _ _ _ _ | .dramCalibration _ _ | .cdcFlush _
  | .perfCtrWrite _ _ _ _ | .bufLock _ _ | .gpioInputEdge _ _ _ | .ref25Restored _
  | .entropyHealthPass _ | .vinLowEnd _ _ | .targetWake _ _ | .batchStageTimeout _
  | .digestReportDeadline _ | .sakInstallDone _ _ _ | .pmuClientTimeout _ _ | .dramRowIdleClose _ _ _
  | .peerLpiSignal _ _ _ => true

end Sys2Proof
end

