-- ==== Sys2Proof/Machine/RegAccess.lean ====
section
/-! DEFINITION. Register reads and writes by field type (R9), the registers with a behaviour of their own, and the raw accesses a
chapter lists as undefined. -/
namespace Sys2Proof.Machine

/-! ## Domains (Table 19-1) -/

/-- The pipeline whose clock a register word lives on: its index, or the port's. -/
def Reg.pipeline (r : Reg) (i : Nat) : Option Nat :=
  match r with
  | .PARSE_DISPATCH => some (i / 512)
  | .PARSE_CTL => some i
  | .PARSE_ENTRY => some (i / 88)
  | .PARSE_WCS => some (i / 16384)
  | .PARSE_PAT_VAL => some (i / 128)
  | .PARSE_PAT_MASK => some (i / 128)
  | .PARSE_PAT_CTL => some (i / 128)
  | .PARSE_LKP_DEF => some (i / 132)
  | .PARSE_OUTCOME_CTL => some i
  | .TCAM_PROFILE => some (i / 256)
  | .TCAM_FH_CFG => some i
  | .PORT_QUAD_CFG => some (portPl (4 * i))
  | .PORT_CFG => some (portPl i)
  | .PORT_STATUS => some (portPl i)
  | .MSEC_CTL => some (portPl i)
  | .MSEC_REPLAY_WIN => some (portPl i)
  | .TIME_PORT => some (portPl i)
  | _ => none

/-- Registers of the PHX domain. -/
def Reg.phx (r : Reg) : Bool :=
  match r with
  | .PHX_STREAM | .PHX_STREAM_STAT | .PHX_HARM | .PHX_HARM_OUT | .PHX_PMU | .PHX_PMU_LIST | .PHX_REC => true
  | _ => false

/-- Registers of the domains that always run while the module is on: MGMT, TIME, HOST, DRAM, SEC and AON. -/
def Reg.always (r : Reg) : Bool :=
  match r with
  | .TIME_CAL | .TIME_BOARD_DLY | .TIME_CTL | .TIME_RATE | .TIME_STEP | .TIME_STATUS | .TIME_NOW | .TIME_DOM | .TIME_PPS_CFG
  | .TIME_PPS_OFS | .TIME_IRIG_CFG | .TIME_PPS_IN_TS | .GPIO_IN_CFG | .TIME_GRID_CFG | .TIME_GRID_NOW | .FAB_CTL | .FAB_STATE
  | .FAB_ROUTE | .FAB_EPOCH | .SEC_STATE | .SEC_BOOT | .HOST_ID | .HOST_READY | .MBX_RING | .HDMA_TX | .HDMA_RX | .PWR_STAT
  | .PWR_BUDGET | .PWR_SHED | .PWR_HOLD_CFG | .PWR_RESET_REQ | .PWR_LAST_RESET | .FLT_CTL | .FAULT_WORD | .FLT_FIRST
  | .FLT_LINE_CFG | .FLT_ESC | .FLT_SAFE_CAUSE | .FLT_WDOG | .IRQ_SRC | .IRQ_TGT | .IRQ_GROUP | .IRQ_PEND | .IRQ_ACT
  | .DRAM_SC_CFG | .DRAM_STAT => true
  | _ => false

/-- The clock a register lives on is stopped (Table 19-1, R716). -/
def State.clockStopped (s : State) (r : Reg) (i : Nat) : Bool :=
  if r.always then false
  else if r.phx then s.pwr.quiesce || (List.range 4).all fun b => s.pwr.banksOff.contains b
  else s.pwr.quiesce || s.flt.safe || (match r.pipeline i with | some pl => s.pwr.gated.contains pl | none => false)

/-- A register of the clock domain that holds a unit's state (Table 19-1). -/
def Held.like : Held → Reg × Nat
  | .entry _ => (.EXM_LTBL, 0)
  | .row pl _ _ => (.TCAM_FH_CFG, pl)
  | .version _ _ => (.PORT_RW, 0)
  | .buffer _ => (.BUF_CTL, 0)
  | .node _ _ => (.SCHED_NODE, 0)
  | .redundancy _ => (.PRED_PAIR, 0)
  | .clocks => (.TIME_CTL, 0)
  | .stream i => (.PHX_STREAM, i)
  | .condition c => (.EVT_COND, c)
  | .template t => (.EVT_GPUB, t)
  | .fabric l => (.FAB_LINK_CFG, l)
  | .supply => (.PWR_STAT, 0)
  | .shedStage => (.PWR_STAT, 0)
  | .collector => (.FLT_CTL, 0)
  | .coalescing g => (.IRQ_GROUP, g)
  | .journal => (.FLT_CTL, 0)
  | .dramTiming i => (.DRAM_STAT, i)
  | .crossing => (.FLT_CTL, 0)

/-- The clock an address lives on is stopped. -/
def State.addrStopped (s : State) (a : RegAddr) : Bool :=
  match a.held with
  | some h => s.clockStopped h.like.1 h.like.2
  | none => s.clockStopped a.reg a.idx

/-- Channels that an access into a stopped domain hung complete when its clock has returned, with free contents (R716). -/
def State.clockBack (s : State) : State :=
  s.mbx.foldl (fun (s : State) e => match e.2.busy with
    | some (r, .clock a) =>
      if s.addrStopped a then s else
      let (v, s) := s.fresh
      let (b, s) := s.freshBytes r.outLen
      s.completeWait e.1 0 (v % 4294967296) b
    | _ => s) s

/-! ## Reads -/

/-- 32 bits of a predicate, from number lo. -/
def maskOf (lo : Nat) (p : Nat → Bool) : Nat := ((List.range 32).filter fun i => p (lo + i)).foldl (fun v i => v + 2 ^ i) 0

/-- The word a read of a register gives; a WO field reads as zero (R9). -/
def State.regView (s : State) (r : Reg) (i k : Nat) : Nat :=
  let m := r.masks k
  let v := s.reg r i k &&& (m.all - m.wo)
  match r with
  | .PARSE_CTL =>
    let a := s.fld F.PARSE_CTL.ACTIVE_BANK i
    putBits v 16 2 (b2n (a != 0 && s.bankBusy i 0) + 2 * b2n (a != 1 && s.bankBusy i 1))
  | .EXM_GEN => s.cur + 65536 * s.old
  | .EXM_LEARN_COUNT => s.learnCount i % 131072
  | .BUF_POOL_STAT => s.poolFree i % 524288 + 524288 * min 8191 (min (sget s.poolLow (s.poolFree i) i) (s.poolFree i) / 64)
  | .QDEPTH => s.qBlocks i % 524288 + 524288 * min 8191 (s.queue i).length
  | .GCL_STAT => s.gateWord i
  | .QCI_GATE_STAT => if (sfind s.gates (1024 + i)).isSome then s.gateWord (1024 + i) else v
  | .QSHAPE_STAT => unsgn (sget s.shapers {} (nkey 3 i)).stat 25
  | .SCHED_SHAPE_STAT => unsgn (sget s.shapers {} (nkey (i / 65536) (i % 65536))).stat 25
  | .EVT_COND_STAT => s.condStat i
  | .PHX_HARM_OUT => if s.shed 2 && k < 51 then qnan else v
  | .SEC_STATE => s.secState
  | .IRQ_PEND => maskOf (32 * i) s.irqPending
  | .IRQ_ACT => maskOf (32 * i) s.irqActive
  | .IRQ_TGT => if k = 3 then b2n (s.irq.asleep.contains i) + 16 * s.irqRunning i + 256 * (sget s.irq.stack [] i).length else v
  | .DRAM_STAT => putBits v 2 1 (b2n (decide (s.now < (sget s.dramCh {} i).calEnd)))
  | _ => v

/-- A read of a register word with what it does: RC fields clear, the latches of TIME are taken, CLAIM acts (R9, R449, R471, R787). -/
def State.regRead (s : State) (r : Reg) (i k : Nat) : Nat × State :=
  let v := s.regView r i k
  match r with
  | .TIME_NOW => if k = 0 then let t := s.timeNow; (t.reg r 0 0, t) else (v, s)
  | .TIME_GRID_NOW => if k = 0 then let t := s.gridNowRead; (t.reg r 0 0, t) else (v, s)
  | .IRQ_TGT => if k = 1 then s.irqClaim i else (v, s)
  | .QTEL_MAX => (v, s.setReg r i k 0)
  | .BUF_POOL_STAT => (v, { s with poolLow := sset s.poolLow i (s.poolFree i) })
  | _ => (v, s)

/-! ## Writes -/

/-- A write by field types alone (R9): RW and RWS bits take the value, a 1 clears a W1C bit, CMT bits are staged, RO, RC and WO bits
keep what they hold. -/
def State.typedWrite (s : State) (r : Reg) (i k v : Nat) : State :=
  let m := r.masks k
  let keep := m.rw ||| m.rws
  let new := ((s.reg r i k &&& (4294967295 - keep)) ||| (v &&& keep)) &&& (4294967295 - (v &&& m.w1c))
  let s := s.setReg r i k new
  if m.cmt = 0 then s else s.stage r i k m.cmt v

/-- A write of a mailbox channel's registers (R681): while EN is set only a write that clears it acts; EN set starts the channel
without its error. -/
def State.mbxWrite (s : State) (ch k v : Nat) : State :=
  if s.mbxEn ch then (if k = 4 && !bit v 8 then s.stopChan ch else s)
  else
    let s := s.typedWrite .MBX_RING ch k v
    if k = 4 && bit v 8 then s.setReg .MBX_RING ch 6 0 else s

/-- A write of a P40 ring's registers (Table 16-9): other words keep theirs while EN is set; clearing EN drops what the ring holds. -/
def State.hdmaWrite (s : State) (r : Reg) (i k v : Nat) : State :=
  let en := bit (s.reg r i 2) 4
  if en && k ≠ 2 then s else
  let s := s.typedWrite r i k v
  if en && !bit v 4 then { s with rings := sdel s.rings (if r = .HDMA_TX then i else 8 + i) } else s

/-- The bank of a recipe register's index: pl × 2 + b. -/
def Reg.bank (r : Reg) (i : Nat) : Option Nat :=
  match r with
  | .PARSE_DISPATCH => some (i / 256)
  | .PARSE_ENTRY => some (i / 44)
  | .PARSE_WCS => some (i / 8192)
  | .PARSE_PAT_VAL => some (i / 64)
  | .PARSE_PAT_MASK => some (i / 64)
  | .PARSE_PAT_CTL => some (i / 64)
  | _ => none

/-- A raw write of a recipe word extends the code loaded in its bank. -/
def State.wcsWrite (s : State) (i k v : Nat) : State :=
  let b := i / 8192
  let s := s.typedWrite .PARSE_WCS i k v
  { s with
    codeLen := sset s.codeLen b (max (sget s.codeLen 0 b) (i % 8192 + 1))
    codeMap := sset s.codeMap b (sget s.codeMap 0 b ||| 2 ^ (4 * (i % 8192) + k)) }

/-- Status bits cleared in PRED_LANE_STAT: the pair's source and event line go low with the last. -/
def State.laneStatWrite (s : State) (k v : Nat) : State :=
  let s := s.typedWrite .PRED_LANE_STAT k 0 v
  if s.reg .PRED_LANE_STAT k 0 % 4 = 0 then (s.irqSignal (168 + k) false).evtLine k false else s

/-- A write of PWR_RESET_REQ (R746). -/
def State.resetWrite (s : State) (v : Nat) : State :=
  match bits v 0 2 with
  | 1 => s.doReset false 3 (bit v 2)
  | 2 => s.doReset true 4 (bit v 2)
  | _ => s

/-- A write of one register word, with what it does. -/
def State.putReg (s : State) (r : Reg) (i k v : Nat) : State :=
  match r with
  | .BUF_POOL_CFG => if s.flag F.BUF_CTL.LOCK 0 then s else s.typedWrite r i k v
  | .BUF_CTL => s.typedWrite r i k (v ||| s.fld F.BUF_CTL.LOCK 0)
  | .MBX_RING => s.mbxWrite i k v
  | .HDMA_TX => s.hdmaWrite r i k v
  | .HDMA_RX => s.hdmaWrite r i k v
  | .PARSE_WCS => s.wcsWrite i k v
  | .PRED_LANE_STAT => s.laneStatWrite i v
  | .PRED_BYP_CTL => (s.typedWrite r i k v).bypSettle
  | .FAB_ROUTE => (s.typedWrite r i k v).settleQueues
  | .TIME_STEP => if k = 0 then s.setReg r 0 0 v else s.timeStep (s.reg r 0 0) v
  | .FLT_WDOG => (s.typedWrite r i k v).kickWrite (v / 65536)
  | .FAULT_WORD => s.faultClear k v
  | .IRQ_SRC => (s.typedWrite r i k v).irqSettle
  | .IRQ_TGT => if k = 2 then s.irqComplete i (bits v 0 10) else (s.typedWrite r i k v).irqSettle
  | .PWR_RESET_REQ => s.resetWrite v
  | _ => s.typedWrite r i k v

/-! ## Rings (R346, R350, R395, R400) -/

/-- Entries of a register that hold anything, staged or not. -/
def State.named (s : State) (r : Reg) : List Nat :=
  ((s.cmt.filter fun (e : Nat × Word) => e.1 / 4294967296 == r.code).map fun (e : Nat × Word) => e.1 % 4294967296 / 256).foldl ins
    (((s.written r).map (·.1)).foldl ins [])

/-- The recorder's and the record rings' areas as the staged values give them. -/
def State.ringAreas (s : State) : List (Reg × Nat × Nat × Nat) := ringAreasBy s.next s.named

/-- Ring i of a register overlaps the firmware region, or another ring. -/
def State.ringInFw (s : State) (r : Reg) (i : Nat) : Bool :=
  s.ringAreas.any fun a => a.1 == r && a.2.1 == i && overlaps a.2.2 fwRegion
def State.ringHits (s : State) (r : Reg) (i : Nat) : Bool :=
  let l := s.ringAreas
  l.any fun a => a.1 == r && a.2.1 == i && l.any fun b => !(b.1 == r && b.2.1 == i) && overlaps a.2.2 b.2.2

/-! ## Raw accesses that are undefined -/

/-- A descriptor that a generation at or after OLD may use, or a software command of CUR + 1. -/
def State.descUsed (s : State) (t d : Nat) : Bool :=
  s.kindOf t != 0 && s.descLive t d

/-- A descriptor word breaks R217: alignment, size, end of the store, or the region of another descriptor in use. -/
def State.descBad (s : State) (i v : Nat) : Bool :=
  let base := bits v 0 18
  let log := bits v 18 5
  decide (log > 18) || base % 2 ^ min 18 log != 0 || decide (base + 2 ^ min 18 log > 262144) ||
    (((s.written .EXM_LTBL).map (·.1)).any fun j => j != i && s.fld F.EXM_LTBL.KEY_W j != 0 && bits v 23 8 != 0 &&
      overlaps (base, 2 ^ min 18 log) (s.fld F.EXM_LTBL.BASE j, 2 ^ s.fld F.EXM_LTBL.LOG2 j))

/-- Quads that run in NIBEN mode once staged values commit. -/
def State.nextNiben (s : State) : Nat := ((List.range 8).filter fun q => bits (s.next .PORT_QUAD_CFG q 0) 0 3 == 5).length

/-- A quad whose SerDes clock power gating has stopped: its pipeline is gated (R68, R307, R486). -/
def State.quadStopped (s : State) (r : Reg) (i : Nat) : Bool :=
  match r with
  | .PORT_QUAD_CFG => s.pwr.gated.contains (portPl (4 * i))
  | .PORT_CFG => s.pwr.gated.contains (portPl i)
  | .MSEC_CTL => s.pwr.gated.contains (portPl i)
  | .TIME_PORT => s.pwr.gated.contains (portPl i)
  | .TIME_DOM => !s.pwr.gated.isEmpty
  | _ => false

/-- The undefined case that a raw write of a register word runs into; t is the state once it is written. -/
def State.rawBad (s t : State) (r : Reg) (i v : Nat) : Option Undef :=
  if s.quadStopped r i then some .stoppedQuad
  else if s.clockStopped r i then some .stoppedClock
  else match r with
  | .ADM_OCC => some .occupancy
  | .ADM_ING_OCC => some .occupancy
  | .ADM_SHARED_OCC => some .occupancy
  | .BUF_POOL_STAT => some .bufferState
  | .QSHAPE_STAT => some .schedState
  | .SCHED_SHAPE_STAT => some .schedState
  | .PRED_SEQ => some .redundancyState
  | .TIME_NOW => some .clockState
  | .TIME_GRID_NOW => some .clockState
  | .EVT_COND_STAT => some .eventState
  | .EVT_FSW => if s.fswQ.any fun x => x.1 == i / 8 then some .switchSet else none
  | .PWR_STAT => some .powerState
  | .FAULT_WORD => some .collectorState
  | .FLT_FIRST => some .collectorState
  | .FLT_ESC => some .collectorState
  | .IRQ_PEND => some .collectorState
  | .IRQ_ACT => some .collectorState
  | .PORT_QUAD_CFG => if t.nextNiben > 2 then some .thirdNiben else none
  | .EXM_LTBL => if s.descUsed (i / 2) (i % 2) || s.descBad i v then some .descriptor else none
  | .EXM_SEED => if s.descUsed (i / 2) (i % 2) then some .descriptor else none
  | _ =>
    match r.bank i with
    | some b => if s.fld F.PARSE_CTL.ACTIVE_BANK (b / 2) = b % 2 || s.bankBusy (b / 2) (b % 2) then some .bankInUse else none
    | none => none

/-- Values a raw write leaves undefined: the gate states of a running or pending list (R399). The contents of rings that overlap once the write
is committed are undefined by themselves (`State.wildNow`). -/
def State.rawFree (s t : State) (r : Reg) (i : Nat) : State :=
  match r with
  | .GCL_ENTRY =>
    if s.listBusy (i / 2048) (i % 2048 / 1024) then
      t.setGate (i / 2048) { sget t.gates {} (i / 2048) with wild := true }
    else t
  | _ => t

/-- A bank with a word of its recipe written raw no longer holds the object that LOAD_RECIPE checked. -/
def State.bankTouched (s : State) (r : Reg) (i : Nat) : State :=
  match r.bank i with
  | some b => { s with bankObj := sdel s.bankObj b }
  | none => s

/-- A raw write of a register word (R9): an undefined case lasts until the next device reset. -/
def State.rawReg (s : State) (r : Reg) (i k v : Nat) : State :=
  let t := (s.putReg r i k v).bankTouched r i
  match s.rawBad t r i v with
  | some u => (s.rawFree t r i).undefined u
  | none => s.rawFree t r i

/-! ## State beside the registers -/

/-- An exact-match entry a lookup may use: a bucket of a descriptor in use, or an overflow slot while a table is in use (R216). -/
def State.entryUsed (s : State) (loc : Nat) : Bool :=
  if loc ≥ ovfBase then (List.range 256).any fun t => s.kindOf t != 0
  else ((s.written .EXM_LTBL).map (·.1)).any fun j => s.descUsed (j / 2) (j % 2) && s.fld F.EXM_LTBL.KEY_W j != 0 &&
    overlaps (loc / 4, 1) (s.fld F.EXM_LTBL.BASE j, 2 ^ min 18 (s.fld F.EXM_LTBL.LOG2 j))

/-- A TCAM row that a generation at or after OLD can search (R263). -/
def State.rowUsed (s : State) (pl n : Nat) : Bool :=
  match sfind s.tcam (trow pl n) with
  | none => false
  | some r => !(r.retired && genGe s.old r.until_)

/-- A raw write of word k of state that no register table lists. Only an entry, a row and a version that nothing uses, and a shed stage
outside HOLD, are outside the undefined cases: such words are kept, and an entry or row whose USED bit they set comes into being with
them (DESIGN CHOICE, log 222). -/
def State.rawHeld (s : State) (h : Held) (k v : Nat) : State :=
  if s.clockStopped h.like.1 h.like.2 && !(match h with | .row pl _ _ => s.pwr.gated.contains pl | _ => false) then s.undefined .stoppedClock
  else match h with
  | .entry loc =>
    if s.entryUsed loc then s.undefined .entryWords else
    let l := ((sfind s.exm loc).map Entry.toWords).getD (sget s.rawW (List.replicate 8 0) loc)
    let l := l.set k (w32 v)
    if bit (wAt l 6) 8 then { s with exm := sset s.exm loc (Entry.ofWords l), rawW := sdel s.rawW loc }
    else { s with exm := sdel s.exm loc, rawW := sset s.rawW loc l }
  | .row pl n sh =>
    if s.pwr.gated.contains pl then s.undefined .tcamGated
    else if s.rowUsed pl n then s.undefined .tcamRow else
    let i := trow pl n
    let j := 2097152 + i
    let old := sfind s.tcam i
    if sh then
      match old with
      | some r => { s with tcam := sset s.tcam i (r.setShadow k v) }
      | none => s
    else
      let l := ((old.map Row.toWords).getD (sget s.rawW (List.replicate 46 0) j)).set k (w32 v)
      if bit (wAt l 40) 16 then { s with tcam := sset s.tcam i (Row.ofWords l), rawW := sdel s.rawW j }
      else { s with tcam := sdel s.tcam i, rawW := sset s.rawW j l }
  | .version t i => if !s.verFree t i then s.undefined .version else
      let j := 4194304 * (1 + t.code) + i
      { s with rawW := sset s.rawW j ((sget s.rawW (List.replicate t.words 0) j).set k (w32 v)) }
  | .buffer _ => s.undefined .bufferState
  | .node _ _ => s.undefined .schedState
  | .redundancy _ => s.undefined .redundancyState
  | .clocks => s.undefined .clockState
  | .stream _ => s.undefined .streamState
  | .condition _ => s.undefined .eventState
  | .template _ => s.undefined .eventState
  | .fabric _ => s.undefined .fabricState
  | .supply => s.undefined .supplyControl
  | .shedStage => if s.power = 3 then s.undefined .powerState else s
  | .collector => s.undefined .collectorState
  | .coalescing _ => s.undefined .collectorState
  | .journal => s.undefined .journalState
  | .dramTiming _ => s.undefined .dramTiming
  | .crossing => s.undefined .crossing

/-- A raw read of word k of such state: an entry's and a row's words as their tables lay them out; of the rest the spec gives no words,
so they are free. -/
def State.heldRead (s : State) (h : Held) (k : Nat) : Nat × State :=
  match h with
  | .entry loc => (wAt (((sfind s.exm loc).map Entry.toWords).getD (sget s.rawW [] loc)) k, s)
  | .row pl n sh =>
    let i := trow pl n
    if s.pwr.gated.contains pl then let (v, s) := s.fresh; (v % 4294967296, s.undefined .tcamGated) else
    let l := match sfind s.tcam i with
      | some r => if sh then r.shadow.toWords else r.toWords
      | none => sget s.rawW [] (2097152 + i)
    (wAt l k, s)
  | _ => let (v, s) := s.fresh; (v % 4294967296, s)

/-- A raw write by an expert host or a debugger (R9, R12, R716). -/
def State.rawWrite (s : State) (a : RegAddr) (v : Nat) : State :=
  match a.held with
  | some h => s.rawHeld h a.word v
  | none => s.rawReg a.reg a.idx a.word v

/-- A raw read. -/
def State.rawRead (s : State) (a : RegAddr) : Nat × State :=
  match a.held with
  | some h => s.heldRead h a.word
  | none => s.regRead a.reg a.idx a.word

/-! ## Rows -/

/-- What stands at a BAR0 offset (Table 16-1, R784): a register word, the ENABLE bits of 32 interrupt sources, a word of the MSI-X table or of
its pending bits; nothing elsewhere. -/
inductive Bar0 where
  | reg (r : Reg) (i k : Nat)
  | enables (w : Nat)
  | msix (v k : Nat)
  | pba (k : Nat)
  | none
  deriving DecidableEq, Repr

def bar0At (off : Nat) : Bar0 :=
  let ring (r : Reg) (base n words : Nat) : Option Bar0 :=
    if base ≤ off && off < base + 64 * n && (off - base) % 64 / 4 < words then some (.reg r ((off - base) / 64) ((off - base) % 64 / 4)) else none
  if off % 4 ≠ 0 then .none
  else if off = 0 then .reg .HOST_ID 0 0
  else if off = 0x10 then .reg .HOST_READY 0 0
  else if off = 0x20 then .reg .SEC_STATE 0 0
  else if 0x8000 ≤ off && off < 0x8010 then .reg .IRQ_TGT 4 ((off - 0x8000) / 4)
  else if 0x8100 ≤ off && off < 0x8180 then .enables ((off - 0x8100) / 4)
  else if 0x10000 ≤ off && off < 0x10400 then .msix ((off - 0x10000) / 16) (off % 16 / 4)
  else if off = 0x18000 || off = 0x18004 then .pba ((off - 0x18000) / 4)
  else (((ring .MBX_RING 0x2000 16 7).orElse fun _ => ring .HDMA_TX 0x4000 8 4).orElse fun _ => ring .HDMA_RX 0x4800 8 4).getD .none

/-- A host's aligned 32-bit write to BAR0: RO and reserved offsets ignore it, and the doorbells and COMPLETE are rows of their own. Of the
interrupt controller it reaches THRESHOLD of the HOST target and ENABLE of sources from 32 on that go to it (R675, R784). -/
def State.bar0Write (s : State) (off v : Nat) : State :=
  match bar0At off with
  | .reg .MBX_RING i k => s.putReg .MBX_RING i k v
  | .reg .HDMA_TX i k => s.putReg .HDMA_TX i k v
  | .reg .HDMA_RX i k => s.putReg .HDMA_RX i k v
  | .reg .IRQ_TGT _ 0 => s.putReg .IRQ_TGT 4 0 (putBits (s.reg .IRQ_TGT 4 0) 0 4 v)
  | .enables w => (List.range 32).foldl (fun s j =>
      let i := 32 * w + j
      if i ≥ 32 && s.irqTarget0 i = 4 then s.putReg .IRQ_SRC i 0 (putBits (s.reg .IRQ_SRC i 0) 7 1 (b2n (bit v j))) else s) s
  | .msix n k => { s with irq := s.irq.msixWrite n k v }
  | _ => s

/-- What a host's aligned 32-bit read of BAR0 returns: zero at reserved offsets (R675). No row carries such a read: CLAIM and the reads that act
are rows of their own. -/
def State.bar0Read (s : State) (off : Nat) : Nat :=
  match bar0At off with
  | .reg r i k => s.regView r i k
  | .enables w => (List.range 32).foldl (fun v j => v + b2n (s.flag F.IRQ_SRC.ENABLE (32 * w + j)) * 2 ^ j) 0
  | .msix n k => let e := sget s.irq.msix {} n; [e.addr % 4294967296, e.addr / 4294967296, e.data, b2n e.masked].getD k 0
  | .pba k => (List.range 32).foldl (fun v j => v + b2n (s.irq.pba.contains (32 * k + j)) * 2 ^ j) 0
  | .none => 0

/-- Firmware's write: it also keeps the state and traceability of the device clock, which are RO to a host. -/
def State.fwWrite (s : State) (r : Reg) (i k v : Nat) : State :=
  match r with
  | .TIME_STATUS =>
    (s.setTimeState (bits v F.TIME_STATUS.STATE.lo F.TIME_STATUS.STATE.n)).setTraceable (bit v F.TIME_STATUS.TRACEABLE.lo)
  | _ => s.putReg r i k v

/-- REGISTER_WRITE (R9): a register write by firmware, or by the host through BAR0. -/
def execRegisterWrite (dt : Nat) (by_ : WrSrc) (at_ : Nat) (v : Word) (s : State) : Out :=
  let s := s.advance dt
  match by_ with
  | .firmware r i => finish (if !RegAddr.wf { reg := r, idx := i, word := at_ } then s else s.fwWrite r i at_ v.toNat)
  | .bar0 => finish (s.bar0Write at_ v.toNat)

/-- RC_READ (R347, R393): a read of a word with RC fields returns it and clears them. -/
def execRcRead (dt : Nat) (a : RegAddr) (s : State) : Out :=
  let s := s.advance dt
  if !a.wf || a.held.isSome then finish s else
  let (v, s) := s.regRead a.reg a.idx a.word
  finish { s with rd := [w32 v] }

/-- BUF_LOCK (R310): LOCK is set and never cleared by a write. -/
def execBufLock (dt : Nat) (v : Bool) (s : State) : Out :=
  let s := s.advance dt
  finish (s.putReg .BUF_CTL 0 0 (putBits (s.reg .BUF_CTL 0 0) 0 1 (b2n v)))

/-- PERF_CTR_WRITE (R824). -/
def execPerfCtrWrite (dt : Nat) (n : Fin 64) (w : Fin 2) (v : Word) (s : State) : Out :=
  finish ((s.advance dt).putReg .PERF_CTR n w v.toNat)

/-! ## The expert register and memory commands (R697 to R701) -/

/-- The word after one in address order: words of an instance, then instances of the register. -/
def RegAddr.succ (a : RegAddr) : RegAddr :=
  if a.held.isSome || a.word + 1 < a.reg.words then { a with word := a.word + 1 } else { a with idx := a.idx + 1, word := 0 }

/-- n words from an address. -/
def RegAddr.run : Nat → RegAddr → List RegAddr
  | 0, _ => []
  | n + 1, a => a :: RegAddr.run n a.succ

/-- Firmware opens a register to an expert host: all but the security domain's (R697). -/
def RegAddr.isOpen (a : RegAddr) : Bool :=
  a.wf && (a.held.isSome || (match a.reg with | .SEC_STATE => false | .SEC_BOOT => false | _ => true))

/-- Read words in order. -/
def State.readRun (s : State) (l : List RegAddr) : List Word × State :=
  l.foldl (fun x a => let (v, t) := x.2.rawRead a; (x.1 ++ [w32 v], t)) ([], s)

/-- Write words in order. -/
def State.writeRun (s : State) (l : List (RegAddr × Word)) : State := l.foldl (fun s e => s.rawWrite e.1 e.2.toNat) s

/-- An access into a domain whose clock is stopped: undefined behaviour, in which the channel hangs until the clock returns (R716, R801). -/
def hang (s : State) (a : RegAddr) : Reply := .wait (s.undefined .stoppedClock) (.clock a)

/-- REG_READ (R698, R701): a CMT field reads its committed value. -/
def execRegRead (dt : Nat) (a : RegAddr) (r : Req) (s : State) : Out :=
  runCmd { op := 0x8000, role := some 2, read := true, expert := true } dt r s fun s =>
    let n := r.w 0
    if n < 1 || n > 1024 || r.inLen < 4 then fail Status.badParam s else
    let l := RegAddr.run n a
    if !(l.all RegAddr.isOpen) then fail Status.expertDenied s
    else match l.find? s.addrStopped with
    | some b => hang s b
    | none =>
      let (v, t) := s.readRun l
      .done 0 t 0 (wordsBytes v)

/-- The words of a REG_WRITE lie in PWR_RESET_REQ alone (R746). -/
def RegAddr.isReset (a : RegAddr) (n : Nat) : Bool := a.held.isNone && a.reg == .PWR_RESET_REQ && decide (a.word + n ≤ a.reg.words)

/-- REG_WRITE (R698, R701): CMT fields join the command's transaction (R693). -/
def execRegWrite (dt : Nat) (a : RegAddr) (r : Req) (s : State) : Out :=
  runCmd { op := 0x8001, role := some 2, expert := true, reset := a.isReset r.payload.length } dt r s fun s =>
    let n := r.payload.length
    if n < 1 || n > 1024 then fail Status.badParam s else
    let l := RegAddr.run n a
    if !(l.all RegAddr.isOpen) then fail Status.expertDenied s
    else match l.find? s.addrStopped with
    | some b => hang s b
    | none => staging r s (l.any fun a => a.held.isNone && (a.reg.masks a.word).cmt != 0) fun s => good (s.writeRun (l.zip r.payload))

/-- Bytes of SRAM, which the expert commands and the debugger address above the DRAM (R701 gives no address for it). -/
def sramBase : Nat := dramSize

/-- Bytes of the on-die SRAM, 152 MiB, which the management cores' private SRAM, 8 MiB, follows (Table 1-1). -/
def sramSize : Nat := 159383552
def sramPrivate : Nat := 8388608

/-- The status of a memory access of n bytes that cannot begin. -/
def State.memDenied (s : State) (a n : Nat) : Option Nat :=
  if a ≥ dramSize then (if a + n > dramSize + sramSize then some Status.expertDenied else none)
  else if a < 1073741824 then some Status.expertDenied
  else if !s.ready 2 then some 6
  else none

/-- The clock of a memory is stopped: DRAM stack 1 in self-refresh, or the unit whose words the address holds. -/
def State.memStopped (s : State) (a n : Nat) (at_ : Option RegAddr) : Option RegAddr :=
  if a < dramSize then
    (if bit (s.reg .DRAM_STAT 1 0) 1 && stackOf (a + n - 1) = 1 then some { reg := .DRAM_STAT, idx := 1, word := 0 } else none)
  else at_.bind fun b => if s.addrStopped b then some b else none

/-- The address and length of a memory command are in range. -/
def memArgs (a n : Nat) : Bool := 4 ≤ n && n ≤ 4064 && n % 4 == 0 && !(a < dramSize && a + n > dramSize) &&
  decide (a + n ≤ dramSize + sramSize + sramPrivate)

/-- MEM_READ (R701, R813): SRAM at once, or the words of the unit that it holds there; DRAM when its blocks have been served. -/
def execMemRead (dt : Nat) (r : Req) (s : State) : Out :=
  runCmd { op := 0x8002, role := some 2, read := true, expert := true } dt r s fun s =>
    let a := r.w 0 + 4294967296 * r.w 1
    let n := r.w 2
    if r.inLen < 12 || !memArgs a n then fail Status.badParam s else
    match s.memDenied a n, s.memStopped a n r.unit, r.unit with
    | some st, _, _ => fail st s
    | none, some b, _ => hang s b
    | none, none, none =>
      if a ≥ dramSize then .done 0 s 0 (memReadBytes s.sram (a - dramSize) n)
      else .wait (s.dramAsk 3 false a n (some r.ch)) (.mem (blocksOf a n).length false (s.dramBytes a n))
    | none, none, some b =>
      if a < dramSize then .wait (s.dramAsk 3 false a n (some r.ch)) (.mem (blocksOf a n).length false (s.dramBytes a n)) else
      let (v, t) := s.readRun (RegAddr.run (n / 4) b)
      .done 0 t 0 (wordsBytes v)

/-- MEM_WRITE (R701). -/
def execMemWrite (dt : Nat) (r : Req) (s : State) : Out :=
  runCmd { op := 0x8003, role := some 2, expert := true } dt r s fun s =>
    let a := r.w 0 + 4294967296 * r.w 1
    let n := r.w 2
    if r.inLen < 12 + n || !memArgs a n then fail Status.badParam s else
    let b := payBytes r.payload 3 n
    match s.memDenied a n, s.memStopped a n r.unit, r.unit with
    | some st, _, _ => fail st s
    | none, some b, _ => hang s b
    | none, none, none => if a ≥ dramSize then good { s with sram := memWriteBytes s.sram (a - dramSize) b } else good (s.dramWrite 3 a b)
    | none, none, some at_ =>
      if a < dramSize then good (s.dramWrite 3 a b)
      else good (s.writeRun ((RegAddr.run (n / 4) at_).zip (r.payload.drop 3)))

end Sys2Proof.Machine
end

