-- ==== Sys2Proof/Machine/ConfigCmds.lean ====
section
/-! DEFINITION. The configuration commands (R713, R714, Tables 16-13 and 16-14): records, the objects they write, the values each
chapter refuses, readback, and one meaning for each command. -/
namespace Sys2Proof.Machine

/-! ## Objects (Table 16-14) -/

/-- What an object code names: a register, or a table of two versions. -/
inductive CfgObj where
  | reg (r : Reg)
  | ver (t : VTab)
  deriving DecidableEq, Repr

/-- The objects of the port, lookup and filter commands. -/
def cfgObjsA : List (Nat × Nat × CfgObj) :=
  [(0x001, 0x30, .reg .PORT_QUAD_CFG), (0x002, 0x30, .reg .PORT_CFG), (0x003, 0x30, .reg .PORT_PFC), (0x004, 0x30, .reg .PORT_VLAN),
   (0x005, 0x30, .reg .AUTH_VCFG), (0x006, 0x30, .reg .PARSE_LKP_DEF), (0x007, 0x30, .reg .PARSE_OUTCOME_CTL),
   (0x008, 0x30, .reg .PARSE_CTL), (0x010, 0x50, .reg .EXM_LTBL_CTL), (0x011, 0x50, .reg .EXM_LKP_CTL),
   (0x012, 0x50, .reg .EXM_LEARN_CFG), (0x013, 0x50, .reg .EXM_FLAP_CFG), (0x014, 0x50, .reg .EXM_LTBL), (0x015, 0x50, .reg .EXM_SEED),
   (0x020, 0x62, .reg .POL_CFG), (0x021, 0x62, .reg .POL_STAT), (0x022, 0x63, .reg .QCI_FILTER), (0x023, 0x63, .reg .QCI_METER),
   (0x024, 0x63, .reg .QCI_GATE_CTL), (0x025, 0x63, .reg .QCI_GATE_ENTRY), (0x026, 0x63, .reg .QCI_FILTER_STAT),
   (0x027, 0x63, .reg .TCAM_PROFILE), (0x028, 0x63, .reg .TCAM_FH_CFG), (0x029, 0x63, .reg .VLAN_FLOOD)]

/-- Those of rewrite, admission, scheduling and redundancy. -/
def cfgObjsB : List (Nat × Nat × CfgObj) :=
  [(0x030, 0x70, .ver .RW_LIST), (0x031, 0x70, .ver .RW_MAC), (0x032, 0x70, .ver .RW_ENCAP), (0x033, 0x70, .ver .NH_TABLE),
   (0x034, 0x70, .reg .PORT_RW), (0x035, 0x70, .reg .RW_SPDU_NUM), (0x038, 0x71, .reg .MSEC_CTL), (0x039, 0x71, .reg .MSEC_REPLAY_WIN),
   (0x040, 0x80, .reg .ADM_CLASS), (0x041, 0x80, .reg .ADM_EGR), (0x042, 0x80, .reg .ADM_ING), (0x043, 0x80, .reg .ADM_SHARED),
   (0x044, 0x80, .reg .ADM_CAP), (0x045, 0x80, .reg .ADM_DROPCAP), (0x046, 0x80, .reg .BUF_REQ_CFG), (0x047, 0x80, .reg .BUF_CTL),
   (0x048, 0x81, .ver .MC_GROUP), (0x049, 0x81, .ver .FAB_MCG), (0x04A, 0x82, .reg .CAP_RING), (0x050, 0x90, .reg .SCHED_CLASS_MAP),
   (0x051, 0x90, .reg .SCHED_PFC_MAP), (0x052, 0x90, .reg .SCHED_QSEL), (0x053, 0x90, .reg .SCHED_LINK), (0x054, 0x90, .reg .SCHED_NODE),
   (0x055, 0x90, .reg .SCHED_PORT), (0x056, 0x90, .reg .QSHAPE), (0x057, 0x90, .reg .SCHED_SHAPE), (0x058, 0x91, .reg .GCL_CTL),
   (0x059, 0x91, .reg .GCL_ENTRY), (0x05A, 0x92, .reg .QTEL_CFG), (0x05B, 0x92, .reg .QTEL_RING), (0x05C, 0x92, .reg .PERF_CFG),
   (0x05D, 0x92, .reg .PERF_CTR), (0x05E, 0x92, .reg .PERF_PRESET), (0x05F, 0x92, .reg .PERF_RING), (0x060, 0xA0, .reg .PRED_PAIR),
   (0x061, 0xA0, .reg .PRED_LANE_STAT), (0x062, 0xA0, .reg .PRED_BYP_CTL), (0x063, 0xA1, .reg .PRED_RCVY)]

/-- Those of time, measurement, events, the fabric, faults and power. -/
def cfgObjsC : List (Nat × Nat × CfgObj) :=
  [(0x070, 0xB0, .reg .TIME_CTL), (0x071, 0xB0, .reg .TIME_DOM), (0x072, 0xB0, .reg .TIME_PORT), (0x073, 0xB0, .reg .TIME_PPS_CFG),
   (0x074, 0xB0, .reg .TIME_PPS_OFS), (0x075, 0xB0, .reg .TIME_IRIG_CFG), (0x076, 0xB0, .reg .TIME_GRID_CFG),
   (0x077, 0xB0, .reg .TIME_BOARD_DLY), (0x078, 0xB0, .reg .GPIO_IN_CFG), (0x080, 0xC0, .reg .PHX_STREAM), (0x081, 0xC1, .reg .PHX_HARM),
   (0x082, 0xC2, .reg .PHX_PMU), (0x083, 0xC2, .reg .PHX_PMU_LIST), (0x084, 0xC4, .reg .PHX_REC), (0x090, 0xD0, .reg .EVT_SUB),
   (0x091, 0xD0, .reg .EVT_COND), (0x092, 0xD0, .reg .EVT_ACT), (0x093, 0xD0, .reg .EVT_GPUB), (0x094, 0xD0, .reg .EVT_GPUB_DATA),
   (0x095, 0xD0, .reg .EVT_FSW), (0x096, 0xD0, .reg .GPIO_OUT_CFG), (0x0A0, 0xE0, .reg .FAB_CTL), (0x0A1, 0xE0, .reg .FAB_LINK_CFG),
   (0x0A2, 0xE0, .reg .FAB_ROUTE), (0x0A3, 0xE0, .reg .FAB_VOQ_LIM), (0x0A4, 0xE0, .reg .FAB_CG), (0x0A5, 0xE0, .reg .FAB_OWN_WIN),
   (0x0B0, 0xF0, .reg .FLT_LINE_CFG), (0x0B1, 0xF0, .reg .FLT_WDOG), (0x0B2, 0xF0, .reg .IRQ_SRC), (0x0B3, 0xF0, .reg .IRQ_TGT),
   (0x0B4, 0xF0, .reg .IRQ_GROUP), (0x0C0, 0x20, .reg .PWR_SHED), (0x0C1, 0x20, .reg .PWR_HOLD_CFG)]

/-- The object an object code names for the command of an opcode; EXM_TABLE_CONFIG_X writes those of EXM_TABLE_CONFIG,
the start configuration (65,536) any. -/
def cfgObj (op code : Nat) : Option CfgObj :=
  let op := if op = 0x8011 then 0x50 else op
  ((cfgObjsA ++ cfgObjsB ++ cfgObjsC).find? fun e => e.1 == code && (e.2.1 == op || op == 65536)).map (·.2.2)

/-- Entries and words of an object. The words of IRQ_TGT end at word 0. -/
def CfgObj.count : CfgObj → Nat
  | .reg r => r.count
  | .ver t => t.count
def CfgObj.words : CfgObj → Nat
  | .reg .IRQ_TGT => 1
  | .reg r => r.words
  | .ver t => t.words

/-- Bits of a word of instance i of an object that are not reserved (Tables 7-2, 7-4 to 7-6, 8-9, 8-11, 14-12). -/
def CfgObj.mask (o : CfgObj) (i k : Nat) : Nat :=
  match o with
  | .reg r => (r.masks k).all &&& (4294967295 - r.reservedAt i)
  | .ver .RW_LIST => if k = 0 then 0xF else 0xFFFFFFFF
  | .ver .RW_MAC => if k = 1 then 0xFFFF else 0xFFFFFFFF
  | .ver .RW_ENCAP => if k = 16 then 0x7FFFFF else 0xFFFFFFFF
  | .ver .NH_TABLE => 0x1FFFF
  | .ver .MC_GROUP => if k = 0 then 0xFFFFFFFF else if k = 1 then 0x1FFF else 0x1FFFF
  | .ver .FAB_MCG => 0xFFFFFFFF

/-- Bits a record may write where Table 16-14 names one field only. -/
def Reg.cfgMask (r : Reg) : Nat :=
  match r with
  | .PARSE_CTL => 2
  | .BUF_CTL => 2
  | .FAB_ROUTE => 0xFF
  | .FLT_WDOG => 0xFFFF
  | _ => 0xFFFFFFFF

/-! ## Records (Table 16-13) -/

/-- A record: its byte offset, its fields and its data. -/
structure CfgRec where
  off   : Nat
  head  : Word
  obj   : CfgObj
  first : Nat
  idx   : Nat
  data  : List Word
  deriving DecidableEq, Repr

/-- The records of a payload, or the offset of the first that is malformed: cut short, of another command, beyond its object, or
with a reserved bit set (R714). Readback does not look at its data. -/
def cfgRecs (op : Nat) (read : Bool) : Nat → Nat → List Word → Except Nat (List CfgRec)
  | _, _, [] => .ok []
  | 0, off, _ :: _ => .error off
  | _ + 1, off, [_] => .error off
  | n + 1, off, h :: i :: l =>
    let w := h.toNat
    let first := bits w 12 7
    let cnt := bits w 19 7 + 1
    match cfgObj op (bits w 0 12) with
    | none => .error off
    | some o =>
      let d := l.take cnt
      if bits w 26 6 != 0 || d.length < cnt || i.toNat ≥ o.count || first + cnt > o.words then .error off
      else if !read && (List.range cnt).any fun j => (wAt d j &&& (4294967295 - o.mask i.toNat (first + j))) != 0 then .error off
      else
        match cfgRecs op read n (off + 8 + 4 * cnt) (l.drop cnt) with
        | .error e => .error e
        | .ok t => .ok ({ off := off, head := h, obj := o, first := first, idx := i.toNat, data := d } :: t)

/-- The records of a request; bytes that do not fill a word belong to a record cut short. -/
def Req.cfgRecs (r : Req) (op : Nat) (read : Bool) : Except Nat (List CfgRec) :=
  let l := r.payload.take (r.inLen / 4)
  match Machine.cfgRecs op read l.length 0 l with
  | .error e => .error e
  | .ok x => if r.inLen % 4 ≠ 0 then .error (4 * (r.inLen / 4)) else .ok x

/-! ## Applying records -/

/-- The index a record of a descriptor writes: the table's active descriptor at basic level (Table 16-14). -/
def State.cfgIdx (s : State) (x : Bool) (r : Reg) (i : Nat) : Nat :=
  if !x && (r == .EXM_LTBL || r == .EXM_SEED) then i / 2 * 2 + s.fld F.EXM_LTBL_CTL.ACTIVE (i / 2) else i

/-- A descriptor as EXM_TABLE_CONFIG writes it: firmware chooses BASE and SEED (R158); a status where it cannot. -/
def State.cfgDesc (s : State) (i v : Nat) : Except Nat State :=
  let log := bits v 18 5
  let w := bits v 23 8
  let old := s.reg .EXM_LTBL i 0
  if log > 18 then .error 0x104
  else if w > 160 then .error Status.badParam
  else if w = 0 || (bits old 18 5 = log && bits old 23 8 != 0) then .ok (s.setReg .EXM_LTBL i 0 (bits old 0 18 + 262144 * log + 8388608 * w))
  else
    match (s.setReg .EXM_LTBL i 0 0).freeRegion log with
    | none => .error 0x104
    | some b =>
      let (seed, s) := s.fresh
      .ok ((s.setReg .EXM_LTBL i 0 (b + 262144 * log + 8388608 * w)).setReg .EXM_SEED i 0 seed)

/-- One word of a register record. -/
def State.cfgWord (s : State) (r : Reg) (i k v : Nat) : State :=
  let m := r.cfgMask
  let v := (v &&& m) ||| (s.next r i k &&& (4294967295 - m))
  match r with
  | .FLT_WDOG => s.typedWrite r i k v
  | _ => s.putReg r i k v

/-- Apply a register record word by word; x: as EXM_TABLE_CONFIG_X. -/
def State.cfgReg (s : State) (x : Bool) (r : Reg) (e : CfgRec) : Except Nat State :=
  let i := s.cfgIdx x r e.idx
  if !x && r == .EXM_LTBL then s.cfgDesc i (wAt e.data 0)
  else if !x && r == .EXM_SEED then .ok s
  else
    .ok ((List.range e.data.length).foldl (fun (s : State) j =>
        let t := s.cfgWord r i (e.first + j) (wAt e.data j)
        if r == .EXM_LTBL || r == .EXM_SEED then
          match s.rawBad t r i (wAt e.data j) with
          | some u => t.undefined u
          | none => t
        else t) s)

/-- Apply every register record in order; the offset of the record that cannot be. -/
def State.cfgApply (s : State) (x : Bool) (l : List CfgRec) : Except (Nat × Nat) State :=
  l.foldl (fun a e => match a, e.obj with
    | .error f, _ => .error f
    | .ok s, .ver _ => .ok s
    | .ok s, .reg r => match s.cfgReg x r e with
      | .ok t => .ok t
      | .error f => .error (e.off, f)) (.ok s)

/-- The records of two-version tables. -/
def cfgVers (l : List CfgRec) : List (VTab × Nat × Nat × List Word) :=
  l.filterMap fun e => match e.obj with
    | .ver t => some (t, e.idx, e.first, e.data)
    | .reg _ => none

/-- The registers as the commit of what is staged would leave them. -/
def State.preview (s : State) : State :=
  s.changes.foldl (fun (t : State) c => t.setReg c.reg c.idx c.k c.v) { s with cmt := [] }

/-- The words of an entry as last written. -/
def State.verLast (s : State) (t : VTab) (i : Nat) : List Word :=
  ((s.vers t i).getLast?.map (·.words)).getD (List.replicate t.words 0)

/-! ## Values the chapters refuse -/

/-- Bytes an operation can add (Table 7-3). -/
def State.opGrowth (s : State) (o : Nat × Nat × Nat × Nat) : Nat :=
  match o.1 with
  | 1 => 4
  | 7 => (tmplOf (s.verLast .RW_ENCAP (o.2.2.2 % 4096))).len
  | 8 => (tmplOf (s.verLast .RW_ENCAP (o.2.2.2 % 4096))).len
  | 9 => 6
  | 11 => authSize (bits o.2.2.1 0 3) (bits o.2.2.1 8 8)
  | _ => 0

/-- A list names a reserved opcode or can grow a copy by more than 128 B (R277). -/
def State.listBad (s : State) (i : Nat) : Bool :=
  let l := listOps (s.verLast .RW_LIST i)
  l.any (fun o => decide (o.1 ≥ 12)) || decide ((l.map s.opGrowth).foldl (· + ·) 0 > 128)

/-- A template signs with another algorithm than R283 allows. -/
def State.tmplBad (s : State) (i : Nat) : Bool :=
  let t := tmplOf (s.verLast .RW_ENCAP i)
  t.sign && (t.ses == 0 || t.alg < 1 || t.alg > 3)

/-- A policer of mode 2 has PIR below CIR or PBS below CBS (Table 6-15). -/
def State.polBad (p : State) (i : Nat) : Bool :=
  p.fld F.POL_CFG.MODE i == 2 &&
  (decide (p.fld F.POL_CFG.EIR_PIR i < p.fld F.POL_CFG.CIR i) || decide (p.fld F.POL_CFG.EBS_PBS i < p.fld F.POL_CFG.CBS i))

/-- BASE_LO of a PTP list is a number of nanoseconds (R373, R249). -/
def State.baseBad (p : State) (r : Reg) (i : Nat) : Bool := !bit (p.reg r i 0) 1 && decide (p.reg r i 1 > 999999999)

/-- The links of level l written, with the fabric's own. -/
def State.linked (p : State) (l : Nat) : List Nat :=
  ((p.written .SCHED_LINK).map (·.1)).filterMap fun i => if i / 1048576 + 1 = l then some (i % 1048576) else none

/-- Two children of one node take the same strict slot (R360). -/
def State.slotTwice (p : State) (l : Nat) : Bool :=
  let ls := (p.linked l).filter fun n => (p.nodeLink l n).on l && (p.nodeLink l n).slot < 4
  ls.any fun n => ls.any fun m => n != m && (p.nodeLink l n).slot == (p.nodeLink l m).slot && (p.nodeLink l n).parent == (p.nodeLink l m).parent

/-- Queue q is one that a SCHED_QSEL word can select (R355). -/
def qselHas (v q : Nat) : Bool :=
  let n := 2 ^ min 12 (bits v 20 4)
  let b := bits v 0 20
  decide ((q + 1048576 - b) % 1048576 < n)

/-- A queue selected for port p ends elsewhere (R360). -/
def State.qselBad (p : State) (i : Nat) : Bool :=
  (p.linked 3).any fun q => qselHas (p.reg .SCHED_QSEL i 0) q &&
    (match p.path q with | some (_, _, port) => port != i / 16 | none => false)

/-- A tree that R360 or, with the fabric enabled, R593 refuses. -/
def State.treeBad (p : State) : Bool :=
  p.slotTwice 1 || p.slotTwice 2 || p.slotTwice 3 ||
  ((p.linked 2).any fun n => decide (p.fld F.SCHED_LINK.PARENT (1048576 + n) ≥ 1024)) ||
  (List.range 704).any p.qselBad

/-- A SCHED_QSEL that can select a virtual output queue while the fabric is enabled (R593). -/
def State.qselVoq (p : State) (i : Nat) : Bool :=
  p.flag F.FAB_CTL.EN 0 && decide (p.fld F.SCHED_QSEL.BASE i + 2 ^ min 12 (p.fld F.SCHED_QSEL.SPREAD i) > 524288)

/-- A pair that R402 refuses. -/
def State.pairBad2 (p : State) (i : Nat) : Bool :=
  let a := p.fld F.PRED_PAIR.PORT_A i
  let b := p.fld F.PRED_PAIR.PORT_B i
  let role (k : Nat) : Nat := p.fld F.PRED_PAIR.ROLE k % 3
  let byp (k : Nat) : Nat := p.fld F.PRED_PAIR.BYP k % 3
  let peer := p.fld F.PRED_PAIR.QUAD_PEER i
  let others := (List.range 16).filter (· != i)
  let holds (k q : Nat) : Bool := p.fld F.PRED_PAIR.PORT_A k == q || p.fld F.PRED_PAIR.PORT_B k == q
  !((a < 32 && b < 32) || (32 ≤ a && a < 40 && 32 ≤ b && b < 40)) ||
  portPl a != portPl b ||
  p.rate a != p.rate b ||
  others.any (fun k => role k != 0 && (holds k a || holds k b)) ||
  (byp i != 0 && (role i != 2 || others.any fun k => byp k == byp i)) ||
  (p.flag F.PRED_PAIR.QUAD_EN i &&
    (role peer != 2 || !p.flag F.PRED_PAIR.QUAD_EN peer || p.fld F.PRED_PAIR.QUAD_PEER peer != i)) ||
  (role i != 0 && p.kindOf (p.fld F.PRED_PAIR.DD_TABLE i) != 3)

/-- Two enabled streams share a key (R489). -/
def State.keyTwice (p : State) (i : Nat) : Bool :=
  p.flag F.PHX_STREAM.EN i &&
  (((p.written .PHX_STREAM).map (·.1)).any fun j => j != i && p.flag F.PHX_STREAM.EN j && p.streamKey j == p.streamKey i)

/-- A RATE that R512 refuses. -/
def State.pmuBad (p : State) (m : Nat) : Bool :=
  !p.flag F.PHX_PMU.TB m &&
  !((if p.nomF (p.fld F.PHX_PMU.FREQ_STREAM m) = 60 then [1, 2, 5, 10, 12, 15, 20, 30, 60, 120] else [1, 2, 5, 10, 25, 50, 100]).contains
    (p.fld F.PHX_PMU.RATE m))

/-- Samples a second of the SMP channels that conditions name (R546). -/
def State.smpLoad (p : State) : Nat :=
  let l := ((p.condList.filter fun c => p.fld F.EVT_COND.TYPE c == 2).map fun c => p.fld F.EVT_COND.SRC c % 1048576).foldl ins []
  (l.map fun k => if p.flag F.PHX_STREAM.EN (k % 4096) then p.smpRate (k % 4096) else 0).foldl (· + ·) 0

/-- A chain of more than n LOGIC conditions through lower operands begins at c. -/
def State.deeper (p : State) : Nat → Nat → Bool
  | 0, c => p.fld F.EVT_COND.TYPE c == 8
  | n + 1, c => p.fld F.EVT_COND.TYPE c == 8 && (p.operands c).any fun o => decide (o.1 < c) && State.deeper p n o.1

/-- Two stages shed one function (Table 17-6). -/
def State.shedTwice (p : State) (i : Nat) : Bool :=
  let f (k : Nat) : Nat := let v := p.fld F.PWR_SHED.FUNC k; if v > 4 then 0 else v
  f i != 0 && (List.range 4).any fun k => k != i && f k == f i

/-- The status with which a record is refused. s: before the command; t: with the records applied; p: once that is committed. -/
def cfgRefuse (expert : Bool) (s t p : State) (e : CfgRec) : Option Nat :=
  let i := e.idx
  let no (b : Bool) (st : Nat) : Option Nat := if b then some st else none
  match e.obj with
  | .ver .RW_LIST => no (t.listBad i) 0x300
  | .ver .RW_ENCAP => no (t.tmplBad i) 0x301
  | .ver _ => none
  | .reg r =>
    match r with
    | .PORT_QUAD_CFG => no (decide (t.nextNiben > 2)) Status.badParam
    | .PORT_CFG => no (decide (i < 32) && (e.data.any fun w => bit w.toNat 7)) Status.badParam
    | .POL_CFG => no (p.polBad i) 0x120
    | .QCI_GATE_CTL => no (p.baseBad r i) Status.badParam
    | .QCI_GATE_ENTRY => no (s.listBusy (1024 + i / 128) (i % 128 / 64)) 0x501
    | .GCL_CTL => no (p.baseBad r i) Status.badParam
    | .GCL_ENTRY => no (s.listBusy (i / 2048) (i % 2048 / 1024)) 0x501
    | .CAP_RING => no (t.ringInFw r i || t.ringHits r i) 0x401
    | .QTEL_RING => no (t.ringInFw r i || t.ringHits r i) 0x401
    | .PERF_RING => no (t.ringInFw r i || t.ringHits r i) 0x401
    | .PHX_REC => no (t.ringInFw r i || t.ringHits r i) 0x401
    | .SCHED_QSEL => no (p.treeBad || p.qselVoq i) 0x500
    | .SCHED_LINK => no p.treeBad 0x500
    | .FAB_CTL => no ((List.range 704).any p.qselVoq) 0x500
    | .PRED_PAIR => no (p.pairBad2 i) 0x600
    | .PHX_STREAM => if p.keyTwice i then some 0x700 else if p.ingest > 500000000 then some 0x701 else no (decide (p.smpLoad > 200000000)) 0x800
    | .PHX_PMU => no (p.pmuBad i) 0x702
    | .EVT_COND => if decide (p.smpLoad > 200000000) then some 0x800 else no (p.condList.any fun c => p.deeper 8 c) 0x801
    | .EVT_GPUB => no (s.flag F.EVT_GPUB.EN i && p.flag F.EVT_GPUB.EN i) 0x802
    | .EVT_GPUB_DATA => no (s.flag F.EVT_GPUB.EN i && p.flag F.EVT_GPUB.EN i) 0x802
    | .FAB_ROUTE => no (!expert) Status.expertDenied
    | .IRQ_SRC => no (decide (i < 32)) Status.badParam
    | .PWR_SHED => no (p.shedTwice i) Status.badParam
    | _ => none

/-! ## One configuration command -/

/-- A record as readback returns it (R714). -/
def State.cfgRead (s : State) (x : Bool) (e : CfgRec) : List Word :=
  let d (k : Nat) : Nat := match e.obj with
    | .reg r => s.regView r (s.cfgIdx x r e.idx) (e.first + k)
    | .ver t => wAt (s.verAt t e.idx s.cur) (e.first + k)
  [e.head, w32 e.idx] ++ (List.range e.data.length).map fun k => w32 (d k)

/-- A record stages a CMT word or an entry. -/
def CfgRec.stages (e : CfgRec) : Bool :=
  match e.obj with
  | .reg r => (List.range e.data.length).any fun j => ((r.masks (e.first + j)).cmt &&& r.cfgMask) != 0
  | .ver _ => true

/-- A record is refused: nothing changes, RESULT holds its offset (R714). -/
def cfgFail (s : State) (st off : Nat) : Reply := .done st s off []

/-- Check every record, then apply them all (R714); then what ARG asks of the command. -/
def cfgBody (op : Nat) (expert : Bool) (r : Req) (s : State) (more : State → Reply) : Reply :=
  match r.cfgRecs op false with
  | .error off => cfgFail s Status.badParam off
  | .ok l =>
    staging r s (l.any CfgRec.stages) fun u =>
      match u.cfgApply (op == 0x8011) l with
      | .error (off, st) => cfgFail s st off
      | .ok t =>
        let w := cfgVers l
        let v := t.verWrite w
        let p := v.preview
        match l.findSome? fun e => (cfgRefuse expert s v p e).map fun st => (st, e.off) with
        | some (st, off) => cfgFail s st off
        | none =>
          if w.isEmpty then more t
          else if w.all fun x => t.verFree x.1 x.2.1 then more v
          else .wait t (.rw w)

/-- A configuration command: with ARG bit 31 set, readback. -/
def cfgRun (c : Cmd) (dt : Nat) (r : Req) (s : State) (more : State → Reply) : Out :=
  let rd := bit r.arg.toNat 31
  runCmd { c with read := rd } dt r s fun s =>
    if !rd then cfgBody c.op (s.levelOk { c with expert := true, role := some 2 } r) r s more else
    match r.cfgRecs c.op true with
    | .error off => cfgFail s Status.badParam off
    | .ok l => .done 0 s 0 (wordsBytes (l.flatMap (s.cfgRead (c.op == 0x8011))))

/-- PORT_CONFIG (R33, R42, R43). -/
def execPortConfig (dt : Nat) (r : Req) (s : State) : Out := cfgRun { op := 0x30, role := some 1 } dt r s good
/-- EXM_TABLE_CONFIG (R156, R158). -/
def execExmTableConfig (dt : Nat) (r : Req) (s : State) : Out := cfgRun { op := 0x50, role := some 1 } dt r s good
/-- EXM_TABLE_CONFIG_X: every field of either descriptor as written (R217). -/
def execExmTableConfigX (dt : Nat) (r : Req) (s : State) : Out :=
  cfgRun { op := 0x8011, role := some 2, expert := true } dt r s good
/-- POL_CONFIG (R253). -/
def execPolConfig (dt : Nat) (r : Req) (s : State) : Out := cfgRun { op := 0x62, role := some 1 } dt r s good
/-- QCI_CONFIG (R245 to R252). -/
def execQciConfig (dt : Nat) (r : Req) (s : State) : Out := cfgRun { op := 0x63, role := some 1 } dt r s good
/-- RW_WRITE (R269 to R283). -/
def execRwWrite (dt : Nat) (r : Req) (s : State) : Out := cfgRun { op := 0x70, role := some 1 } dt r s good
/-- MACSEC_CONFIG (R289). -/
def execMacsecConfig (dt : Nat) (r : Req) (s : State) : Out := cfgRun { op := 0x71, role := some 1 } dt r s good
/-- ADM_CONFIG (R309, R331, R341). -/
def execAdmConfig (dt : Nat) (r : Req) (s : State) : Out := cfgRun { op := 0x80, role := some 1 } dt r s good
/-- MC_GROUP_WRITE (R335, R601). -/
def execMcGroupWrite (dt : Nat) (r : Req) (s : State) : Out := cfgRun { op := 0x81, role := some 1 } dt r s good
/-- CAP_RING_CONFIG (R343, R346). -/
def execCapRingConfig (dt : Nat) (r : Req) (s : State) : Out := cfgRun { op := 0x82, role := some 1 } dt r s good
/-- SCHED_CONFIG (R357, R360). -/
def execSchedConfig (dt : Nat) (r : Req) (s : State) : Out := cfgRun { op := 0x90, role := some 1 } dt r s good
/-- GCL_WRITE (R373 to R375). -/
def execGclWrite (dt : Nat) (r : Req) (s : State) : Out := cfgRun { op := 0x91, role := some 1 } dt r s good
/-- QTEL_CONFIG (R391 to R395, R818). -/
def execQtelConfig (dt : Nat) (r : Req) (s : State) : Out := cfgRun { op := 0x92, role := some 1 } dt r s good
/-- PRED_PAIR_CONFIG (R401, R402). -/
def execPredPairConfig (dt : Nat) (r : Req) (s : State) : Out := cfgRun { op := 0xA0, role := some 1 } dt r s good
/-- PRED_RCVY_CONFIG (R429). -/
def execPredRcvyConfig (dt : Nat) (r : Req) (s : State) : Out := cfgRun { op := 0xA1, role := some 1 } dt r s good
/-- TIME_CONFIG (R448 to R472). -/
def execTimeConfig (dt : Nat) (r : Req) (s : State) : Out := cfgRun { op := 0xB0, role := some 1 } dt r s good
/-- PHX_STREAM_CONFIG (R487, R489, R491). -/
def execPhxStreamConfig (dt : Nat) (r : Req) (s : State) : Out := cfgRun { op := 0xC0, role := some 1 } dt r s good
/-- PHX_HARM_CONFIG (R505). -/
def execPhxHarmConfig (dt : Nat) (r : Req) (s : State) : Out := cfgRun { op := 0xC1, role := some 1 } dt r s good
/-- PMU_CONFIG (R510, R512). -/
def execPmuConfig (dt : Nat) (r : Req) (s : State) : Out := cfgRun { op := 0xC2, role := some 1 } dt r s good
/-- REC_CONFIG (R517). -/
def execRecConfig (dt : Nat) (r : Req) (s : State) : Out := cfgRun { op := 0xC4, role := some 1 } dt r s good
/-- EVT_CONFIG (R530 to R552). -/
def execEvtConfig (dt : Nat) (r : Req) (s : State) : Out := cfgRun { op := 0xD0, role := some 1 } dt r s good
/-- FAB_CONFIG (R570, R593, R597). -/
def execFabConfig (dt : Nat) (r : Req) (s : State) : Out := cfgRun { op := 0xE0, role := some 1 } dt r s good

/-! ## FAULT_CONFIG (R767, R772, R781) -/

/-- The longest time of a proof in ns (Table 17-11). -/
def proofNs (line : Nat) : Nat :=
  if line < 16 then 110000000 else if 20 ≤ line && line < 28 then 260000000 else 160000000

/-- UNFENCE of a line's unit: a block reset and a proof the command waits for. -/
def State.unfence (s : State) (line : Nat) : Reply :=
  let u := unitOf line
  if !s.flt.fenced.contains u then fail Status.badParam s else
  match s.blockReset u with
  | none => fail Status.badParam s
  | some t => .wait { t with flt := { t.flt with proof := sset t.flt.proof u (t.now + proofNs u) } } (.proof u)

/-- What ARG asks of FAULT_CONFIG. -/
def faultMore (r : Req) (s : State) : Reply :=
  let a := r.arg.toNat
  let s := if bit a 0 then s.safeEnter .force 0 else s
  if bit a 1 then s.unfence (bits a 8 6) else good s

/-- FAULT_CONFIG (R781). -/
def execFaultConfig (dt : Nat) (r : Req) (s : State) : Out := cfgRun { op := 0xF0, role := some 2 } dt r s (faultMore r)
/-- FORCE_SAFE: FAULT_CONFIG with ARG bit 0 (Table 18-5). -/
def execForceSafe (dt : Nat) (r : Req) (s : State) : Out := cfgRun { op := 0xF0, role := some 2 } dt r s (faultMore r)
/-- UNFENCE: FAULT_CONFIG with ARG bit 1 (R767). -/
def execUnfence (dt : Nat) (r : Req) (s : State) : Out := cfgRun { op := 0xF0, role := some 2 } dt r s (faultMore r)

/-! ## CONFIG_READBACK (R714) -/

/-- The opcode of a configuration command, and its role. -/
def CfgCmd.cmd (k : CfgCmd) : Cmd :=
  match k with
  | .port => { op := 0x30, role := some 1 }
  | .exmTable => { op := 0x50, role := some 1 }
  | .exmTableX => { op := 0x8011, role := some 2, expert := true }
  | .pol => { op := 0x62, role := some 1 }
  | .qci => { op := 0x63, role := some 1 }
  | .rw => { op := 0x70, role := some 1 }
  | .macsec => { op := 0x71, role := some 1 }
  | .adm => { op := 0x80, role := some 1 }
  | .mcGroup => { op := 0x81, role := some 1 }
  | .capRing => { op := 0x82, role := some 1 }
  | .sched => { op := 0x90, role := some 1 }
  | .gcl => { op := 0x91, role := some 1 }
  | .qtel => { op := 0x92, role := some 1 }
  | .predPair => { op := 0xA0, role := some 1 }
  | .predRcvy => { op := 0xA1, role := some 1 }
  | .time => { op := 0xB0, role := some 1 }
  | .phxStream => { op := 0xC0, role := some 1 }
  | .phxHarm => { op := 0xC1, role := some 1 }
  | .pmu => { op := 0xC2, role := some 1 }
  | .recorder => { op := 0xC4, role := some 1 }
  | .evt => { op := 0xD0, role := some 1 }
  | .fab => { op := 0xE0, role := some 1 }
  | .fault => { op := 0xF0, role := some 2 }

/-- CONFIG_READBACK: a configuration command with ARG bit 31. -/
def execConfigReadback (dt : Nat) (k : CfgCmd) (r : Req) (s : State) : Out :=
  cfgRun k.cmd dt { r with arg := r.arg ||| 0x80000000 } s good

/-! ## SET_LATENCY_BUDGET (R731 to R733, R738) -/

/-- SET_LATENCY_BUDGET: stages PWR_BUDGET of the function in ARG[31:28], and its records when IN_LEN is not 0. -/
def execSetLatencyBudget (dt : Nat) (r : Req) (s : State) : Out :=
  runCmd { op := 0x20, role := some 1 } dt r s fun s =>
    let f := bits r.arg.toNat 28 4
    if f > 2 then fail Status.badParam s else
    match r.cfgRecs 0x20 false with
    | .error off => cfgFail s Status.badParam off
    | .ok l =>
      staging r s true fun u =>
        match u.cfgApply false l with
        | .error (off, st) => cfgFail s st off
        | .ok t =>
          match l.findSome? fun e => (cfgRefuse false s t t.preview e).map fun st => (st, e.off) with
          | some (st, off) => cfgFail s st off
          | none => good (t.stageFld F.PWR_BUDGET.BUDGET_US f (bits r.arg.toNat 0 28))

/-! ## Reports -/

/-- GET_INFO (Table 16-8): serial number, device identifier, firmware version and slot, member id, HOST_READY, SEC_STATE, and the
state of the channels. -/
def execGetInfo (dt : Nat) (r : Req) (s : State) : Out :=
  runCmd { op := 0x01, role := none } dt r s fun s =>
    let chans := (List.range 16).map fun c => w32 (b2n (s.session c).isSome + 2 * b2n ((s.txn.map (·.ch)) == some c))
    .done 0 s 0 ((Config.serial ++ List.replicate 16 0).take 16 ++ deviceId ++
      wordsBytes ([w32 ((s.sec.running.map (·.version)).getD 0), w32 (s.fld F.SEC_BOOT.BOOTED 0), w32 s.member, w32 (s.reg .HOST_READY 0 0), w32 s.secState] ++ chans))

/-- The counters of Table 2-8 in its order, eight bytes each. -/
def State.portCounters (s : State) (p : Nat) : Bytes :=
  let c (k : Ctr) (i : Nat) : Bytes := toLE (s.ctr k i) 8
  (macCtrs.take 14).flatMap (fun k => c k p) ++ (List.range 8).flatMap (fun n => c .RX_PFC (p * 8 + n)) ++
    (List.range 8).flatMap (fun n => c .TX_PFC (p * 8 + n)) ++ (macCtrs.drop 14).flatMap fun k => c k p

/-- PORT_COUNTERS (Table 2-8): the MAC counters of a front-panel port, eight bytes each. -/
def execPortCounters (dt : Nat) (r : Req) (s : State) : Out :=
  runCmd { op := 0x31, role := some 0, read := true } dt r s fun s =>
    let p := r.arg.toNat
    if p ≥ 40 then fail Status.badParam s else .done 0 s 0 ((s.lpiCount p).portCounters p)

/-- COUNTER_READ (R817): pairs from ARG[19:0] on, 16 bytes each; ARG bit 31 clears them as they are read. -/
def execCounterRead (dt : Nat) (r : Req) (s : State) : Out :=
  runCmd { op := 0x32, role := some 0, read := true } dt r s fun s =>
    let first := bits r.arg.toNat 0 20
    let n := r.w 0
    if n < 1 || n > 256 || first + n > 1048576 || r.inLen < 4 then fail Status.badParam s else
    let l := (List.range n).map (· + first)
    let out := l.flatMap fun i => let p := sget s.pairs (0, 0) i; toLE p.1 8 ++ toLE p.2 8
    let t := if bit r.arg.toNat 31 then l.foldl (fun (s : State) i => { s with pairs := sdel s.pairs i }) s else s
    .done 0 t 0 out

end Sys2Proof.Machine
end

