-- ==== Sys2Proof/Machine/Power.lean ====
section
/-! DEFINITION. Supply, HOLD, closure and OFF, the measures of the latency budgets, resets, and the start: starter, proofs, start
configuration (chapter 17, R641, R845, R846). -/
namespace Sys2Proof.Machine

/-! ## Thresholds (Table 17-1) -/

def State.startMv (s : State) : Nat := if s.pwr.high then 19500 else 36000

/-- WARN_N once what asserted it is over: it stays while STORE_FAULT holds. -/
def State.warnRelease (s : State) : State :=
  { s with pins := { s.pins with warnN := s.flag F.PWR_STAT.STORE_FAULT 0 || s.flag F.PWR_STAT.VIN_LOW 0 } }

/-- WARN_N is asserted. -/
def State.warn (s : State) : State := { s with pins := { s.pins with warnN := true } }

/-! ## OFF, closure (R739, R741, R744, R845) -/

/-- OFF: nothing runs and every ball is unpowered; what a cold reset keeps is kept. -/
def State.off (s : State) (lost thermal : Bool) : State :=
  outside s { State.reset with
    sec := secAfterReset s.sec true
    clock := { ref25 := s.clock.ref25 }
    pwr := {
      on := false
      high := s.pwr.high
      vin := s.pwr.vin
      store := s.pwr.store
      cap := s.pwr.cap
      power := 0
      closing := !lost
      lost := lost
      hot := s.pwr.hot
      thermal := thermal }
    journal := { s.journal with
      queue := []
      dropped := 0
      fresh := false } }

/-- Closure at a store voltage: forwarding stops, the last entry is signed, and the module enters OFF. Before MGMT there is no
final entry. -/
def State.closeDown (s : State) (mv : Nat) : State :=
  let s := s.setStore mv
  let s := s.tx.foldl (fun (s : State) e => s.loseTx e.1) s
  if s.ready 0 || s.flt.safe then (State.jFlush 4096 s).jSign.off false false else s.off true false

/-- CLOSURE (R739): the store has fallen to 40.0 V in HOLD, or in SAFE on the store. -/
def execClosure (dt : Nat) (mv : Nat) (s : State) : Out :=
  let s := s.advance dt
  if !s.pwr.on || !s.pwr.onStore || mv > 40000 then finish s else finish (s.closeDown mv)

/-- THERMAL_SHUTDOWN (R845): the power stage stops and no final entry is written. Temperatures in 1/256 °C. -/
def execThermalShutdown (dt : Nat) (die stage : Int) (s : State) : Out :=
  let s := s.advance dt
  if !s.pwr.on || (die < 115 * 256 && stage < 135 * 256) then finish s
  else
    let s := s.tx.foldl (fun (s : State) e => s.loseTx e.1) s
    finish (State.off { s with pwr := { s.pwr with hot := die } } true true)

/-! ## HOLD (R734 to R744) -/

/-- A port has had no frame of a protection class for IDLE_MS (R736). -/
def State.portIdle (s : State) (p : Nat) : Bool :=
  decide (s.now ≥ (sget s.ports {} p).protAt + 1000000 * max 1 (s.fld F.PWR_HOLD_CFG.IDLE_MS 0))

/-- Ports idle at a shed stage power down. -/
def State.shedPorts (s : State) : State :=
  ((List.range 40).filter fun p => s.portExists p && s.portIdle p).foldl (fun (s : State) p =>
    { s.portDown p with ports := sset s.ports p { sget s.ports {} p with down := true } }) s

/-- What a function loses when it is shed (Table 17-4, R526). -/
def State.shedFunc (s : State) (f : Nat) : State :=
  match f with
  | 1 => s.shedRecorder.setReady 11 false
  | 2 => s.harmNan
  | 3 => s.shedPorts
  | 4 => s.phxStop
  | _ => s

/-- What it has again when its stage is undone (R740, R526). -/
def State.unshedFunc (s : State) (f : Nat) : State :=
  match f with
  | 1 => s.setReady 11 (s.ready 2)
  | 3 => (s.ports.filter fun (e : Nat × Port) => e.2.down).foldl (fun (s : State) (e : Nat × Port) =>
      State.tryUp { s with ports := sset s.ports e.1 { sget s.ports {} e.1 with down := false } } e.1) s
  | 4 => s.phxBack
  | _ => s

/-- V_SHED of a stage in mV. -/
def State.shedMv (s : State) (k : Nat) : Nat := 100 * min 880 (s.fld F.PWR_SHED.V_SHED k)

/-- Run the next stage: it completes, and PWR_STAT.SHED and HOLD_STAGE report it. -/
def State.runStage (s : State) : State :=
  let k := s.pwr.shedDone
  let f := s.fld F.PWR_SHED.FUNC k
  let s := s.shedFunc f
  ((({ s with pwr := { s.pwr with shedDone := k + 1, shedFns := f :: s.pwr.shedFns } } : State).setFld F.PWR_STAT.SHED 0 (k + 1)).pulse 2)

/-- Run the stages whose voltage the store has reached, in index order (R735). -/
def State.runStages : Nat → State → State
  | 0, s => s
  | n + 1, s => if s.pwr.shedDone < 4 && s.pwr.store ≤ s.shedMv s.pwr.shedDone then State.runStages n s.runStage else s

/-- HOLD_ENTRY (R734, R735, R739, R743, R744): the converter runs from the store and the charger stops. In SAFE nothing else
changes; below 44.0 V closure begins at once. -/
def execHoldEntry (dt : Nat) (mv : Nat) (s : State) : Out :=
  let s := s.advance dt
  if !s.pwr.on || s.pwr.onStore then finish s else
  let s := ({ s with pwr := { s.pwr with
    onStore := true
    chargeAt := none } } : State).setStore mv
  if s.flt.safe then finish (if mv < 44000 then s.closeDown mv else s) else
  let s := ((s.setPower 3).warn).pulse 1
  finish (if mv < 44000 then s.closeDown mv else State.runStages 4 s)

/-- VIN_DIP_SHORT (R720). -/
def execVinDipShort (dt : Nat) (s : State) : Out :=
  let s := s.advance dt
  finish (if s.pwr.on then s.bump .PWR_DIP_SHORT 0 else s)

/-- SHED_STAGE (R735): the store has fallen to a stage's voltage. -/
def execShedStage (dt : Nat) (mv : Nat) (s : State) : Out :=
  let s := s.advance dt
  if s.power ≠ 3 then finish s else finish (State.runStages 4 (s.setStore mv))

/-- A reset that HOLD deferred is carried out as a warm reset (R747). -/
def State.deferredReset (s : State) : State :=
  let d := s.pwr.deferred
  let s := { s with pwr := { s.pwr with deferred := 0 } }
  if d = 0 || s.flt.cold then s else s.warmReset (d % 16) (decide (d ≥ 16))

/-- HOLD_EXIT (R740, R744, R747): VIN has held for 20 ms. A dip before MGMT starts again with a warm reset. -/
def execHoldExit (dt : Nat) (s : State) : Out :=
  let s := s.advance dt
  if !s.pwr.on || !s.pwr.onStore then finish s else
  let s : State := { s with pwr := { s.pwr with
    onStore := false
    chargeAt := if s.flag F.PWR_STAT.VIN_LOW 0 then none else some s.now
    undoAt := if s.pwr.shedDone = 0 then none else some s.now } }
  let s := s.warnRelease
  if s.flt.safe then finish s.deferredReset
  else
    if !s.ready 0 then finish (s.warmReset 8 false)
    else finish (s.setPower s.measured).endMeasures.deferredReset.clockBack

/-- SHED_UNDO (R740): the newest stage is undone, 1 ms after the one before. -/
def execShedUndo (dt : Nat) (s : State) : Out :=
  let s := s.advance dt
  match s.pwr.undoAt with
  | none => finish s
  | some t =>
    if s.pwr.onStore || s.pwr.shedDone = 0 || s.now < t + 1000000 then finish s else
    let k := s.pwr.shedDone - 1
    let f := s.pwr.shedFns.headD 0
    let s : State := { s with pwr := { s.pwr with
      shedDone := k
      shedFns := s.pwr.shedFns.tail
      undoAt := if k = 0 then none else some s.now } }
    finish ((s.setFld F.PWR_STAT.SHED 0 k).unshedFunc f)

/-! ## VIN and the store (R720 to R725) -/

/-- VIN_LOW (R721): on the 24 V class, from 16.5 V to below 18 V. -/
def execVinLow (dt : Nat) (mv : Nat) (s : State) : Out :=
  let s := s.advance dt
  if !s.pwr.on || !s.pwr.high || s.pwr.onStore || mv < 16500 || mv ≥ 18000 then finish s else
  let s : State := { s with pwr := { s.pwr with
    vin := mv
    chargeAt := none } }
  finish (s.setFld F.PWR_STAT.VIN_LOW 0 1).warn

/-- VIN_LOW_END (R721): VIN at or above 18.5 V for 20 ms. -/
def execVinLowEnd (dt : Nat) (mv : Nat) (s : State) : Out :=
  let s := s.advance dt
  if !s.flag F.PWR_STAT.VIN_LOW 0 || s.pwr.onStore || mv < 18500 then finish s else
  let s : State := { s with pwr := { s.pwr with
    vin := mv
    chargeAt := some s.now } }
  finish (s.setFld F.PWR_STAT.VIN_LOW 0 0).warnRelease

/-- STORE_ARMED (R723 to R725): the store's voltage; 80 V ends an estimate of its capacitance. -/
def execStoreArmed (dt : Nat) (mv : Nat) (s : State) : Out :=
  let s := s.advance dt
  finish (if s.pwr.on then s.setStore mv else s)

/-- 25 s of charging without 80 V (R724). -/
def State.chargeLate (s : State) (mv : Nat) : Bool :=
  (s.pwr.chargeAt.map fun t => decide (t + 25000000000 ≤ s.now)).getD false && decide (mv < 80000)

/-- STORE_FAULT (R724): firmware finds 25 s of charging without 80 V or, with low, its estimate below 0.9 mF; a reset clears it. -/
def execStoreFault (dt : Nat) (mv : Nat) (low : Bool) (s : State) : Out :=
  let s := s.advance dt
  if !s.pwr.on then finish s else
  let s := s.setStore mv
  if (if low then decide (s.pwr.cap ≠ 0 ∧ s.pwr.cap < 900000) else s.chargeLate mv) then finish ((s.setFld F.PWR_STAT.STORE_FAULT 0 1).warn.irqSignal 3 true) else finish s

/-! ## Measures (R730 to R733) -/

/-- A measure may be applied (R730): its budget and condition have held for 1 ms, and neither HOLD nor SAFE is in force (R728). -/
def State.measureOk (s : State) (m : Measure) : Bool :=
  s.pwr.on && decide (s.power < 3) && s.ready 0 && s.measureHeld m &&
  (match m with
   | .gatePipeline pl => !s.pwr.gated.contains pl && (s.ready (4 + pl) || s.plFenced pl)
   | .quiesce => !s.pwr.quiesce
   | .bankOff b => !s.pwr.banksOff.contains b
   | .dramRefresh => !s.pwr.dramRef)

/-- Apply a measure. -/
def State.applyMeasure (s : State) (m : Measure) : State :=
  match m with
  | .gatePipeline pl =>
    State.bypSettle (State.setReady { s with pwr := { s.pwr with gated := ins s.pwr.gated pl } } (4 + pl) false)
  | .quiesce =>
    (State.phxStop { s with pwr := { s.pwr with quiesce := true } }).setFld F.DRAM_STAT.SELF_REFRESH 1 1
  | .bankOff b => { s with pwr := { s.pwr with banksOff := ins s.pwr.banksOff b } }
  | .dramRefresh => State.setFld { s with pwr := { s.pwr with dramRef := true } } F.DRAM_STAT.SELF_REFRESH 1 1

/-- PWR_MEASURE_APPLY (R730). -/
def execPwrMeasureApply (dt : Nat) (m : Measure) (s : State) : Out :=
  let s := s.advance dt
  if s.measureOk m then finish (s.applyMeasure m).settlePower.clockBack else finish s

/-- What wakes a gated pipeline (R731): signal detect on a receiver of it, a commit that enables a port of it or lowers the budget (R733), or an
injection that names it. -/
def State.wakes (s : State) (pl : Nat) (c : WakeCause) : Bool :=
  match c with
  | .signalDetect => true
  | .commit => s.pwr.wake.contains pl
  | .injection => s.frames.any fun (e : Nat × Frame) => e.2.pl == pl

/-- PIPELINE_WAKE (R731, R732): a pipeline leaves power gating, and with it QUIESCE ends. SEC has reinstalled its ports' keys before their
links come up. -/
def execPipelineWake (dt : Nat) (pl : Fin 4) (c : WakeCause) (s : State) : Out :=
  let s := s.advance dt
  if !s.pwr.gated.contains pl || s.power ≥ 3 || !s.wakes pl c then finish s else
  let s := State.quiesceEnd { s with pwr := { s.pwr with gated := del s.pwr.gated pl, wake := del s.pwr.wake pl } }
  let s := if s.plFenced pl || s.sec.lifecycle = 3 then s else s.setReady (4 + pl) true
  let s := ((List.range 40).filter fun p => portPl p == pl).foldl State.tryUp s
  finish s.bypSettle.settlePower.clockBack

/-- PHX_BANK_WAKE (R492): a bank of the phasor engine runs again for a stream that has been enabled. -/
def execPhxBankWake (dt : Nat) (b : Fin 4) (s : State) : Out :=
  let s := s.advance dt
  if s.power < 3 && s.streamsOn.any fun i => i / 1024 == b.val then
    finish ({ s with pwr := { s.pwr with banksOff := del s.pwr.banksOff b } } : State).settlePower.clockBack
  else finish s

/-- PWR_STATUS (R726, R733): PWR_STAT in RESULT; the measures in force, VIN, the store's voltage, the capacitance estimate and
the input power. -/
def execPwrStatus (dt : Nat) (r : Req) (s : State) : Out :=
  runCmd { op := 0x21, role := some 0, read := true } dt r s fun s =>
    let lpi := (s.written .PORT_STATUS).any fun e => bit (s.reg .PORT_STATUS e.1 0) 3
    let m := b2n lpi + 2 * b2n (!s.pwr.gated.isEmpty) + 4 * b2n s.pwr.quiesce + 8 * b2n (!s.pwr.banksOff.isEmpty) + 16 * b2n s.pwr.dramRef
    .done 0 s (s.reg .PWR_STAT 0 0)
      (wordsBytes [w32 m, w32 (s.pwr.vin / 10), w32 (s.pwr.store / 10), w32 (s.pwr.cap / 1000), w32 s.pwr.power])

/-! ## Resets (R745 to R749) -/

/-- POWER_ON (R719, R741, R753): VIN reaches the start threshold. A start after closure has cause 7. -/
def execPowerOn (dt : Nat) (vinMv : Nat) (high : Bool) (straps : BitVec 3) (cfg : StartCfg) (s : State) : Out :=
  let s := s.advance dt
  if s.pwr.on || s.pwr.thermal || vinMv < (if high then 19500 else 36000) then finish s else
  let s : State := { s with
    startCfg := some cfg
    i2cAddr := 72 + straps.toNat
    pwr := { s.pwr with
      vin := vinMv
      chargeAt := some 0 } }
  finish (s.coldReset (if s.pwr.closing then 7 else 0) false high s.cfgUsed.ref25 s.cfgUsed.memberId)

/-- THERMAL_RESTART (R846). -/
def execThermalRestart (dt : Nat) (hottest : Int) (vinMv : Nat) (s : State) : Out :=
  let s := s.advance dt
  if s.pwr.on || !s.pwr.thermal || hottest > 90 * 256 || vinMv < s.startMv then finish s else
  let s : State := { s with pwr := { s.pwr with
    vin := vinMv
    hot := hottest
    chargeAt := some 0 } }
  finish (s.coldReset 0 false s.pwr.high s.cfgUsed.ref25 s.cfgUsed.memberId)

/-- PORST_N (R745): a cold reset; the straps and the start configuration are read again, VNOM_SEL is not (R843). -/
def execPorstN (dt : Nat) (straps : BitVec 3) (cfg : StartCfg) (s : State) : Out :=
  let s := s.advance dt
  if !s.pwr.on then finish s else
  let s : State := { s with
    startCfg := some cfg
    i2cAddr := 72 + straps.toNat }
  finish (s.doReset true 1 false)

/-- WRST_N (R745). -/
def execWrstN (dt : Nat) (straps : BitVec 3) (s : State) : Out :=
  let s := s.advance dt
  if !s.pwr.on then finish s else
  finish (State.doReset { s with i2cAddr := 72 + straps.toNat } false 2 false)

/-- WARM_RESET_REQUEST (R746). -/
def execWarmResetRequest (dt : Nat) (tryB : Bool) (s : State) : Out :=
  let s := s.advance dt
  finish (if s.pwr.on then s.doReset false 3 tryB else s)

/-- COLD_RESET_REQUEST (R746, R747). -/
def execColdResetRequest (dt : Nat) (tryB : Bool) (s : State) : Out :=
  let s := s.advance dt
  finish (if s.pwr.on then s.doReset true 4 tryB else s)

/-! ## The starter (R641, R661, R760, R778, R779) -/

/-- A slot's result in SEC_BOOT. -/
def State.slotResult (s : State) (b : Bool) (v : Nat) : State := s.setFld (if b then F.SEC_BOOT.B_RESULT else F.SEC_BOOT.A_RESULT) 0 v

/-- The mode of the fault collector that the start configuration selects, after a cold reset (R760). -/
def State.applyMode (s : State) : State :=
  if s.flt.modeSet then s else
  let s : State := { s with flt := { s.flt with modeSet := true } }
  if !s.cfgUsed.direct then s else
  let s := s.setFld F.FLT_CTL.MODE 0 0
  (List.range 64).foldl (fun (s : State) i => if bit s.faultWord i then s.irqSignal (64 + i) true else s) s

/-- Stage one runs from a verified slot. -/
def State.boot (s : State) (b : Bool) (img : Image) : State :=
  let s := (s.setFld F.SEC_BOOT.BOOTED 0 (b2n b)).extend 1 1 img.digest
  let s : State := { s with sec := { s.sec with running := some img } }
  (s.applyMode.setStage 1).wdogRestart true

/-- Try the slots in order. -/
def State.trySlots (s : State) : List Bool → State
  | [] => s.safeEnter .bootFail 0
  | b :: l =>
    let img := if b then s.sec.slotB else s.sec.slotA
    let v := verifySlot s.sec img
    let s := s.slotResult b v
    match img with
    | some i => if v = 1 then s.boot b i else State.trySlots s l
    | none => State.trySlots s l

/-- An entry of the persistent store is empty. -/
def Sec.without (x : Sec) : StoreItem → Sec
  | .ownerRoot => { x with ownerRoot := [] }
  | .ownerEpoch => { x with ownerEpoch := 0 }
  | .policy => { x with policy := 900 }
  | .operator i => { x with operators := sdel x.operators i }
  | .cak i => { x with caks := sdel x.caks i }
  | .gkey i => { x with gkeys := sdel x.gkeys i }

/-- An entry of the persistent store fails authentication as it is read: discarded, counted, SEC_ALERT (R633). -/
def State.storeBad (s : State) (i : StoreItem) : State :=
  State.pulse ({ s with sec := s.sec.without i } |>.bump .SEC_STORE_BAD 0) 0

/-- STARTER_RUN (R641): the flash slots as they are read, and the entries of the persistent store that fail authentication (R633). -/
def execStarterRun (dt : Nat) (slots : Option Image × Option Image) (bad : List StoreItem) (s : State) : Out :=
  let s := s.advance dt
  if !s.pwr.on || s.pwr.onStore || s.sec.running.isSome || s.fld F.HOST_READY.STAGE 0 ≠ 0 then finish s else
  let s : State := { s with sec := { s.sec with
    slotA := slots.1
    slotB := slots.2 } }
  let s := bad.foldl State.storeBad s
  let s : State := if s.sec.udsKill && s.sec.lifecycle ≠ 3 then { s with sec := { ownerGone s.sec with lifecycle := 3 } } else s
  let s : State := { s with journal := { s.journal with
    chain := Config.shake256 (([0x5A, 0x4B, 0x34, 0x38, 0x31, 0x36, 0x20, 0x4A, 0x4F, 0x55, 0x52, 0x4E, 0x41, 0x4C] : Bytes) ++ deviceId ++
      toLE s.journal.seq 8) } }
  let (d, s) := s.freshBytes 64
  let s := (s.extend 0 0 d).extend5
  let tryB := s.flag F.SEC_BOOT.TRY_B 0
  let s := (((s.setFld F.SEC_BOOT.TRY_B 0 0).setFld F.SEC_BOOT.A_RESULT 0 0).setFld F.SEC_BOOT.B_RESULT 0 0)
  finish (s.trySlots (if tryB then [true, false] else [false, true]))

/-! ## The start configuration and the defaults (R132, R310, R311, R359, R432, R448, R750, R751) -/

/-- A split that R311 accepts. -/
def poolsOk (l : List Nat) : Bool :=
  l.length == 4 && l.all (fun n => decide (n ≥ 64) && n % 64 == 0) &&
  decide (l.getD 0 0 + 4 * l.getD 1 0 + 8 * l.getD 2 0 + 64 * l.getD 3 0 ≤ 262144)

/-- Apply and commit the register records of the start configuration. -/
def State.applyCfg (s : State) (c : StartCfg) : State :=
  match cfgRecs 65536 false c.records.length 0 c.records with
  | .error _ => s
  | .ok l => match s.cfgApply false l with
    | .error _ => s
    | .ok t => (t.verWrite (cfgVers l)).commitGen

/-- The default tree of ports 0 to 43, staged (R359). -/
def State.defaultTree (s : State) : State :=
  (List.range 704).foldl (fun (s : State) n =>
    let s := s.stage .SCHED_LINK n 0 0x1FFFFFFF (65536 * defSlot (n % 16))
    let s := s.stage .SCHED_LINK (1048576 + n) 0 0x1FFFFFFF (n + 65536 * 4)
    s.stage .SCHED_LINK (2 * 1048576 + n) 0 0x1FFFFFFF (n + 65536 * 4)) s

/-- Bank 0 of every pipeline takes the named object, or the standard package, and is measured (R132, R117). -/
def State.loadBanks (s : State) : State :=
  let l := if s.cfgUsed.object.isEmpty then Config.standardPackage else s.cfgUsed.object
  let s := (List.range 4).foldl (fun (s : State) pl =>
    s.writeBank (2 * pl) l) s
  s.extend 3 3 (Config.shake256 ((objOf l).digest ++ toLE 15 4))

/-- What firmware does once before any pipeline posts READY: banks, pools, LOCK, tree. A LOCK that is set already keeps the split. -/
def State.firstPipeline (s : State) : State :=
  if s.pwr.plWas then s else
  let c := s.cfgUsed
  let s := State.loadBanks { s with pwr := { s.pwr with plWas := true } }
  let s := if poolsOk c.pools && !s.flag F.BUF_CTL.LOCK 0 then
      (List.range 4).foldl (fun (s : State) k => s.setReg .BUF_POOL_CFG k 0 (c.pools.getD k 0)) s
    else if poolsOk c.pools then s
    else { s with pwr := { s.pwr with splitStat := 0x400 } }
  let s := s.setFld F.BUF_CTL.LOCK 0 1
  if c.tree then s else s.defaultTree.commitGen

/-- STATIC FDB entries for the supervision addresses of the pairs, in every FDB table (R432). Which address of the range the pairs use,
its VID and where else its frames go are free. -/
def State.supervision (s : State) : State :=
  if (List.range 16).all fun k => s.fld F.PRED_PAIR.ROLE k % 3 == 0 then s else
  ((List.range 256).filter fun t => s.kindOf t == 1).foldl (fun (s : State) t =>
    let (v, s) := s.fresh
    let key := 0x01154E000100 + v % 256 + 281474976710656 * (v / 256 % 4096)
    match s.exmWrite t (s.descAt t s.cur) 0 true true key (v / 1048576 % 65536 + 262144) with
    | .ok _ s => s
    | _ => s) s

/-- TIME_CAL takes the factory delays (R448). -/
def State.loadCal (s : State) : State :=
  (List.range 880).foldl (fun (s : State) i => s.setReg .TIME_CAL (i / 2) (i % 2) (Config.factoryCal i % 16777216)) s

/-! ## Proofs (R755, R756, Table 17-11) -/

/-- The READY bit of a function. -/
def Fn.bit : Fn → Nat
  | .sec => 1 | .mgmt => 0 | .time => 3 | .pl i => 4 + i | .hsr => 8 | .evt => 10 | .hdma => 13 | .phx => 9 | .fab => 12 | .dramRec => 2

/-- Where the missed limits of a function are counted. -/
def Fn.code : Fn → Nat
  | .sec => 0 | .mgmt => 1 | .time => 2 | .pl i => 3 + i | .hsr => 7 | .evt => 8 | .hdma => 9 | .phx => 10 | .fab => 11 | .dramRec => 12

/-- The pipelines that the pairs name are ready. -/
def State.pairPlsReady (s : State) : Bool :=
  (List.range 16).all fun k => s.fld F.PRED_PAIR.ROLE k % 3 == 0 || s.ready (4 + portPl (s.fld F.PRED_PAIR.PORT_A k))

/-- A function may proof: an image runs, its prerequisites are READY (Table 17-11), no dip holds up a start before MGMT (R744), and
the safe state does not keep it stopped (Table 18-6). -/
def State.mayProof (s : State) (f : Fn) : Bool :=
  s.pwr.on && s.sec.running.isSome && (s.ready 0 || !s.pwr.onStore) &&
  (match f with
   | .sec => true
   | .mgmt => s.ready 1
   | .time => s.ready 0
   | .pl _ => s.ready 0 && s.ready 3 && !s.flt.safe && s.sec.lifecycle != 3
   | .hsr => s.ready 0 && s.pairPlsReady && !s.flt.safe
   | .evt => s.ready 0 && !s.flt.safe
   | .hdma => s.ready 0
   | .phx => s.ready 0 && s.ready 3 && !s.flt.safe
   | .fab => s.ready 1 && (List.range 4).all (fun p => s.ready (4 + p)) && !s.flt.safe
   | .dramRec => s.ready 0)

/-- The function that proofs a line's unit under UNFENCE (R767). -/
def proofFn (line : Nat) : Option Fn :=
  let pl (n : Nat) : Fn := .pl ⟨n % 4, Nat.mod_lt _ (by decide)⟩
  if line < 16 then some (pl line) else if 20 ≤ line && line < 28 then some .fab else if 28 ≤ line && line < 32 then some .phx else none

/-- The lines whose units a function proofs now. -/
def State.proofLines (s : State) (f : Fn) : List Nat := (s.flt.proof.map (·.1)).filter fun i => proofFn i == some f

/-- The proof of a line's unit ends: the fence goes when it passed. The waiting command completes. -/
def State.endProof (s : State) (line : Nat) (ok : Bool) : State :=
  let s : State := { s with
    flt := { s.flt with
      proof := sdel s.flt.proof line
      fenced := if ok then del s.flt.fenced line else s.flt.fenced }
    tries := sdel s.tries (16 + line) }
  match s.mbx.find? fun e => match e.2.busy with | some (_, .proof l) => l == line | _ => false with
  | some (ch, _) => s.completeWait ch (if ok then 0 else Status.notReady) 0 []
  | none => s

/-- MGMT: the start configuration is measured and applied, and the module is in STAGE 2 (R679, R751, R771, R744). -/
def State.mgmtReady (s : State) : State :=
  let (d, s) := s.freshBytes 64
  let s := s.extend 2 2 d
  let ok := (s.startCfg.map s.cfgOk).getD false
  let s := s.extend 4 4 (if ok then Config.shake256 s.cfgUsed.content else List.replicate 64 0)
  let s := s.setFld F.PWR_STAT.START_CFG_BAD 0 (b2n !ok)
  let s := if ok then s.applyCfg s.cfgUsed else s
  let s := (s.setFld F.FLT_ESC.WDOG_RESETS 0 0).wdogRestart false
  let s := if s.pwr.lost then State.journal1 { s with pwr := { s.pwr with lost := false } } 5 0 else s
  let s := if s.fld F.HOST_READY.STAGE 0 = 1 then s.setStage 2 else s
  let s : State := if s.flt.safe then s else { s with pins := { s.pins with okN := true } }
  s.setReady 0 true

/-- What a function does as it posts READY. SEC signs the first entries of the start (R779). -/
def State.fnReady (s : State) (f : Fn) : State :=
  match f with
  | .sec => (State.jFlush 4096 s).jSign.setReady 1 true
  | .mgmt => s.mgmtReady
  | .time =>
    let s := s.loadCal
    let (d, s) := s.freshBytes 64
    let s : State := { s with clock := { s.clock with pllLocked := true } }
    ((s.extend 6 6 d).setReady 3 true).gatesReady
  | .pl i =>
    let t := s.firstPipeline
    if t.plFenced i || t.pwr.gated.contains i.val then t else (t.setReady (4 + i) true).bypSettle
  | .hsr => (({ s with dd := [] } : State).supervision.setReady 8 true).bypSettle
  | .evt => s.setReady 10 true
  | .hdma => s.ringsReset.setReady 13 true
  | .phx => State.phxBack { s with pwr := { s.pwr with phxWas := true } }
  | .fab => (s.setReady 12 true).linksSettle
  | .dramRec =>
    let s := (List.range 2).foldl (fun (s : State) i => s.setReg .DRAM_STAT i 0 1) s
    (s.setReady 2 true).setReady 11 (!s.shed 1)

/-- The functions whose proofs come before (Table 17-11); MGMT posts as STAGE 2 begins. -/
def State.before (s : State) (f : Fn) : List Fn :=
  match f with
  | .sec | .mgmt => []
  | .time | .evt | .hdma | .dramRec => [.mgmt]
  | .pl _ | .phx => [.mgmt, .time]
  | .hsr => .mgmt :: ((List.finRange 4).filter fun pl =>
      (List.range 16).any fun k => s.fld F.PRED_PAIR.ROLE k % 3 != 0 && portPl (s.fld F.PRED_PAIR.PORT_A k) == pl.val).map Fn.pl
  | .fab => [.mgmt, .sec, .pl 0, .pl 1, .pl 2, .pl 3]

/-- The limit of a proof in ns (Table 17-11). SEC and MGMT have none but STAGE 2 itself. -/
def Fn.limit : Fn → Nat
  | .sec | .mgmt => 0
  | .time => 20000000 | .pl _ => 110000000 | .hsr => 5000000 | .evt | .hdma => 115000000
  | .phx => 160000000 | .fab => 260000000 | .dramRec => 460000000

/-- The limit of a function's proof has passed: from STAGE 2 or its last prerequisite, or from the first miss (R755, R756). -/
def State.proofLate (s : State) (f : Fn) : Bool :=
  let from_ := ((s.before f).map fun g => sget s.proofAt 0 g.code).foldl max (sget s.proofAt 0 (16 + f.code))
  decide (from_ + f.limit ≤ s.now)

/-- PROOF_DONE (R755, R767): a function posts READY; the fences whose units it proofed end. -/
def execProofDone (dt : Nat) (f : Fn) (s : State) : Out :=
  let s := s.advance dt
  let ls := s.proofLines f
  if !s.mayProof f || (s.ready f.bit && ls.isEmpty) || (sget s.tries 0 f.code ≥ 2 && ls.isEmpty) then finish s else
  let s := ls.foldl (fun (s : State) i => s.endProof i (sget s.flt.proof 0 i != 0)) s
  if s.ready f.bit then finish s.bypSettle.clockBack
  else finish (State.fnReady { s with proofAt := sset s.proofAt f.code s.now } f).clockBack

/-- PROOF_TIMEOUT (R756): the first miss runs the proof once more; the second raises PROOF_FAIL and, under UNFENCE, ends with
NOT_READY. -/
def execProofTimeout (dt : Nat) (f : Fn) (s : State) : Out :=
  let s := s.advance dt
  let ls := s.proofLines f
  if !s.mayProof f then finish s
  else if !ls.isEmpty then
    finish (ls.foldl (fun (s : State) i =>
      let n := sget s.tries 0 (16 + i)
      if s.now < sget s.flt.proof 0 i then s
      else if n = 0 then
        { s with
          tries := sset s.tries (16 + i) 1
          flt := { s.flt with proof := sset s.flt.proof i (s.now + proofNs i) } }
      else (s.endProof i false).raise 19) s)
  else if s.ready f.bit || sget s.tries 0 f.code ≥ 2 || !s.proofLate f then finish s
  else
    let n := sget s.tries 0 f.code + 1
    let s : State := { s with
      tries := sset s.tries f.code n
      proofAt := sset s.proofAt (16 + f.code) s.now }
    finish (if n ≥ 2 then s.raise 19 else s)

end Sys2Proof.Machine
end

