-- ==== Sys2Proof/Machine/HostIf.lean ====
section
/-! DEFINITION. The P40 rings (R704 to R708), the I2C target and the console (R709 to R711), the test port (R664 to R667), the status
commands of time and the fabric, and SAK installation (R636). -/
namespace Sys2Proof.Machine

/-! ## P40 rings -/

def State.ring (s : State) (k : Nat) : Ring := sget s.rings {} k
def State.setRing (s : State) (k : Nat) (x : Ring) : State := { s with rings := sput s.rings {} k x }

/-- HDMA_TX_DOORBELL (R704): the transmit producer index. -/
def execHdmaTxDoorbell (dt : Nat) (ring : Fin 8) (pi : BitVec 16) (s : State) : Out :=
  let s := s.advance dt
  if !s.flag F.HDMA_TX.EN ring then finish s else finish (s.setRing ring { s.ring ring with pi := pi.toNat })

/-- HDMA_RX_DOORBELL (R704): the receive producer index, and the slots posted before that the host has changed since (R717). -/
def execHdmaRxDoorbell (dt : Nat) (ring : Fin 8) (post : RxPost) (s : State) : Out :=
  let s := s.advance dt
  if !s.flag F.HDMA_RX.EN ring then finish s
  else finish (s.setRing (8 + ring) { s.ring (8 + ring) with pi := post.pi.toNat, changed := (s.ring (8 + ring)).changed ++ post.changed })

/-- A transmit ring has a slot to serve. -/
def State.txWork (s : State) (r : Nat) : Bool := s.flag F.HDMA_TX.EN r && s.fld F.HDMA_TX.CI r != (s.ring r).pi

/-- The ring whose turn it is (R706). -/
def State.txTurn (s : State) : Option Nat := ((List.range 8).map fun i => (s.rrRing + i) % 8).find? s.txWork

/-- A transmit slot is written DONE with a result; the turn passes on. -/
def State.txDone (s : State) (r result : Nat) : State :=
  let x := s.ring r
  let i := s.fld F.HDMA_TX.CI r
  let s : State := { s.setRing r { x with done := x.done ++ [(i, result)], held := none } with rrRing := (r + 1) % 8 }
  (s.setFld F.HDMA_TX.CI r ((i + 1) % 65536)).pulse (192 + r)

/-- HDMA_TX_FRAME (R705, R706): the ring whose turn it is serves its next slot; a frame is held back while P40's queue is full. A frame the host
changed meanwhile has undefined contents (R717). -/
def execHdmaTxFrame (dt : Nat) (ring : Fin 8) (t : TxSlot) (s : State) : Out :=
  let s := s.advance dt
  if !s.ready 13 || s.txTurn ≠ some ring.val then finish s else
  let t := (s.ring ring).held.getD t
  if t.dmaErr then finish (s.txDone ring 2)
  else if t.count < 60 || t.count > 16380 then finish (s.txDone ring 1)
  else
    let pl := (t.pipeline.getD (s.fld F.HDMA_TX.PIPELINE ring)) % 4
    let (b, s) := if t.changed then s.freshBytes t.count else (fit t.count t.bytes, s)
    match s.inject 40 pl b with
    | some u => finish (u.txDone ring 0)
    | none => finish (s.setRing ring { s.ring ring with held := some t })

/-! ## I2C (R709, R710) -/

/-- The multi-byte values of Table 16-11: offset, bytes, value. -/
def State.i2cValues (s : State) : List (Nat × Nat × Nat) :=
  [(0x00, 4, s.reg .HOST_READY 0 0), (0x04, 4, s.secState), (0x08, 8, s.faultWord), (0x10, 2, unsgn s.pwr.hot 16),
   (0x12, 2, s.pwr.vin / 10), (0x14, 2, s.pwr.power), (0x16, 2, s.pwr.store / 10), (0x18, 1, s.power)]

/-- One byte at the pointer, which moves on. The latch holds the offset and the bytes of the value read last. -/
def State.i2cByte (s : State) : Nat × State :=
  let a := s.i2cPtr
  let t : State := { s with i2cPtr := (a + 1) % 256 }
  if 0x20 ≤ a && a < 0x30 then ((Config.serial.getD (a - 0x20) 0).toNat, t) else
  match s.i2cValues.find? fun v => decide (v.1 ≤ a) && decide (a < v.1 + v.2.1) with
  | none => (0, t)
  | some (o, n, v) =>
    let l := (List.range n).map fun i => v / 256 ^ i % 256
    match s.i2cLatch with
    | b :: m => if a ≠ o && b = o then (m.getD (a - o) 0, t) else (l.getD (a - o) 0, if a = o then { t with i2cLatch := o :: l } else t)
    | [] => (l.getD (a - o) 0, if a = o then { t with i2cLatch := o :: l } else t)

/-- n bytes. -/
def State.i2cRun : Nat → State → List Word × State
  | 0, s => ([], s)
  | n + 1, s =>
    let (b, s) := s.i2cByte
    let (l, s) := State.i2cRun n s
    (w32 b :: l, s)

/-- I2C_READ: the pointer, where the controller writes it, and n bytes. -/
def execI2cRead (dt : Nat) (ptr : Option Byte) (n : Nat) (s : State) : Out :=
  let s := s.advance dt
  if !s.pwr.on then finish { s with rd := [] } else
  let s : State := { s with i2cPtr := (ptr.map (·.toNat)).getD s.i2cPtr }
  let (l, s) := State.i2cRun n s
  finish { s with rd := l }

/-! ## Console (R711) -/

/-- UART_COMMAND: the read commands in every debug state, the test commands in VENDOR; nothing else is accepted. -/
def execUartCommand (dt : Nat) (l : UartLine) (s : State) : Out :=
  let s := s.advance dt
  if s.sec.running.isNone then finish s else
  let t : State := { s with uart := s.uart ++ [l] }
  match l with
  | .version => finish { t with rd := [w32 ((s.sec.running.map (·.version)).getD 0)] }
  | .ready => finish { t with rd := [w32 (s.reg .HOST_READY 0 0)] }
  | .faults => finish { t with rd := [w32 (s.reg .FAULT_WORD 0 0), w32 (s.reg .FAULT_WORD 0 1)] }
  | .zeinekTest => finish (if s.sec.debug = 1 then t else s)
  | .other => finish s

/-! ## The test port (R664, R666, R667) -/

/-- A register the debug port reads or writes outside SEC. -/
def RegAddr.outsideSec (a : RegAddr) : Bool := a.wf && a.reg != .SEC_BOOT && a.reg != .SEC_STATE

/-- Bytes of the debug port's address space: DRAM, then SRAM. -/
def State.debugByte (s : State) (a : Nat) : Byte := if a < dramSize then (s.dramBytes a 1).getD 0 0 else memRead s.sram (a - dramSize)

/-- JTAG_ACCESS (Table 15-8): what the debug state does not grant has no effect. -/
def execJtagAccess (dt : Nat) (o : JtagOp) (s : State) : Out :=
  let s := s.advance dt
  if !s.pwr.on then finish s else
  match o with
  | .bypass => finish s
  | .idcode =>
    let (v, s) := s.fresh
    finish { s with rd := [w32 v] }
  | .sample => finish s
  | .extest => finish (s.safeEnter .extest 0)
  | .zeinekTest => finish s
  | .halt => finish s
  | .challenge level =>
    if (level ≠ 1 && level ≠ 2) || s.sec.rngFail then finish s else
    let (c, s) := s.challenge level
    finish { s with rd := c.map fun b => w32 b.toNat }
  | .unlock sig ownerSig =>
    let (st, s) := s.unlock sig ownerSig
    finish { s with rd := [w32 st] }
  | .readReg a =>
    if s.sec.debug = 0 || !(a.outsideSec || (s.sec.debug = 1 && a.wf && a.reg = .SEC_STATE)) then finish s
    else
      let (v, s) := State.rawRead (if s.addrStopped a then s.undefined .stoppedClock else s) a
      finish { s with rd := [w32 v] }
  | .readMem a at_ =>
    if s.sec.debug = 0 then finish s else
    match at_ with
    | none => finish { s with rd := [w32 (s.debugByte a).toNat] }
    | some b =>
      let (v, s) := s.rawRead b
      finish { s with rd := [w32 (v / 256 ^ (a % 4) % 256)] }
  | .writeReg a v =>
    if s.sec.debug ≠ 1 || !a.outsideSec then finish s else
    finish (s.rawWrite a v.toNat)
  | .writeMem a at_ v =>
    if s.sec.debug ≠ 1 then finish s else
    match at_ with
    | some b =>
      let (w, s) := s.rawRead b
      finish (s.rawWrite b (putBits w (8 * (a % 4)) 8 v.toNat))
    | none =>
    if a < dramSize then finish (s.dramWrite 3 a [v])
    else finish { s with sram := memWrite s.sram (a - dramSize) v }

/-! ## Status commands (R700) -/

/-- TIME_STATUS: the state of the device clock; RESULT is TIME_STATUS, and the output its rate, PTP time and the grid angle. The spec
lists the command and gives no layout. -/
def execTimeStatusCmd (dt : Nat) (r : Req) (s : State) : Out :=
  runCmd { op := 0xB1, role := some 0, read := true } dt r s fun s =>
    .done 0 s (s.reg .TIME_STATUS 0 0) (wordsBytes [w32 (s.reg .TIME_RATE 0 0), w32 (ptpNs s.ptp), w32 (ptpSec s.ptp),
      w32 (ptpSec s.ptp / 4294967296 % 65536), w32 s.gridNow, w32 (s.gridNow / 4294967296)])

/-- FAB_STATUS: FAB_STATE in RESULT; the epoch, its digest and the states of the links. The spec lists the command and gives no
layout. -/
def execFabStatus (dt : Nat) (r : Req) (s : State) : Out :=
  runCmd { op := 0xE1, role := some 0, read := true } dt r s fun s =>
    .done 0 s (s.reg .FAB_STATE 0 0) (wordsBytes ((List.range 18).map (fun k => w32 (s.reg .FAB_EPOCH 0 k)) ++
      (List.range 8).map fun l => w32 (s.reg .FAB_LINK_STAT l 0)))

/-! ## MACsec keys -/

/-- The SAK to be installed under a CAK (R635): with no PDU this member is the key server and generates it, 32 bytes with SSCI and salt; the
SAK of a received PDU is taken when the PDU's ICV matches and it unwraps. -/
def State.sakOf (s : State) (cak : Nat) (mka : Option MkaPdu) : Option (Bytes × State) :=
  match sfind s.sec.caks cak, mka with
  | none, _ => none
  | some _, none => if s.sec.rngFail then none else some (s.freshBytes 48)
  | some (ckn, c), some m =>
    if Config.mkaIcv (Config.mkaKey 0 c ckn) m.body ≠ m.icv then none
    else (Config.sakUnwrap (Config.mkaKey 1 c ckn) m.wrapped).map fun k => (k, s)

/-- SAK_INSTALL_DONE (R293, R635, R636): a SAK is installed under an association number, for transmission and for the receive SCs that MKA
keeps, at most four; SCs it no longer names go (DESIGN CHOICE, log 229). Packet numbers begin at 1. Transmission under the SA begins with
the commit that makes its TX_AN current. -/
def execSakInstallDone (dt : Nat) (p : Fin 32) (sa : SaInstall) (s : State) : Out :=
  let s := s.advance dt
  if s.sec.debug = 1 || !s.ready 1 then finish s else
  match s.sakOf sa.cak sa.mka with
  | none => finish s
  | some (k, s) =>
  let scs := ((sa.scs.map (· % 18446744073709551616)).eraseDups).take 4
  let other (i : Nat) : Bool := i / 73786976294838206464 != p.val || scs.contains (i / 4 % 18446744073709551616)
  finish { s with
    txSa := sset s.txSa (4 * p.val + sa.an.val) { key := k }
    rxSa := scs.foldl (fun m c => sset m (saKey p c sa.an) { key := k }) (s.rxSa.filter fun e => other e.1) }

end Sys2Proof.Machine
end

