-- ==== Sys2Proof/Machine/Dispatch.lean ====
section
/-! DEFINITION. One arm for each command. -/
namespace Sys2Proof.Machine

/-- The effect of a command on everything but the queue. -/
def exec (i : Instr) (s : State) : Host.Outcome State Fault Refusal :=
  match i with
  | .mbxNop dt r => Sys2Proof.Machine.execMbxNop dt r s
  | .getInfo dt r => Sys2Proof.Machine.execGetInfo dt r s
  | .txnBegin dt r => Sys2Proof.Machine.execTxnBegin dt r s
  | .batchTxnBegin dt r => Sys2Proof.Machine.execBatchTxnBegin dt r s
  | .txnCommit dt r => Sys2Proof.Machine.execTxnCommit dt r s
  | .txnAbort dt r => Sys2Proof.Machine.execTxnAbort dt r s
  | .setLatencyBudget dt r => Sys2Proof.Machine.execSetLatencyBudget dt r s
  | .pwrStatus dt r => Sys2Proof.Machine.execPwrStatus dt r s
  | .portConfig dt r => Sys2Proof.Machine.execPortConfig dt r s
  | .portCounters dt r => Sys2Proof.Machine.execPortCounters dt r s
  | .counterRead dt r => Sys2Proof.Machine.execCounterRead dt r s
  | .loadRecipe dt r => Sys2Proof.Machine.execLoadRecipe dt r s
  | .recipeBankWrite dt pl => Sys2Proof.Machine.execRecipeBankWrite dt pl s
  | .exmTableConfig dt r => Sys2Proof.Machine.execExmTableConfig dt r s
  | .exmWrite dt r => Sys2Proof.Machine.execExmWrite dt r s
  | .exmSearch dt r => Sys2Proof.Machine.execExmSearch dt r s
  | .tableNext dt r => Sys2Proof.Machine.execTableNext dt r s
  | .flushByPort dt r => Sys2Proof.Machine.execFlushByPort dt r s
  | .flushWalk dt => Sys2Proof.Machine.execFlushWalk dt s
  | .lpmWrite dt r => Sys2Proof.Machine.execLpmWrite dt r s
  | .lpmSearch dt r => Sys2Proof.Machine.execLpmSearch dt r s
  | .tcamWrite dt r => Sys2Proof.Machine.execTcamWrite dt r s
  | .tcamRead dt r => Sys2Proof.Machine.execTcamRead dt r s
  | .polConfig dt r => Sys2Proof.Machine.execPolConfig dt r s
  | .qciConfig dt r => Sys2Proof.Machine.execQciConfig dt r s
  | .rwWrite dt r => Sys2Proof.Machine.execRwWrite dt r s
  | .rwVersionWait dt ch => Sys2Proof.Machine.execRwVersionWait dt ch s
  | .macsecConfig dt r => Sys2Proof.Machine.execMacsecConfig dt r s
  | .admConfig dt r => Sys2Proof.Machine.execAdmConfig dt r s
  | .mcGroupWrite dt r => Sys2Proof.Machine.execMcGroupWrite dt r s
  | .capRingConfig dt r => Sys2Proof.Machine.execCapRingConfig dt r s
  | .bufUnquarantine dt r => Sys2Proof.Machine.execBufUnquarantine dt r s
  | .schedConfig dt r => Sys2Proof.Machine.execSchedConfig dt r s
  | .gclWrite dt r => Sys2Proof.Machine.execGclWrite dt r s
  | .qtelConfig dt r => Sys2Proof.Machine.execQtelConfig dt r s
  | .predPairConfig dt r => Sys2Proof.Machine.execPredPairConfig dt r s
  | .predRcvyConfig dt r => Sys2Proof.Machine.execPredRcvyConfig dt r s
  | .timeConfig dt r => Sys2Proof.Machine.execTimeConfig dt r s
  | .timeStatusCmd dt r => Sys2Proof.Machine.execTimeStatusCmd dt r s
  | .phxStreamConfig dt r => Sys2Proof.Machine.execPhxStreamConfig dt r s
  | .phxHarmConfig dt r => Sys2Proof.Machine.execPhxHarmConfig dt r s
  | .pmuConfig dt r => Sys2Proof.Machine.execPmuConfig dt r s
  | .pmuServer dt r => Sys2Proof.Machine.execPmuServer dt r s
  | .recConfig dt r => Sys2Proof.Machine.execRecConfig dt r s
  | .recTrigger dt r => Sys2Proof.Machine.execRecTrigger dt r s
  | .recRelease dt r => Sys2Proof.Machine.execRecRelease dt r s
  | .recRead dt r => Sys2Proof.Machine.execRecRead dt r s
  | .evtConfig dt r => Sys2Proof.Machine.execEvtConfig dt r s
  | .evtResetLatch dt r => Sys2Proof.Machine.execEvtResetLatch dt r s
  | .evtLogRead dt r => Sys2Proof.Machine.execEvtLogRead dt r s
  | .fabConfig dt r => Sys2Proof.Machine.execFabConfig dt r s
  | .fabStatus dt r => Sys2Proof.Machine.execFabStatus dt r s
  | .faultConfig dt r => Sys2Proof.Machine.execFaultConfig dt r s
  | .forceSafe dt r => Sys2Proof.Machine.execForceSafe dt r s
  | .unfence dt r => Sys2Proof.Machine.execUnfence dt r s
  | .journalRead dt r => Sys2Proof.Machine.execJournalRead dt r s
  | .sessionBegin dt r => Sys2Proof.Machine.execSessionBegin dt r s
  | .sessionFinish dt r => Sys2Proof.Machine.execSessionFinish dt r s
  | .sessionClose dt r => Sys2Proof.Machine.execSessionClose dt r s
  | .secQuote dt r => Sys2Proof.Machine.execSecQuote dt r s
  | .secCert dt r => Sys2Proof.Machine.execSecCert dt r s
  | .secExtend dt r => Sys2Proof.Machine.execSecExtend dt r s
  | .operatorEnrol dt r => Sys2Proof.Machine.execOperatorEnrol dt r s
  | .operatorRemove dt r => Sys2Proof.Machine.execOperatorRemove dt r s
  | .provision dt r => Sys2Proof.Machine.execProvision dt r s
  | .transferOwner dt r => Sys2Proof.Machine.execTransferOwner dt r s
  | .secLifecycle dt r => Sys2Proof.Machine.execSecLifecycle dt r s
  | .secDebugChallenge dt r => Sys2Proof.Machine.execSecDebugChallenge dt r s
  | .secDebugUnlock dt r => Sys2Proof.Machine.execSecDebugUnlock dt r s
  | .fwUpdate dt r => Sys2Proof.Machine.execFwUpdate dt r s
  | .fwTrial dt r => Sys2Proof.Machine.execFwTrial dt r s
  | .fwCommit dt r => Sys2Proof.Machine.execFwCommit dt r s
  | .macsecCakInstall dt r => Sys2Proof.Machine.execMacsecCakInstall dt r s
  | .gkeyConfig dt r => Sys2Proof.Machine.execGkeyConfig dt r s
  | .secPolicy dt r => Sys2Proof.Machine.execSecPolicy dt r s
  | .secPolicyRead dt r => Sys2Proof.Machine.execSecPolicyRead dt r s
  | .configReadback dt k r => Sys2Proof.Machine.execConfigReadback dt k r s
  | .regRead dt a r => Sys2Proof.Machine.execRegRead dt a r s
  | .regWrite dt a r => Sys2Proof.Machine.execRegWrite dt a r s
  | .memRead dt r => Sys2Proof.Machine.execMemRead dt r s
  | .memWrite dt r => Sys2Proof.Machine.execMemWrite dt r s
  | .exmWriteX dt r => Sys2Proof.Machine.execExmWriteX dt r s
  | .exmTableConfigX dt r => Sys2Proof.Machine.execExmTableConfigX dt r s
  | .tcamWriteX dt r => Sys2Proof.Machine.execTcamWriteX dt r s
  | .bufAlloc dt r => Sys2Proof.Machine.execBufAlloc dt r s
  | .bufFree dt r => Sys2Proof.Machine.execBufFree dt r s
  | .registerWrite dt by_ k v => Sys2Proof.Machine.execRegisterWrite dt by_ k v s
  | .mbxReqDb dt ch pi => Sys2Proof.Machine.execMbxReqDb dt ch pi s
  | .mbxCplDb dt ch ci => Sys2Proof.Machine.execMbxCplDb dt ch ci s
  | .mbxChannelDisable dt ch => Sys2Proof.Machine.execMbxChannelDisable dt ch s
  | .txnLapse dt => Sys2Proof.Machine.execTxnLapse dt s
  | .hostIfReset dt => Sys2Proof.Machine.execHostIfReset dt s
  | .hdmaTxDoorbell dt ring pi => Sys2Proof.Machine.execHdmaTxDoorbell dt ring pi s
  | .hdmaRxDoorbell dt ring post => Sys2Proof.Machine.execHdmaRxDoorbell dt ring post s
  | .hdmaTxFrame dt ring t => Sys2Proof.Machine.execHdmaTxFrame dt ring t s
  | .i2cRead dt ptr n => Sys2Proof.Machine.execI2cRead dt ptr n s
  | .uartCommand dt l => Sys2Proof.Machine.execUartCommand dt l s
  | .frameHeadReady dt as => Sys2Proof.Machine.execFrameHeadReady dt as s
  | .bufSpillRetry dt => Sys2Proof.Machine.execBufSpillRetry dt s
  | .engineDispatch dt pl badReads => Sys2Proof.Machine.execEngineDispatch dt pl badReads s
  | .recipeNop dt pl e => Sys2Proof.Machine.execRecipeNop dt pl e s
  | .ldf dt pl e => Sys2Proof.Machine.execLdf dt pl e s
  | .ldv dt pl e => Sys2Proof.Machine.execLdv dt pl e s
  | .movi dt pl e => Sys2Proof.Machine.execMovi dt pl e s
  | .aluAdd dt pl e => Sys2Proof.Machine.execAluAdd dt pl e s
  | .aluSub dt pl e => Sys2Proof.Machine.execAluSub dt pl e s
  | .aluAnd dt pl e => Sys2Proof.Machine.execAluAnd dt pl e s
  | .aluOr dt pl e => Sys2Proof.Machine.execAluOr dt pl e s
  | .aluXor dt pl e => Sys2Proof.Machine.execAluXor dt pl e s
  | .aluShl dt pl e => Sys2Proof.Machine.execAluShl dt pl e s
  | .aluShr dt pl e => Sys2Proof.Machine.execAluShr dt pl e s
  | .extract dt pl e => Sys2Proof.Machine.execExtract dt pl e s
  | .cmp dt pl e => Sys2Proof.Machine.execCmp dt pl e s
  | .tst dt pl e => Sys2Proof.Machine.execTst dt pl e s
  | .br dt pl e => Sys2Proof.Machine.execBr dt pl e s
  | .brx dt pl e => Sys2Proof.Machine.execBrx dt pl e s
  | .call dt pl e => Sys2Proof.Machine.execCall dt pl e s
  | .ret dt pl e => Sys2Proof.Machine.execRet dt pl e s
  | .adv dt pl e => Sys2Proof.Machine.execAdv dt pl e s
  | .push dt pl e => Sys2Proof.Machine.execPush dt pl e s
  | .decber dt pl e => Sys2Proof.Machine.execDecber dt pl e s
  | .chklen dt pl e => Sys2Proof.Machine.execChklen dt pl e s
  | .lds dt pl e => Sys2Proof.Machine.execLds dt pl e s
  | .keyWrite dt pl e => Sys2Proof.Machine.execKeyWrite dt pl e s
  | .metaWrite dt pl e => Sys2Proof.Machine.execMetaWrite dt pl e s
  | .sideRec dt pl e => Sys2Proof.Machine.execSideRec dt pl e s
  | .svx dt pl e => Sys2Proof.Machine.execSvx dt pl e s
  | .pat dt pl e => Sys2Proof.Machine.execPat dt pl e s
  | .endParse dt pl e => Sys2Proof.Machine.execEndParse dt pl e s
  | .parseWindowWaitEnd dt f more => Sys2Proof.Machine.execParseWindowWaitEnd dt f more s
  | .macAbort dt f c => Sys2Proof.Machine.execMacAbort dt f c s
  | .bufOverrun dt f more => Sys2Proof.Machine.execBufOverrun dt f more s
  | .frameTail dt f more => Sys2Proof.Machine.execFrameTail dt f more s
  | .lookupRelease dt p => Sys2Proof.Machine.execLookupRelease dt p s
  | .tcamWindowStart dt pl => Sys2Proof.Machine.execTcamWindowStart dt pl s
  | .authVerdict dt pl f capBad => Sys2Proof.Machine.execAuthVerdict dt pl f capBad s
  | .p43Inject dt pl bytes => Sys2Proof.Machine.execP43Inject dt pl bytes s
  | .schedDecision dt node bad => Sys2Proof.Machine.execSchedDecision dt node bad s
  | .copyTxDone dt node => Sys2Proof.Machine.execCopyTxDone dt node s
  | .ageSweep dt => Sys2Proof.Machine.execAgeSweep dt s
  | .shaperWake dt lvl node => Sys2Proof.Machine.execShaperWake dt lvl node s
  | .shaperSweep dt => Sys2Proof.Machine.execShaperSweep dt s
  | .policerSweep dt => Sys2Proof.Machine.execPolicerSweep dt s
  | .gateTransition dt g => Sys2Proof.Machine.execGateTransition dt g s
  | .gclCycleStart dt g => Sys2Proof.Machine.execGclCycleStart dt g s
  | .pfcReceived dt p enable quanta => Sys2Proof.Machine.execPfcReceived dt p enable quanta s
  | .pfcPauseExpiry dt p n => Sys2Proof.Machine.execPfcPauseExpiry dt p n s
  | .linkDown dt p => Sys2Proof.Machine.execLinkDown dt p s
  | .linkUp dt p speed mode => Sys2Proof.Machine.execLinkUp dt p speed mode s
  | .sgmiiSpeedChange dt p speed half abortTx abortRx => Sys2Proof.Machine.execSgmiiSpeedChange dt p speed half abortTx abortRx s
  | .lpiEntry dt p => Sys2Proof.Machine.execLpiEntry dt p s
  | .generationCommit dt => Sys2Proof.Machine.execGenerationCommit dt s
  | .maintSweep dt => Sys2Proof.Machine.execMaintSweep dt s
  | .ageingTick dt t => Sys2Proof.Machine.execAgeingTick dt t s
  | .learnWindow dt => Sys2Proof.Machine.execLearnWindow dt s
  | .tcamScrub dt pl => Sys2Proof.Machine.execTcamScrub dt pl s
  | .throttleRise dt temp => Sys2Proof.Machine.execThrottleRise dt temp s
  | .throttleFall dt temp => Sys2Proof.Machine.execThrottleFall dt temp s
  | .ddForgetSweep dt => Sys2Proof.Machine.execDdForgetSweep dt s
  | .cmpResolve dt pl k => Sys2Proof.Machine.execCmpResolve dt pl k s
  | .rcvyResetTimeout dt idx => Sys2Proof.Machine.execRcvyResetTimeout dt idx s
  | .supervisionTx dt k => Sys2Proof.Machine.execSupervisionTx dt k s
  | .bypDrvOn dt d => Sys2Proof.Machine.execBypDrvOn dt d s
  | .ref25Lost dt => Sys2Proof.Machine.execRef25Lost dt s
  | .timeStep dt ns sec => Sys2Proof.Machine.execTimeStep dt ns sec s
  | .timeSourceLost dt => Sys2Proof.Machine.execTimeSourceLost dt s
  | .traceableExpiry dt => Sys2Proof.Machine.execTraceableExpiry dt s
  | .ppsInEdge dt err => Sys2Proof.Machine.execPpsInEdge dt err s
  | .irigInFrame dt f => Sys2Proof.Machine.execIrigInFrame dt f s
  | .ppsOutEdge dt => Sys2Proof.Machine.execPpsOutEdge dt s
  | .timeTxtsRead dt p => Sys2Proof.Machine.execTimeTxtsRead dt p s
  | .timeNowRead dt => Sys2Proof.Machine.execTimeNowRead dt s
  | .timeGridNowRead dt => Sys2Proof.Machine.execTimeGridNowRead dt s
  | .gpioInputAccept dt n => Sys2Proof.Machine.execGpioInputAccept dt n s
  | .gridEstimate dt g => Sys2Proof.Machine.execGridEstimate dt g s
  | .gridHoldoverEntry dt => Sys2Proof.Machine.execGridHoldoverEntry dt s
  | .gridHoldoverExpiry dt => Sys2Proof.Machine.execGridHoldoverExpiry dt s
  | .timePointFire dt idx => Sys2Proof.Machine.execTimePointFire dt idx s
  | .svSampleRecord dt => Sys2Proof.Machine.execSvSampleRecord dt s
  | .streamLoss dt idx => Sys2Proof.Machine.execStreamLoss dt idx s
  | .phxTick dt => Sys2Proof.Machine.execPhxTick dt s
  | .harmWindowEnd dt h => Sys2Proof.Machine.execHarmWindowEnd dt h s
  | .pmuReport dt m => Sys2Proof.Machine.execPmuReport dt m s
  | .phxBankWake dt b => Sys2Proof.Machine.execPhxBankWake dt b s
  | .recClose dt g => Sys2Proof.Machine.execRecClose dt g s
  | .evtPass dt => Sys2Proof.Machine.execEvtPass dt s
  | .evtTimerExpiry dt c => Sys2Proof.Machine.execEvtTimerExpiry dt c s
  | .subLoss dt idx => Sys2Proof.Machine.execSubLoss dt idx s
  | .gooseFrameBuild dt t => Sys2Proof.Machine.execGooseFrameBuild dt t s
  | .gooseRetransmit dt t => Sys2Proof.Machine.execGooseRetransmit dt t s
  | .gpioPulseEnd dt n => Sys2Proof.Machine.execGpioPulseEnd dt n s
  | .fswCommit dt => Sys2Proof.Machine.execFswCommit dt s
  | .nibenBlockRx dt l block => Sys2Proof.Machine.execNibenBlockRx dt l block s
  | .nibenReplayTimeout dt l => Sys2Proof.Machine.execNibenReplayTimeout dt l s
  | .linkTrainingLock dt l => Sys2Proof.Machine.execLinkTrainingLock dt l s
  | .helloMsg dt l h => Sys2Proof.Machine.execHelloMsg dt l h s
  | .frameMsg dt l m => Sys2Proof.Machine.execFrameMsg dt l m s
  | .creditMsg dt g cls bytes => Sys2Proof.Machine.execCreditMsg dt g cls bytes s
  | .requestMsg dt src p cls on => Sys2Proof.Machine.execRequestMsg dt src p cls on s
  | .creditIssue dt p cls => Sys2Proof.Machine.execCreditIssue dt p cls s
  | .noticeMsg dt n => Sys2Proof.Machine.execNoticeMsg dt n s
  | .flushMsg dt g => Sys2Proof.Machine.execFlushMsg dt g s
  | .configMsg dt epoch seg last words report => Sys2Proof.Machine.execConfigMsg dt epoch seg last words report s
  | .timeMsg dt l txTs rxTs => Sys2Proof.Machine.execTimeMsg dt l txTs rxTs s
  | .timeCompareTx dt => Sys2Proof.Machine.execTimeCompareTx dt s
  | .linkStateMsg dt src reach ports => Sys2Proof.Machine.execLinkStateMsg dt src reach ports s
  | .batchCommitAtT dt => Sys2Proof.Machine.execBatchCommitAtT dt s
  | .heldResend dt => Sys2Proof.Machine.execHeldResend dt s
  | .memberUnreachable dt m => Sys2Proof.Machine.execMemberUnreachable dt m s
  | .starterRun dt slots bad => Sys2Proof.Machine.execStarterRun dt slots bad s
  | .secRngFail dt => Sys2Proof.Machine.execSecRngFail dt s
  | .sessionLapse dt ch => Sys2Proof.Machine.execSessionLapse dt ch s
  | .sessionIdleTimeout dt ch => Sys2Proof.Machine.execSessionIdleTimeout dt ch s
  | .holdEntry dt storeMv => Sys2Proof.Machine.execHoldEntry dt storeMv s
  | .vinDipShort dt => Sys2Proof.Machine.execVinDipShort dt s
  | .shedStage dt storeMv => Sys2Proof.Machine.execShedStage dt storeMv s
  | .closure dt storeMv => Sys2Proof.Machine.execClosure dt storeMv s
  | .holdExit dt => Sys2Proof.Machine.execHoldExit dt s
  | .shedUndo dt => Sys2Proof.Machine.execShedUndo dt s
  | .vinLow dt vinMv => Sys2Proof.Machine.execVinLow dt vinMv s
  | .storeArmed dt storeMv => Sys2Proof.Machine.execStoreArmed dt storeMv s
  | .storeFault dt storeMv low => Sys2Proof.Machine.execStoreFault dt storeMv low s
  | .pwrMeasureApply dt m => Sys2Proof.Machine.execPwrMeasureApply dt m s
  | .pipelineWake dt pl c => Sys2Proof.Machine.execPipelineWake dt pl c s
  | .powerOn dt vinMv high straps cfg => Sys2Proof.Machine.execPowerOn dt vinMv high straps cfg s
  | .porstN dt straps cfg => Sys2Proof.Machine.execPorstN dt straps cfg s
  | .wrstN dt straps => Sys2Proof.Machine.execWrstN dt straps s
  | .warmResetRequest dt tryB => Sys2Proof.Machine.execWarmResetRequest dt tryB s
  | .coldResetRequest dt tryB => Sys2Proof.Machine.execColdResetRequest dt tryB s
  | .proofDone dt f => Sys2Proof.Machine.execProofDone dt f s
  | .proofTimeout dt f => Sys2Proof.Machine.execProofTimeout dt f s
  | .thermalShutdown dt die stage => Sys2Proof.Machine.execThermalShutdown dt die stage s
  | .thermalRestart dt hottest vinMv => Sys2Proof.Machine.execThermalRestart dt hottest vinMv s
  | .faultLineLatch dt idx stays at_ => Sys2Proof.Machine.execFaultLineLatch dt idx stays at_ s
  | .watchExpiry dt idx => Sys2Proof.Machine.execWatchExpiry dt idx s
  | .escalationClear dt => Sys2Proof.Machine.execEscalationClear dt s
  | .faultWordClear dt w v => Sys2Proof.Machine.execFaultWordClear dt w v s
  | .collectorMismatch dt => Sys2Proof.Machine.execCollectorMismatch dt s
  | .kick dt v => Sys2Proof.Machine.execKick dt v s
  | .wdogWarn dt => Sys2Proof.Machine.execWdogWarn dt s
  | .watchdog dt => Sys2Proof.Machine.execWatchdog dt s
  | .safeEntry dt c => Sys2Proof.Machine.execSafeEntry dt c s
  | .journalSignTimer dt => Sys2Proof.Machine.execJournalSignTimer dt s
  | .journalEntryWrite dt => Sys2Proof.Machine.execJournalEntryWrite dt s
  | .sourceEvent dt idx level => Sys2Proof.Machine.execSourceEvent dt idx level s
  | .irqClaim dt t => Sys2Proof.Machine.execIrqClaim dt t s
  | .irqComplete dt t idx => Sys2Proof.Machine.execIrqComplete dt t idx s
  | .coalesceRelease dt g => Sys2Proof.Machine.execCoalesceRelease dt g s
  | .staleDelivery dt idx => Sys2Proof.Machine.execStaleDelivery dt idx s
  | .dramRequest dt stack cores first again => Sys2Proof.Machine.execDramRequest dt stack cores first again s
  | .dramCalibration dt stack => Sys2Proof.Machine.execDramCalibration dt stack s
  | .cdcFlush dt => Sys2Proof.Machine.execCdcFlush dt s
  | .perfCtrWrite dt n w v => Sys2Proof.Machine.execPerfCtrWrite dt n w v s
  | .bufLock dt v => Sys2Proof.Machine.execBufLock dt v s
  | .rcRead dt a => Sys2Proof.Machine.execRcRead dt a s
  | .gpioInputEdge dt n level => Sys2Proof.Machine.execGpioInputEdge dt n level s
  | .ref25Restored dt => Sys2Proof.Machine.execRef25Restored dt s
  | .entropyHealthPass dt => Sys2Proof.Machine.execEntropyHealthPass dt s
  | .vinLowEnd dt vinMv => Sys2Proof.Machine.execVinLowEnd dt vinMv s
  | .targetWake dt t => Sys2Proof.Machine.execTargetWake dt t s
  | .jtagAccess dt o => Sys2Proof.Machine.execJtagAccess dt o s
  | .batchStageTimeout dt => Sys2Proof.Machine.execBatchStageTimeout dt s
  | .digestReportDeadline dt => Sys2Proof.Machine.execDigestReportDeadline dt s
  | .sakInstallDone dt p sa => Sys2Proof.Machine.execSakInstallDone dt p sa s
  | .pmuClientTimeout dt c => Sys2Proof.Machine.execPmuClientTimeout dt c s
  | .dramRowIdleClose dt stack row => Sys2Proof.Machine.execDramRowIdleClose dt stack row s
  | .peerLpiSignal dt p on => Sys2Proof.Machine.execPeerLpiSignal dt p on s

end Sys2Proof.Machine
end

