-- ==== Sys2Proof/Safety.lean ====
section
/-! DEFINITION. What a safe run is, and the notions claims about commands are stated in: a request that begins and passes every check of
R691, the state its execution begins in, and its completion. -/
namespace Sys2Proof.Safety
open Machine

/-- The memories of a state are in canonical form. -/
def MemOk (s : State) : Prop := Memory.wf s.dram = true ∧ Memory.wf s.sram = true

/-- A step answers a next state. -/
def Runs (s : State) : Prop := ∃ t, step s = .next t

/-- No error line is raised and waits to be latched. -/
def Latched (s : State) : Prop := s.flt.raised = []

/-- The request's slot is consumed: REQ_CI moves on (R683). -/
def fetched (r : Req) (u : State) : State := u.setFld F.MBX_RING.REQ_CI r.ch ((u.reqCi r.ch + 1) % 65536)

/-- The state a command's execution begins in: fetched, and its session and transaction noted (R655, R694). -/
def begun (c : Cmd) (r : Req) (u : State) : State := (((fetched r u).acceptCmd c r).txnCheck r).2

/-- A request that can begin (R684, R685) and passes every check R691 makes before the command's own. -/
def Accepts (c : Cmd) (r : Req) (u : State) : Prop :=
  u.canBegin r.ch = true ∧ r.pcie ≠ .fetch ∧ (fetched r u).levelOk c r = true ∧ (fetched r u).sessionCheck c r = none ∧
  ptrBad r = false ∧ (((fetched r u).acceptCmd c r).txnCheck r).1 = none ∧ (begun c r u).powerCheck c = none ∧ r.rsvd = false ∧
  ((c.fn.map (begun c r u).ready).getD true) = true ∧ r.opcode = none

/-- The completion of a request, from the state t its command leaves (R688, R689). -/
def answer (c : Cmd) (r : Req) (u t : State) (st result : Nat) (out : Bytes) : State :=
  (t.complete r ((fetched r u).cplKey c r) st result out).settle

/-- A request whose command waits: its channel keeps it in execution (R684). -/
def waiting (r : Req) (t : State) (w : Wait) : State :=
  (t.setChan r.ch { t.chan r.ch with busy := some (r, w) }).settle

/-- The state in which a command that stages outside a transaction runs: it has a transaction of its own (R695). -/
def owned (r : Req) (b : State) : State :=
  { b with txn := some { id := 0, ch := r.ch, sid := r.sid, last := b.now, commit := true, own := true } }

/-- Where the records of a command that stages go: the request's transaction, or one of its own (R693, R695). -/
def stageFrom (r : Req) (b : State) : State := if r.txn = 0 then owned r b else b

/-- How a command that staged its records, as t, goes on: within a transaction it completes; one of its own commits first (R695). -/
def stageDone (c : Cmd) (r : Req) (u t : State) (result : Nat) (out : Bytes) : State :=
  if r.txn = 0 then waiting r t (.commitDone result out) else answer c r u t 0 result out

/-- The row of a configuration command. -/
def cfgInstr (dt : Nat) (r : Req) : CfgCmd → Instr
  | .port => .portConfig dt r
  | .exmTable => .exmTableConfig dt r
  | .exmTableX => .exmTableConfigX dt r
  | .pol => .polConfig dt r
  | .qci => .qciConfig dt r
  | .rw => .rwWrite dt r
  | .macsec => .macsecConfig dt r
  | .adm => .admConfig dt r
  | .mcGroup => .mcGroupWrite dt r
  | .capRing => .capRingConfig dt r
  | .sched => .schedConfig dt r
  | .gcl => .gclWrite dt r
  | .qtel => .qtelConfig dt r
  | .predPair => .predPairConfig dt r
  | .predRcvy => .predRcvyConfig dt r
  | .time => .timeConfig dt r
  | .phxStream => .phxStreamConfig dt r
  | .phxHarm => .phxHarmConfig dt r
  | .pmu => .pmuConfig dt r
  | .recorder => .recConfig dt r
  | .evt => .evtConfig dt r
  | .fab => .fabConfig dt r
  | .fault => .faultConfig dt r

/-- A configuration command that begins in b applies its records to w, as t, and none is refused (R714). -/
def Applies (k : CfgCmd) (r : Req) (b w t : State) (l : List CfgRec) : Prop :=
  w.cfgApply (k.cmd.op == 0x8011) l = .ok t ∧
  (l.findSome? fun e => (cfgRefuse (b.levelOk { k.cmd with expert := true, role := some 2 } r) b (t.verWrite (cfgVers l))
    (t.verWrite (cfgVers l)).preview e).map fun st => (st, e.off)) = none

/-- The rows of the recipe engine: the operation each names (Table 3-6), its time, its pipeline and its engine. -/
def recipeOf : Instr → Option (Nat × Nat × Fin 4 × Fin 8)
  | .recipeNop dt pl k => some (0x00, dt, pl, k)
  | .ldf dt pl k => some (0x01, dt, pl, k)
  | .ldv dt pl k => some (0x03, dt, pl, k)
  | .movi dt pl k => some (0x04, dt, pl, k)
  | .aluAdd dt pl k => some (0x05, dt, pl, k)
  | .aluSub dt pl k => some (0x06, dt, pl, k)
  | .aluAnd dt pl k => some (0x07, dt, pl, k)
  | .aluOr dt pl k => some (0x08, dt, pl, k)
  | .aluXor dt pl k => some (0x09, dt, pl, k)
  | .aluShl dt pl k => some (0x0A, dt, pl, k)
  | .aluShr dt pl k => some (0x0B, dt, pl, k)
  | .extract dt pl k => some (0x0C, dt, pl, k)
  | .cmp dt pl k => some (0x0D, dt, pl, k)
  | .tst dt pl k => some (0x0E, dt, pl, k)
  | .br dt pl k => some (0x0F, dt, pl, k)
  | .brx dt pl k => some (0x10, dt, pl, k)
  | .call dt pl k => some (0x11, dt, pl, k)
  | .ret dt pl k => some (0x12, dt, pl, k)
  | .adv dt pl k => some (0x13, dt, pl, k)
  | .push dt pl k => some (0x14, dt, pl, k)
  | .decber dt pl k => some (0x15, dt, pl, k)
  | .chklen dt pl k => some (0x16, dt, pl, k)
  | .lds dt pl k => some (0x17, dt, pl, k)
  | .keyWrite dt pl k => some (0x18, dt, pl, k)
  | .metaWrite dt pl k => some (0x19, dt, pl, k)
  | .sideRec dt pl k => some (0x1A, dt, pl, k)
  | .svx dt pl k => some (0x1B, dt, pl, k)
  | .pat dt pl k => some (0x1C, dt, pl, k)
  | .endParse dt pl k => some (0x1D, dt, pl, k)
  | _ => none

/-- The mailbox commands: what Table 16-7 says of each, its time and its request. -/
def mailboxRow : Instr → Option (Cmd × Nat × Req)
  | .mbxNop dt r => some ({ op := 0, role := none }, dt, r)
  | .getInfo dt r => some ({ op := 0x01, role := none }, dt, r)
  | .txnBegin dt r => some ({ op := 0x10, role := some 1 }, dt, r)
  | .batchTxnBegin dt r => some ({ op := 0x10, role := some 1 }, dt, r)
  | .txnCommit dt r => some ({ op := 0x11, role := some 1 }, dt, r)
  | .txnAbort dt r => some ({ op := 0x12, role := some 1 }, dt, r)
  | .setLatencyBudget dt r => some ({ op := 0x20, role := some 1 }, dt, r)
  | .pwrStatus dt r => some ({ op := 0x21, role := some 0, read := true }, dt, r)
  | .portConfig dt r => some ({ op := 0x30, role := some 1, read := bit r.arg.toNat 31 }, dt, r)
  | .portCounters dt r => some ({ op := 0x31, role := some 0, read := true }, dt, r)
  | .counterRead dt r => some ({ op := 0x32, role := some 0, read := true }, dt, r)
  | .loadRecipe dt r => some ({ op := 0x40, role := some 1 }, dt, r)
  | .exmTableConfig dt r => some ({ op := 0x50, role := some 1, read := bit r.arg.toNat 31 }, dt, r)
  | .exmWrite dt r => some ({ op := 0x51, role := some 1 }, dt, r)
  | .exmSearch dt r => some ({ op := 0x52, role := some 0, read := true }, dt, r)
  | .tableNext dt r => some ({ op := 0x53, role := some 0, read := true }, dt, r)
  | .flushByPort dt r => some ({ op := 0x54, role := some 1 }, dt, r)
  | .lpmWrite dt r => some ({ op := 0x55, role := some 1 }, dt, r)
  | .lpmSearch dt r => some ({ op := 0x56, role := some 0, read := true }, dt, r)
  | .tcamWrite dt r => some ({ op := 0x60, role := some 1 }, dt, r)
  | .tcamRead dt r => some ({ op := 0x61, role := some 0, read := true }, dt, r)
  | .polConfig dt r => some ({ op := 0x62, role := some 1, read := bit r.arg.toNat 31 }, dt, r)
  | .qciConfig dt r => some ({ op := 0x63, role := some 1, read := bit r.arg.toNat 31 }, dt, r)
  | .rwWrite dt r => some ({ op := 0x70, role := some 1, read := bit r.arg.toNat 31 }, dt, r)
  | .macsecConfig dt r => some ({ op := 0x71, role := some 1, read := bit r.arg.toNat 31 }, dt, r)
  | .admConfig dt r => some ({ op := 0x80, role := some 1, read := bit r.arg.toNat 31 }, dt, r)
  | .mcGroupWrite dt r => some ({ op := 0x81, role := some 1, read := bit r.arg.toNat 31 }, dt, r)
  | .capRingConfig dt r => some ({ op := 0x82, role := some 1, read := bit r.arg.toNat 31 }, dt, r)
  | .bufUnquarantine dt r => some ({ op := 0x83, role := some 1 }, dt, r)
  | .schedConfig dt r => some ({ op := 0x90, role := some 1, read := bit r.arg.toNat 31 }, dt, r)
  | .gclWrite dt r => some ({ op := 0x91, role := some 1, read := bit r.arg.toNat 31 }, dt, r)
  | .qtelConfig dt r => some ({ op := 0x92, role := some 1, read := bit r.arg.toNat 31 }, dt, r)
  | .predPairConfig dt r => some ({ op := 0xA0, role := some 1, read := bit r.arg.toNat 31 }, dt, r)
  | .predRcvyConfig dt r => some ({ op := 0xA1, role := some 1, read := bit r.arg.toNat 31 }, dt, r)
  | .timeConfig dt r => some ({ op := 0xB0, role := some 1, read := bit r.arg.toNat 31 }, dt, r)
  | .timeStatusCmd dt r => some ({ op := 0xB1, role := some 0, read := true }, dt, r)
  | .phxStreamConfig dt r => some ({ op := 0xC0, role := some 1, read := bit r.arg.toNat 31 }, dt, r)
  | .phxHarmConfig dt r => some ({ op := 0xC1, role := some 1, read := bit r.arg.toNat 31 }, dt, r)
  | .pmuConfig dt r => some ({ op := 0xC2, role := some 1, read := bit r.arg.toNat 31 }, dt, r)
  | .pmuServer dt r => some ({ op := 0xC3, role := some 1 }, dt, r)
  | .recConfig dt r => some ({ op := 0xC4, role := some 1, read := bit r.arg.toNat 31 }, dt, r)
  | .recTrigger dt r => some ({ op := 0xC5, role := some 1 }, dt, r)
  | .recRelease dt r => some ({ op := 0xC6, role := some 1 }, dt, r)
  | .recRead dt r => some ({ op := 0xC7, role := some 0, read := true, fn := some 11 }, dt, r)
  | .evtConfig dt r => some ({ op := 0xD0, role := some 1, read := bit r.arg.toNat 31 }, dt, r)
  | .evtResetLatch dt r => some ({ op := 0xD1, role := some 1, fn := some 10 }, dt, r)
  | .evtLogRead dt r => some ({ op := 0xD2, role := some 0, read := true }, dt, r)
  | .fabConfig dt r => some ({ op := 0xE0, role := some 1, read := bit r.arg.toNat 31 }, dt, r)
  | .fabStatus dt r => some ({ op := 0xE1, role := some 0, read := true }, dt, r)
  | .faultConfig dt r => some ({ op := 0xF0, role := some 2, read := bit r.arg.toNat 31 }, dt, r)
  | .forceSafe dt r => some ({ op := 0xF0, role := some 2, read := bit r.arg.toNat 31 }, dt, r)
  | .unfence dt r => some ({ op := 0xF0, role := some 2, read := bit r.arg.toNat 31 }, dt, r)
  | .journalRead dt r => some ({ op := 0xF1, role := some 0, read := true }, dt, r)
  | .sessionBegin dt r => some ({ op := 0x100, role := none, fn := some 1 }, dt, r)
  | .sessionFinish dt r => some ({ op := 0x101, role := none, fn := some 1 }, dt, r)
  | .sessionClose dt r => some ({ op := 0x102, role := some 0, read := true, fn := some 1 }, dt, r)
  | .secQuote dt r => some ({ op := 0x103, role := none, fn := some 1 }, dt, r)
  | .secCert dt r => some ({ op := 0x104, role := none, fn := some 1 }, dt, r)
  | .secExtend dt r => some ({ op := 0x105, role := some 2, fn := some 1 }, dt, r)
  | .operatorEnrol dt r => some ({ op := 0x106, role := some 2, fn := some 1 }, dt, r)
  | .operatorRemove dt r => some ({ op := 0x107, role := some 2, fn := some 1 }, dt, r)
  | .provision dt r => some ({ op := 0x108, role := some 2, fn := some 1 }, dt, r)
  | .transferOwner dt r => some ({ op := 0x109, role := some 2, fn := some 1 }, dt, r)
  | .secLifecycle dt r => some ({ op := 0x10A, role := some 2, fn := some 1 }, dt, r)
  | .secDebugChallenge dt r => some ({ op := 0x10B, role := none, fn := some 1 }, dt, r)
  | .secDebugUnlock dt r => some ({ op := 0x10C, role := none, fn := some 1 }, dt, r)
  | .fwUpdate dt r => some ({ op := 0x10D, role := some 2, fn := some 1 }, dt, r)
  | .fwTrial dt r => some ({ op := 0x10D, role := some 2, fn := some 1 }, dt, r)
  | .fwCommit dt r => some ({ op := 0x10E, role := some 2, fn := some 1 }, dt, r)
  | .macsecCakInstall dt r => some ({ op := 0x10F, role := some 2, fn := some 1 }, dt, r)
  | .gkeyConfig dt r => some ({ op := 0x110, role := some 2, fn := some 1 }, dt, r)
  | .secPolicy dt r => some ({ op := 0x111, role := some 2, fn := some 1 }, dt, r)
  | .secPolicyRead dt r => some ({ op := 0x111, role := some 0, read := true, fn := some 1 }, dt, r)
  | .configReadback dt k r => some ({ k.cmd with read := true }, dt, { r with arg := r.arg ||| 0x80000000 })
  | .regRead dt _ r => some ({ op := 0x8000, role := some 2, read := true, expert := true }, dt, r)
  | .regWrite dt a r => some ({ op := 0x8001, role := some 2, expert := true, reset := a.isReset r.payload.length }, dt, r)
  | .memRead dt r => some ({ op := 0x8002, role := some 2, read := true, expert := true }, dt, r)
  | .memWrite dt r => some ({ op := 0x8003, role := some 2, expert := true }, dt, r)
  | .exmWriteX dt r => some ({ op := 0x8010, role := some 2, expert := true }, dt, r)
  | .exmTableConfigX dt r => some ({ op := 0x8011, role := some 2, expert := true, read := bit r.arg.toNat 31 }, dt, r)
  | .tcamWriteX dt r => some ({ op := 0x8020, role := some 2, expert := true }, dt, r)
  | .bufAlloc dt r => some ({ op := 0x8030, role := some 2, expert := true }, dt, r)
  | .bufFree dt r => some ({ op := 0x8031, role := some 2, expert := true }, dt, r)
  | _ => none

/-! ## Recipe engines -/

/-- Engine k of a pipeline is about to carry out word w, of dispatch entry d, for frame f (R80, R102). -/
def Fetches (u : State) (pl k : Nat) (e : Engine) (f : Frame) (w : RWord) (d : Disp) : Prop :=
  sfind u.engines (pl * 8 + k) = some e ∧ e.waitW = false ∧ e.done = false ∧ sfind u.frames e.frame = some f ∧
  e.pc < u.codeOf (bankNo pl f.bank) ∧ w = rword (u.codeWord (bankNo pl f.bank) e.pc) ∧
  d = u.dispatchOf (bankNo pl f.bank) w.opc ∧ d.valid = true

/-- Its condition holds, and no abort waits for the boundary. -/
def Carries (u : State) (pl k : Nat) (e : Engine) (f : Frame) (w : RWord) (d : Disp) : Prop :=
  Fetches u pl k e f w d ∧ e.cond w.cond = some true ∧ f.aborted = none ∧ f.overrun = false

/-- The state after an instruction that goes on at pc, having used some slots: its engine and its frame. -/
def went (u : State) (pl k : Nat) (e : Engine) (f : Frame) (slots pc : Nat) (e' : Engine) (f' : Frame) : State :=
  (u.spendSlots pl f e.pc slots (min 65535 (e'.icnt + slots))).keepEngine pl k e.frame
    { e' with pc := pc, icnt := min 65535 (e'.icnt + slots) } f'

/-- The state after an instruction that ends the parse. -/
def ended (u : State) (pl k : Nat) (e : Engine) (f : Frame) (o r exc : Nat) : State :=
  (u.perfEv 3 1 pl f.port 0 f.gen e.pc).recipeEnd pl k (min 65535 (e.icnt + 1)) e.frame f o r exc

end Sys2Proof.Safety
end

