-- ==== Sys2Proof/Certificates/Slice0/Obligations.lean ====
section
/-! DEFINITION. The statements about the block, family by family. In each, u is the state once the command's time has passed;
`State.settle` ends every step and is stated by itself (SettleLatchesRaisedLines), as is what the passing of time changes. -/
section
open Sys2Proof Sys2Proof.Machine Sys2Proof.Safety

/-! ## The recipe engine (chapter 03) -/

/-- NOP, MOVI, EXT, ADD, SUB, AND, OR, XOR, SHL, SHR, CMP and TST (R84; Table 3-6): Wd and the flags, one slot, the next
word. W0 discards writes (`Engine.setReg`); Z, N and C change with SF set alone, but CMP always writes them and TST always writes Z. -/
def Obligations.RecipeArithmeticWritesWdAndFlags : Prop :=
  ∀ (dt : Nat) (pl : Fin 4) (k : Fin 8) (s u : State) (e : Engine) (f : Frame) (w : RWord) (d : Disp),
    u = s.advance dt → Carries u pl k e f w d →
    let a := e.reg w.sa
    let b := e.opB w
    let goes (c : Instr) (e' : Engine) : Prop := exec c s = .next (State.settle (went u pl k e f 1 (e.pc + 1) e' f))
    let logic (v : Nat) : Engine := { e.setReg w.dst v with
      z := if d.sf then v % 2 ^ 64 == 0 else e.z
      n := if d.sf then (v % 2 ^ 64).testBit 63 else e.n }
    let diff := (a + 2 ^ 64 - b) % 2 ^ 64
    (d.oper = 0x00 → goes (.recipeNop dt pl k) e) ∧
    (d.oper = 0x04 → goes (.movi dt pl k) (e.setReg w.dst w.imm)) ∧
    (d.oper = 0x0C → goes (.extract dt pl k) (e.setReg w.dst ((a >>> (w.off % 64)) % 2 ^ (if w.wid = 0 then 64 else w.wid)))) ∧
    (d.oper = 0x05 → goes (.aluAdd dt pl k) { logic (a + b) with c := if d.sf then decide (2 ^ 64 ≤ a + b) else e.c }) ∧
    (d.oper = 0x06 → goes (.aluSub dt pl k) { logic diff with c := if d.sf then decide (a < b) else e.c }) ∧
    (d.oper = 0x07 → goes (.aluAnd dt pl k) (logic (a &&& b))) ∧
    (d.oper = 0x08 → goes (.aluOr dt pl k) (logic (a ||| b))) ∧
    (d.oper = 0x09 → goes (.aluXor dt pl k) (logic (a ^^^ b))) ∧
    (d.oper = 0x0A → goes (.aluShl dt pl k) (logic (a <<< (b % 64)))) ∧
    (d.oper = 0x0B → goes (.aluShr dt pl k) (logic (a >>> (b % 64)))) ∧
    (d.oper = 0x0D → goes (.cmp dt pl k) { e with z := diff == 0, n := diff.testBit 63, c := decide (a < b) }) ∧
    (d.oper = 0x0E → goes (.tst dt pl k) { e with z := (a &&& b) % 2 ^ 64 == 0 })

/-- LDF, LDV, LDS, KEY, META and SIDE (R84, R85, R88, R97; Table 3-6): a load inside the window whose bytes are known gives the
field and O; a key write puts bits into a key buffer; a metadata write keeps the field's width and ignores an undefined index; a side
record takes the next slot, a ninth is discarded, and counted where the recipe is not the standard package, which counts what it discards at its END. A load of bytes
that have not arrived waits for them. -/
def Obligations.RecipeLoadsAndWrites : Prop :=
  ∀ (dt : Nat) (pl : Fin 4) (k : Fin 8) (s u : State) (e : Engine) (f : Frame) (w : RWord) (d : Disp),
    u = s.advance dt → Carries u pl k e f w d →
    let goes (c : Instr) (e' : Engine) (f' : Frame) : Prop := exec c s = .next (State.settle (went u pl k e f 1 (e.pc + 1) e' f'))
    let at_ : Int := if d.abs then (w.off : Nat) else (e.cur * 8 : Nat) + w.soff
    let n := min (e.opB w % 16) 8
    let rec_ := Side.ev (w.imm % 256) (bits w.imm 8 16) (e.reg w.sa) (e.opB w)
    (∀ v o, d.oper = 0x01 → f.load d at_ w.width = .value v o → goes (.ldf dt pl k) { e.setReg w.dst v with o := o } f) ∧
    (∀ v o, d.oper = 0x03 → n ≠ 0 → f.load d at_ (8 * n) = .value v o → goes (.ldv dt pl k) { e.setReg w.dst v with o := o } f) ∧
    (d.oper = 0x03 → n = 0 → goes (.ldv dt pl k) { e.setReg w.dst 0 with o := false } f) ∧
    (d.oper = 0x17 → goes (.lds dt pl k) (e.setReg w.dst (specialValue u f e (w.imm % 16))) f) ∧
    (d.oper = 0x18 → goes (.keyWrite dt pl k) e { f with
      kb := f.kb.set (w.tgt % 4) (putBits (f.kb.getD (w.tgt % 4) 0) w.off (min w.width (640 - w.off)) (e.reg w.sa)) }) ∧
    (d.oper = 0x19 → metaBits (w.tgt % 64) = 0 → goes (.metaWrite dt pl k) e f) ∧
    (d.oper = 0x19 → metaBits (w.tgt % 64) ≠ 0 → goes (.metaWrite dt pl k) e { f with
      fields := sput f.fields 0 (w.tgt % 64) (e.reg w.sa % 2 ^ metaBits (w.tgt % 64)) }) ∧
    (d.oper = 0x1A → f.sides.length < 8 → goes (.sideRec dt pl k) e { f with sides := f.sides ++ [rec_] }) ∧
    (∀ x, d.oper = 0x1A → 8 ≤ f.sides.length → x = u.spendSlots pl f e.pc 1 (min 65535 (e.icnt + 1)) → exec (.sideRec dt pl k) s = .next (State.settle
      ((if x.standard (bankNo pl f.bank) = false then x.bump .PARSE_SIDE_EXCESS pl else x).keepEngine pl k e.frame
        { e with pc := e.pc + 1, icnt := min 65535 (e.icnt + 1) } f))) ∧
    (d.oper = 0x01 → f.load d at_ w.width = .wait → exec (.ldf dt pl k) s = .next (State.settle (u.keepEngine pl k e.frame { e with waitW := true } f))) ∧
    (d.oper = 0x03 → n ≠ 0 → f.load d at_ (8 * n) = .wait →
      exec (.ldv dt pl k) s = .next (State.settle (u.keepEngine pl k e.frame { e with waitW := true } f)))

/-- ADV, PUSH, DECBER, SVX and PAT (R84, R89, R93, R96, R98, R139; Table 3-6) where the bytes they name are in the window and known: the cursor, the header
stack, the decoded tag and length, the side record, and the match vector with the slots it takes. A PAT region of length 0 matches nothing; SVX
and DECBER wait for bytes that have not arrived. -/
def Obligations.RecipeWindowOperations : Prop :=
  ∀ (dt : Nat) (pl : Fin 4) (k : Fin 8) (s u : State) (e : Engine) (f : Frame) (w : RWord) (d : Disp),
    u = s.advance dt → Carries u pl k e f w d →
    let goes (c : Instr) (slots : Nat) (e' : Engine) (f' : Frame) : Prop :=
      exec c s = .next (State.settle (went u pl k e f slots (e.pc + 1) e' f'))
    let len := if w.sb = 0 then bits w.imm 16 10 else e.reg w.sb % 1024
    let past := decide (f.flen < e.cur + len)
    (d.oper = 0x13 → e.cur + e.opB w % 2 ^ 24 ≤ 512 → goes (.adv dt pl k) 1 { e with cur := e.cur + e.opB w % 2 ^ 24 } f) ∧
    (d.oper = 0x14 → e.cur + len ≤ 512 → f.hdrs.length < 16 → goes (.push dt pl k) 1 { e with cur := e.cur + len, o := past }
      { f with hdrs := f.hdrs ++ [w.imm % 256 + 2 ^ 8 * e.cur + 2 ^ 18 * len + 2 ^ 28 * b2n past] }) ∧
    (∀ tag tb hb v bad, d.oper = 0x15 → berHead f e.cur = (tag, tb, hb, v, bad) → e.cur + tb ≤ 511 → e.cur + hb ≤ 512 → f.tail = true →
      goes (.decber dt pl k) 1 { e.setReg w.dst (v + 2 ^ 24 * tag + 2 ^ 40 * (if bad then tb else hb)) with
        cur := if d.na then e.cur else e.cur + (if bad then tb else hb)
        c := bad
        z := v == 0
        o := decide (f.flen < e.cur + (if bad then tb else hb) + v) } f) ∧
    (∀ n, d.oper = 0x1B → n = (if w.imm % 16 = 0 ∨ 8 < w.imm % 16 then 8 else w.imm % 16) → e.cur + 8 * n ≤ 512 → f.tail = true →
      f.sides.length < 8 → goes (.svx dt pl k) 1 e { f with sides := f.sides ++ [Side.sv (e.reg w.sa) (e.opB w % 65536) (bits (e.opB w) 16 8)
        (bits w.imm 8 4) ((List.range n).map fun i => f.winBE (e.cur + 8 * i) 8)] }) ∧
    (∀ at_ n : Nat, d.oper = 0x1C → (at_ : Int) = (e.cur : Nat) + w.soff → n = min (min (e.opB w % 512) 256) (f.flen - at_) → 0 < n →
      at_ + n ≤ 512 → f.tail = true →
      goes (.pat dt pl k) (max 1 ((n + 63) / 64))
        { e.setReg w.dst (patVector u f (bankNo pl f.bank) at_ n) with z := patVector u f (bankNo pl f.bank) at_ n == 0 } f) ∧
    (d.oper = 0x1C → e.opB w % 512 = 0 → goes (.pat dt pl k) 1 { e.setReg w.dst 0 with z := true } f) ∧
    (∀ n, d.oper = 0x1B → n = (if w.imm % 16 = 0 ∨ 8 < w.imm % 16 then 8 else w.imm % 16) → e.cur + 8 * n ≤ 512 → f.waits e.cur (e.cur + 8 * n - 1) = true →
      exec (.svx dt pl k) s = .next (State.settle (u.keepEngine pl k e.frame { e with waitW := true } f))) ∧
    (d.oper = 0x15 → e.cur ≤ 511 → f.waits e.cur e.cur = true →
      exec (.decber dt pl k) s = .next (State.settle (u.keepEngine pl k e.frame { e with waitW := true } f)))

/-- BR, BRX, CALL, RET, CHKLEN and END (R84, R94, R100, R139, R140; Table 3-6): where the recipe goes on, what the call stack holds, and
with which outcome and reason a parse ends. -/
def Obligations.RecipeControlAndEnd : Prop :=
  ∀ (dt : Nat) (pl : Fin 4) (k : Fin 8) (s u : State) (e : Engine) (f : Frame) (w : RWord) (d : Disp),
    u = s.advance dt → Carries u pl k e f w d →
    let goes (c : Instr) (pc : Nat) (e' : Engine) (f' : Frame) : Prop := exec c s = .next (State.settle (went u pl k e f 1 pc e' f'))
    let ends (c : Instr) (o r : Nat) : Prop := exec c s = .next (State.settle (ended u pl k e f o r 0))
    let en : Int := (e.cur : Nat) + w.soff + (e.opB w % 2 ^ 24 : Nat)
    (d.oper = 0x0F → goes (.br dt pl k) (w.tgt % 8192) e f) ∧
    (d.oper = 0x10 → goes (.brx dt pl k) (w.tgt % 8192 + (e.reg w.sa &&& w.imm % 8192)) e f) ∧
    (d.oper = 0x11 → e.calls.length < 4 → goes (.call dt pl k) (w.tgt % 8192) { e with calls := (e.pc + 1) :: e.calls } f) ∧
    (∀ a t, d.oper = 0x12 → e.calls = a :: t → goes (.ret dt pl k) a { e with calls := t } f) ∧
    (d.oper = 0x16 → f.tail = true → en ≤ (f.flen : Nat) → bit w.imm 0 = false → goes (.chklen dt pl k) (e.pc + 1) e f) ∧
    (d.oper = 0x16 → f.tail = true → (f.flen : Nat) < en → ends (.chklen dt pl k) 3 (bits w.imm 8 8)) ∧
    (d.oper = 0x16 → f.tail = true → bit w.imm 0 = true → en = (f.flen : Nat) → goes (.chklen dt pl k) (e.pc + 1) e f) ∧
    (d.oper = 0x16 → f.tail = true → bit w.imm 0 = true → en < (f.flen : Nat) →
      (bit w.imm 1 = true → en < 64 → f.flen ≤ 64 → goes (.chklen dt pl k) (e.pc + 1) e f) ∧
      (bit w.imm 1 = false ∨ 64 ≤ en ∨ 64 < f.flen → ends (.chklen dt pl k) 3 (bits w.imm 8 8))) ∧
    (d.oper = 0x16 → f.tail = false → ((f.maxFrame - 4 : Nat) : Int) < en → ends (.chklen dt pl k) 3 (bits w.imm 8 8)) ∧
    (d.oper = 0x16 → f.tail = false → bit w.imm 0 = true → en < 509 → ends (.chklen dt pl k) 3 (bits w.imm 8 8)) ∧
    (d.oper = 0x16 → f.tail = false → bit w.imm 0 = false → en ≤ ((f.maxFrame - 4 : Nat) : Int) → goes (.chklen dt pl k) (e.pc + 1) e { f with
      maxE := (match f.maxE with | some x => if en.toNat > x.1 then some (en.toNat, bits w.imm 8 8) else some x | none => some (en.toNat, bits w.imm 8 8)) }) ∧
    (d.oper = 0x1D → ends (.endParse dt pl k) (if w.imm % 16 < 6 then w.imm % 16 else 5) (bits w.imm 8 8))

/-- Exceptions (R80, R86, R87, R92; Table 3-10): an opcode whose entry is not valid, and a reserved condition, end the parse as TRAP under
ILLEGAL_OP; a fifth CALL and a RET on an empty stack trap; ADV, PUSH, loads, DECBER and SVX past the window and a seventeenth header exceed the DEPTH. A
program counter outside the bank's code is undefined behaviour (R119). -/
def Obligations.RecipeExceptionsEndTheParse : Prop :=
  ∀ (dt : Nat) (pl : Fin 4) (k : Fin 8) (s u : State) (e : Engine) (f : Frame) (w : RWord) (d : Disp),
    u = s.advance dt → Fetches u pl k e f w d → f.aborted = none → f.overrun = false →
    let ends (c : Instr) (o exc : Nat) : Prop := exec c s = .next (State.settle (ended u pl k e f o 0 exc))
    let at_ : Int := if d.abs then (w.off : Nat) else (e.cur * 8 : Nat) + w.soff
    let n := min (e.opB w % 16) 8
    let len := if w.sb = 0 then bits w.imm 16 10 else e.reg w.sb % 1024
    (operDefined d.oper = false → ends (.recipeNop dt pl k) 5 1) ∧
    (d.oper = 0x00 → e.cond w.cond = none → ends (.recipeNop dt pl k) 5 1) ∧
    (e.cond w.cond = some true →
      (d.oper = 0x11 → 4 ≤ e.calls.length → ends (.call dt pl k) 5 2) ∧
      (d.oper = 0x12 → e.calls = [] → ends (.ret dt pl k) 5 3) ∧
      (d.oper = 0x13 → 512 < e.cur + e.opB w % 2 ^ 24 → ends (.adv dt pl k) 4 4) ∧
      (d.oper = 0x14 → 512 < e.cur + len → ends (.push dt pl k) 4 4) ∧
      (d.oper = 0x14 → e.cur + len ≤ 512 → 16 ≤ f.hdrs.length → ends (.push dt pl k) 4 5) ∧
      (d.oper = 0x01 → f.load d at_ w.width = .window → ends (.ldf dt pl k) 4 4) ∧
      (d.oper = 0x03 → n ≠ 0 → f.load d at_ (8 * n) = .window → ends (.ldv dt pl k) 4 4) ∧
      (d.oper = 0x15 → 511 < e.cur → ends (.decber dt pl k) 4 4) ∧
      (d.oper = 0x1B → 512 < e.cur + 8 * (if w.imm % 16 = 0 ∨ 8 < w.imm % 16 then 8 else w.imm % 16) → ends (.svx dt pl k) 4 4)) ∧
    (∀ (i : Instr) (oper : Nat) (t : State) (x : Engine), recipeOf i = some (oper, dt, pl, k) → sfind (t.advance dt).engines (pl * 8 + k) = some x → x.waitW = false →
      x.done = false → sfind (t.advance dt).frames x.frame = some f → (t.advance dt).codeOf (bankNo pl f.bank) ≤ x.pc →
      exec i t = .next (State.settle ((t.advance dt).undefined .outsideCode)))

/-- R83: an instruction whose condition is false has no effect other than to advance PC and use one slot; for every operation of Table 3-6. -/
def Obligations.RecipeFalseConditionSkips : Prop :=
  ∀ (i : Instr) (oper dt : Nat) (pl : Fin 4) (k : Fin 8) (s u : State) (e : Engine) (f : Frame) (w : RWord) (d : Disp),
    recipeOf i = some (oper, dt, pl, k) → u = s.advance dt → Fetches u pl k e f w d → d.oper = oper → e.cond w.cond = some false → f.aborted = none →
    f.overrun = false → exec i s = .next (State.settle (went u pl k e f 1 (e.pc + 1) e f))

/-! ## Ports, buffers and dispatch (chapters 02, 03, 08) -/

/-- FRAME_HEAD_READY, BUF_SPILL_RETRY, ENGINE_DISPATCH and P43_INJECT (R72 to R74, R313, R317, R318): a good frame at a port that
receives is counted and asks for a buffer of its pool, a long one that of its length probe; a pool grants, and a requester left with none spills, or is
dropped and counted, or waits where it has no MAC; the dispatcher gives the oldest frame a free engine with the entry word of its port; an injected frame
enters the same way, and is held back while its port's queue is full. -/
def Obligations.FramesEnterAndAreDispatched : Prop :=
  (∀ (dt : Nat) (a : Arrival) (s u w x v : State) (k m : Nat) (d : Int) (ctl : Bool), u = s.advance dt → a.cut = false →
    w = (if a.port < 40 then u.pcsCount a else u) → w.rxAlive a.port = true → m = u.maxFrameAt a.port (u.now - a.age) →
    (a.long = false → 64 ≤ a.len ∧ a.len ≤ m ∧ a.fcsOk = true ∧ a.fecBad = false) → (a.long = true → 512 < m) →
    x = (if a.long then w else (w.bump .RX_FRAMES a.port).add .RX_OCTETS a.port a.len) →
    beNat a.bytes 0 6 ≠ 0x0180C2000001 → x.macsecIn a.port a.secTag a.bytes (!a.long) = (none, v) → v.ready (4 + portPl a.port) = true →
    v.plFenced (portPl a.port) = false → v.pwr.gated.contains (portPl a.port) = false → v.pendingOf a.port < 128 →
    k = choosePool a.long a.len a.bytes m → d = (a.subNs : Int) + v.rxDelay a.port →
    ctl = (decide (a.port < 32) && v.flag F.MSEC_CTL.RX_EN a.port) →
    exec (.frameHeadReady dt [a]) s = .next (State.settle (State.grantCycle { v with
      nextFrame := v.nextFrame + 1
      nextHead := v.nextHead + 1
      frames := sset v.frames v.nextFrame {
        port := a.port, pl := portPl a.port, bytes := a.bytes, long := a.long, tail := !a.long, maxFrame := m, ts := stampNs (v.frc - a.age) d,
        tsPtp := stampNs (v.ptpAgo a.age) d, tsSub := stampSub d, untrace := v.untraced, suspect := v.flag F.FAB_STATE.TIME_SUSPECT 0, pool0 := k,
        phase := .waitBuf k, headSeq := v.nextHead, macsec := ctl, icv := if a.long && ctl then a.secTag else none,
        off := if a.long then (if ctl then a.secTag.elim 0 SecTag.size else 0) else a.len - (a.bytes.length + 4), src := v.gport a.port } }))) ∧
  (∀ (dt : Nat) (s u : State) (k : Fin 4) (fid : Nat) (f : Frame), u = s.advance dt → u.requests k = [(fid, f)] →
    (∀ j : Fin 4, j ≠ k → u.requests j = []) →
    (0 < u.poolFree k → exec (.bufSpillRetry dt) s = .next (State.settle (u.grant k (fid, f)))) ∧
    (u.poolFree k = 0 → u.flag F.BUF_REQ_CFG.SPILL f.port = true → k.val < 3 → exec (.bufSpillRetry dt) s =
      .next (State.settle (u.modFrame fid fun g => { g with phase := .waitBuf (k + 1) }))) ∧
    (u.poolFree k = 0 → (u.flag F.BUF_REQ_CFG.SPILL f.port = false ∨ k.val = 3) → f.port < 40 ∨ f.port = 41 → exec (.bufSpillRetry dt) s =
      .next (State.settle (State.keepTail { u.bump .BUF_NONE (f.port * 4 + f.pool0) with frames := sdel u.frames fid } fid f))) ∧
    (u.poolFree k = 0 → (u.flag F.BUF_REQ_CFG.SPILL f.port = false ∨ k.val = 3) → f.port = 40 ∨ 42 ≤ f.port → exec (.bufSpillRetry dt) s =
      .next (State.settle (u.modFrame fid fun g => { g with phase := .waitBuf g.pool0 })))) ∧
  (∀ (dt : Nat) (pl : Fin 4) (s u : State) (k fid : Nat) (f : Frame) (entry : Nat), u = s.advance dt → u.ready (4 + pl) = true →
    u.plFenced pl = false → u.pwr.gated.contains pl.val = false → u.freeEngine pl = some k → u.nextHeadReady pl = some (fid, f) →
    entry = u.reg .PARSE_ENTRY (bankNo pl (u.fld F.PARSE_CTL.ACTIVE_BANK pl) * 44 + f.port) 0 → bit entry 31 = true →
    exec (.engineDispatch dt pl 0) s = .next (State.settle (State.perfEv (State.keepEngine { u with nextDisp := u.nextDisp + 1 } pl k fid
        { frame := fid, w := List.replicate 16 0, pc := entry % 8192, since := u.now }
        { f with gen := u.cur, bank := u.fld F.PARSE_CTL.ACTIVE_BANK pl, disp := u.nextDisp, phase := .parsing k,
                 fields := u.meta0 pl f.port, kb := [0, 0, 0, 0], hdrs := [] })
      2 1 pl f.port 0 u.cur (f.flen % 16384)))) ∧
  (∀ (dt : Nat) (pl : Fin 4) (b : Bytes) (s u : State), u = s.advance dt → u.pendingOf 43 < 128 →
    exec (.p43Inject dt pl b) s = .next (State.settle (State.grantCycle { u with
      nextFrame := u.nextFrame + 1
      nextHead := u.nextHead + 1
      frames := sset u.frames u.nextFrame {
        port := 43, pl := pl, bytes := b, ts := u.frc, tsPtp := u.ptp, untrace := u.untraced, suspect := u.flag F.FAB_STATE.TIME_SUSPECT 0,
        pool0 := poolFor (b.length + 4), phase := .waitBuf (poolFor (b.length + 4)), headSeq := u.nextHead, src := u.gport 43 } }))) ∧
  (∀ (dt : Nat) (pl : Fin 4) (b : Bytes) (s u : State), u = s.advance dt → 128 ≤ u.pendingOf 43 → exec (.p43Inject dt pl b) s = .next u.settle)

/-- R43, R45, R46, R47, R49, R66, R107 and R318: what the MAC discards before parse is counted and enters nothing: a frame cut off before it was
head-ready, a runt, a bad FCS, an oversize frame, a frame whose pipeline is not READY, and a frame whose port has 128 frames waiting; a port that
does not receive counts no frame; the PCS's own counts come first. -/
def Obligations.BadArrivalsAreCountedAndDiscarded : Prop :=
  ∀ (dt : Nat) (a : Arrival) (s u w : State) (m : Nat), u = s.advance dt → a.port < 40 → w = u.pcsCount a → m = u.maxFrameAt a.port (u.now - a.age) →
    let leaves (v : State) : Prop := exec (.frameHeadReady dt [a]) s = .next (State.settle (State.grantCycle { v with nextHead := v.nextHead + 1 }))
    let drops (c : Ctr) (v : State) : Prop := leaves (v.bump c a.port)
    (a.cut = true → drops .RX_ABORT w) ∧
    (a.cut = false → w.rxAlive a.port = false → leaves w) ∧
    (a.cut = false → w.rxAlive a.port = true →
      (a.long = true → m ≤ 512 → drops .RX_OVERSIZE w) ∧
      (a.long = false →
        (a.len < 64 → drops .RX_RUNT w) ∧
        (64 ≤ a.len → (a.fcsOk = false ∨ a.fecBad = true) → drops .RX_FCS_ERR w) ∧
        (64 ≤ a.len → a.fcsOk = true → a.fecBad = false → m < a.len → drops .RX_OVERSIZE w) ∧
        (∀ v, 64 ≤ a.len → a.fcsOk = true → a.fecBad = false → a.len ≤ m → beNat a.bytes 0 6 ≠ 0x0180C2000001 →
          (((w.bump .RX_FRAMES a.port).add .RX_OCTETS a.port a.len).macsecIn a.port a.secTag a.bytes true) = (none, v) →
          (v.ready (4 + portPl a.port) = false → drops .RX_NOT_READY v) ∧
          (v.ready (4 + portPl a.port) = true → v.plFenced (portPl a.port) = false → v.pwr.gated.contains (portPl a.port) = false →
            128 ≤ v.pendingOf a.port → drops .PARSE_STALL_DROP v))))

/-- MAC_ABORT, BUF_OVERRUN and PARSE_WINDOW_WAIT_END (R104, R139, R319, R849): a frame still in reception that goes bad is counted once and
marked for the next boundary; bytes that fit its buffer are stored and the blocks they complete get their CRC-32C, bytes that do not are an overrun; 516
bytes end a wait. -/
def Obligations.LongFramesInReception : Prop :=
  (∀ (dt f : Nat) (c : AbortCause) (s u v : State) (x : Frame), u = s.advance dt → sfind u.frames f = some x → x.tail = false → x.port < 40 →
    v = (u.bump (abortCtr c) x.port).countPairs x.count (x.bytes.length + x.off) →
    (x.aborted = none → x.phase = .ended → exec (.macAbort dt f c) s = .next (State.settle { v with
      frames := sset u.frames f { x with aborted := some c, count := [] } })) ∧
    (∀ k e, x.aborted = none → x.phase = .parsing k → sfind u.engines (x.pl * 8 + k) = some e → e.waitW = false →
      exec (.macAbort dt f c) s = .next (State.settle { v with frames := sset u.frames f { x with aborted := some c, count := [] } })) ∧
    (x.aborted.isSome = true → x.phase = .ended → exec (.macAbort dt f c) s = .next u.settle)) ∧
  (∀ (dt f id : Nat) (more : Bytes) (s u : State) (x : Frame), u = s.advance dt → sfind u.frames f = some x → x.tail = false → x.buf = some id →
    x.stopped = false →
    (x.bytes.length + more.length ≤ poolSize (id / 262144) → exec (.bufOverrun dt f more) s =
      .next (State.settle (State.seal { u with frames := sset u.frames f { x with bytes := x.bytes ++ more } } f))) ∧
    (poolSize (id / 262144) < x.bytes.length + more.length → x.phase = .ended → exec (.bufOverrun dt f more) s =
      .next (State.settle { u.bump .BUF_OVERRUN x.port with frames := sset u.frames f { x with bytes := x.bytes ++ more, overrun := true } }))) ∧
  (∀ (dt f : Nat) (more : Bytes) (s u v : State) (x : Frame), u = s.advance dt → sfind u.frames f = some x → x.tail = false →
    v = State.seal { u with frames := sset u.frames f { x with bytes := x.bytes ++ more } } f →
    (516 ≤ x.bytes.length + more.length → exec (.parseWindowWaitEnd dt f more) s = .next (State.settle { v with
      engines := v.engines.map fun e => (e.1, if e.2.frame == f then { e.2 with waitW := false } else e.2) })) ∧
    (x.bytes.length + more.length < 516 → exec (.parseWindowWaitEnd dt f more) s = .next v.settle))

/-- LINK_UP, LINK_DOWN and SGMII_SPEED_CHANGE (R37 to R39, R44, R50): a link whose peer matches in mode, rate and FEC reports up with its rate
and raises its interrupt signal; a peer that does not match, or a PHY at half duplex, leaves the port down; a link that goes down runs the port-down
effects. -/
def Obligations.LinkEventsSetPortStatus : Prop :=
  ∀ (dt : Nat) (p : Fin 40) (s u : State) (x : Port), u = s.advance dt → x = sget u.ports {} p →
    (∀ (y : LinkPeer) (v : State), v = State.setReg { u with ports := sset u.ports p { x with peer := some y } } .PORT_STATUS p 0
        (putBits (u.reg .PORT_STATUS p 0) 2 1 0) →
      u.fecOk p = true → v.portExists p = true → v.flag F.PORT_CFG.ENABLE p = true → v.fecOk p = true → x.down = false → v.linkUp p = false →
      v.pwr.gated.contains (portPl p) = false →
      (v.peerMatches p y = true → y.half = false → exec (.linkUp dt p y.speed y.toPeerMode) s = .next (State.settle (State.irqSignal
        ((v.setReg .PORT_STATUS p 0 (1 + 32 * y.speed + (v.reg .PORT_STATUS p 0 &&& 16))).txEnds p) (128 + p) true))) ∧
      (v.peerMatches p y = true → y.half = true → exec (.linkUp dt p y.speed y.toPeerMode) s = .next (State.settle
        (v.setReg .PORT_STATUS p 0 (v.reg .PORT_STATUS p 0 ||| 2)))) ∧
      (v.peerMatches p y = false → exec (.linkUp dt p y.speed y.toPeerMode) s = .next v.settle)) ∧
    (exec (.linkDown dt p) s = .next (State.settle (State.linkLost { u with ports := sset u.ports p { x with peer := none } } p))) ∧
    (∀ speed, u.sgmii p = true → u.linkUp p = true → 1 ≤ speed → speed ≤ 3 →
      let told (half : Bool) : State := { u with ports := sset u.ports p { x with
        peer := x.peer.map fun (y : LinkPeer) => { y with speed := speed, half := half } } }
      exec (.sgmiiSpeedChange dt p speed false false none) s = .next (State.settle ((told false).setFld F.PORT_STATUS.RATE p speed)) ∧
      (∀ v, v = (told true).linkLost p →
        exec (.sgmiiSpeedChange dt p speed true false none) s = .next (State.settle
          (v.setReg .PORT_STATUS p 0 (v.reg .PORT_STATUS p 0 ||| 2)))))

/-- PFC_RECEIVED, PFC_PAUSE_EXPIRY, LPI_ENTRY and PEER_LPI_SIGNAL (R55, R56, R60, R62): a PFC frame is counted as a frame; one for one priority pauses it for its
quanta or ends its pause, one for a priority that is not set counts once as ignored, and a port that does not receive takes none; a pause that has run out ends; an idle port enters low-power idle after 8 µs; the peer's signal sets LPI_RX. -/
def Obligations.FlowControlAndLowPowerIdle : Prop :=
  ∀ (dt : Nat) (s u : State), u = s.advance dt →
    (∀ (p : Fin 40) (n : Fin 8) (q : BitVec 16) (v : State), u.rxAlive p = true → v = (u.bump .RX_FRAMES p).add .RX_OCTETS p 64 →
      let goes (t : State) : Prop := exec (.pfcReceived dt p (BitVec.ofNat 8 (2 ^ n.val)) (List.replicate n.val 0 ++ [q])) s = .next t.settle
      (p.val < 32 → bit (u.fld F.PORT_CFG.PFC_PRI p) n = true → u.rate p ≠ 0 → goes { v.bump .RX_PFC (p * 8 + n) with
        pfcPause := if q = 0 then sdel u.pfcPause (p * 8 + n) else sset u.pfcPause (p * 8 + n) (u.now + cdiv (q.toNat * 512000) (u.rate p)) }) ∧
      (32 ≤ p.val ∨ bit (u.fld F.PORT_CFG.PFC_PRI p) n = false → goes (v.bump .RX_PFC_IGNORED p))) ∧
    (∀ (p : Fin 40) (m : BitVec 8) (q : List (BitVec 16)), u.rxAlive p = false → exec (.pfcReceived dt p m q) s = .next u.settle) ∧
    (∀ (p : Fin 32) (n : Fin 8) (t : Nat), sfind u.pfcPause (p * 8 + n) = some t → t ≤ u.now →
      exec (.pfcPauseExpiry dt p n) s = .next (State.settle { u with pfcPause := sdel u.pfcPause (p * 8 + n) })) ∧
    (∀ (p : Fin 40) (x : Port), x = sget u.ports {} p → u.lpiOk p = true → u.flag F.PORT_STATUS.LPI_TX p = false → sfind u.tx p = none →
      x.txIdle + 8000 ≤ u.now → exec (.lpiEntry dt p) s = .next (State.settle (State.settlePower
        { (u.setFld F.PORT_STATUS.LPI_TX p 1).bump .LPI_TX_EVENTS p with
          ports := sset u.ports p { x with lpiAt := u.now } }))) ∧
    (∀ (p : Fin 40) (on : Bool), u.flag F.PORT_CFG.EEE_EN p = true →
      exec (.peerLpiSignal dt p on) s = .next (State.settle (u.setFld F.PORT_STATUS.LPI_RX p (b2n on)))) ∧
    (∀ (p : Fin 40), u.flag F.PORT_CFG.EEE_EN p = false →
      exec (.peerLpiSignal dt p true) s = .next (State.settle (u.bump .RX_SYMBOL_ERR p)))

/-! ## Release, lookup and verification (chapters 04 to 06, 10) -/

/-- LOOKUP_RELEASE and TCAM_WINDOW_START (R77, R142, R143, R239, R333, R436): the earliest frame of a port goes to the slow path, ends when it was found bad,
is looked up, or waits for a search slot of the next window or behind an earlier frame that waits; a port caught in a bad pair is undefined behaviour.
Releases of one cycle act in ascending pipeline number. -/
def Obligations.FramesAreReleasedInOrder : Prop :=
  ∀ (dt : Nat) (s u : State), u = s.advance dt →
    (∀ (p : Fin 44) (fid cb : Nat) (f g : Frame) (v : State), u.nextRelease p = some (fid, g) → g.pl < 4 → f = { g with capBad := cb } →
      v = (if u.pairBad1 p then u.undefined .pair else u).modFrame fid (fun f => { f with capBad := cb }) → v.nextRelease p = some (fid, f) →
      let goes (t : State) : Prop := exec (.lookupRelease dt { ports := [p], capBad := cb }) s = .next t.settle
      (f.fwd = false → f.aborted = none → f.overrun = false → f.lateBad = false →
        goes (State.releaseHeld (State.admitFrame { v with lookQ := del v.lookQ p } fid f f.resOf
          [slowCopy fid f f.resOf (slowSource f.outcome) f.reason v.frc]) f.pl)) ∧
      (f.lateBad = true ∨ f.overrun = true ∨ f.aborted.isSome = true → searches f = 0 ∨ f.fwd = false →
        goes (State.releaseHeld (State.endFrame { v with lookQ := del v.lookQ p } fid) f.pl)) ∧
      (f.fwd = true → 0 < searches f → v.searchBudget ≤ v.slotsUsed f.pl ∨ v.behind p f.pl f.disp = true → goes { v with lookQ := ins v.lookQ p }) ∧
      (f.fwd = true → f.aborted = none → f.overrun = false → f.lateBad = false → searches f = 0 ∨ v.slotsUsed f.pl < v.searchBudget ∧
        v.behind p f.pl f.disp = false → goes (State.releaseHeld (State.lookupFrame { v with lookQ := del v.lookQ p } fid f) f.pl))) ∧
    (∀ (p q : Fin 44) (cb a b : Nat), (u.nextRelease p).map (·.2.pl) = some a → (u.nextRelease q).map (·.2.pl) = some b → a < b → b < 4 →
      exec (.lookupRelease dt { ports := [q, p], capBad := cb }) s = .next (State.settle ((u.releaseOf cb a p).releaseOf cb b q))) ∧
    (∀ (pl : Fin 4) (p : Nat), u.lookQ = [p] → u.slotsUsed pl < u.searchBudget → u.waitingPort pl = some p →
      exec (.tcamWindowStart dt pl) s = .next (State.settle (u.releasePort p)))

/-- AUTH_VERDICT (R296 to R299, R638): no qualifying key, no key of the algorithm, exceeded HMAC capacity and a wrong value are the four
failures, and OVERLOAD passes a frame beyond the capacity; a good value releases the frame's side records and passes it on, or ends a frame that only
they awaited. -/
def Obligations.VerdictsDecideAuthentication : Prop :=
  ∀ (dt f cb : Nat) (pl : Fin 4) (s v u : State) (y x : Frame) (q : AuthReq) (keys : List GKey) (alg : Nat), v = s.advance dt → sfind v.frames f = some y →
    u = v.modFrame f (fun x => { x with capBad := cb }) → x = { y with capBad := cb } → x.pl = pl.val → x.phase = .verdict → x.tail = true → alg = bits (sget x.fields 0 8) 5 3 → q = x.auth.getD (u.authAsk x).1 →
    keys = q.keys.filter (fun k => k.alg == alg) →
    let ends (v : State) (c : Option Nat) : Prop := exec (.authVerdict dt pl f cb) s = .next (State.settle (State.releaseHeld (match x.res, c with
      | none, c => v.dropVerdict f x c
      | some r, none => (v.sideVerdict f true false).toAdmission f x r
      | some r, some c => v.authFailed f x r c) x.pl))
    (u.authNeed x = 2 → ends u (some 3)) ∧
    (u.authNeed x ≠ 2 → q.keys = [] → ends u (some 0)) ∧
    (u.authNeed x ≠ 2 → q.keys ≠ [] → macLen alg = 0 ∨ keys = [] → ends u (some 1)) ∧
    (u.authNeed x ≠ 2 → macLen alg ≠ 0 → keys ≠ [] →
      (q.overload = true → u.flag F.AUTH_VCFG.OVERLOAD x.port = false → ends u (some 2)) ∧
      (q.overload = true → u.flag F.AUTH_VCFG.OVERLOAD x.port = true → ends (u.bump .AUTH_PASS_OVERLOAD x.port) none) ∧
      (q.overload = false → x.authNamed = true → (keys.any fun k => x.valueOk alg k.key) = true → ends u none) ∧
      (q.overload = false → x.authNamed = true → (keys.any fun k => x.valueOk alg k.key) = false → ends u (some 2)) ∧
      (q.overload = false → x.authNamed = false → ends u.fresh.2 (if u.fresh.1 % 2 = 1 then some 2 else none)))

/-- FRAME_TAIL (R141, R319, R849): at the tail the frame's length is known. Past MAX_FRAME it is aborted, past its buffer it is
an overrun; otherwise it is counted, its tail is there, its last block gets its CRC-32C, and the deferred length checks are made on it; a frame that has
left before its tail is counted and checked too.
A deferred length check that fails at the tail counts PARSE_LATE_MALFORMED and PARSE_MALFORMED with its reason; a frame not yet admitted
is marked, and one already admitted loses its copies; one that left before its tail is counted.
CMP_RESOLVE: a record whose second copy never came is counted SINGLE after the wait; equal digests match and release the held copy; different
ones diverge, set both lane-status bits, raise the pair's interrupt and event line, and with DIV_COPY send the held copy to P43 before it is released. -/
def Obligations.TailsEndLongFrames : Prop :=
  ((∀ (dt f id : Nat) (more all : Bytes) (s u w : State) (x y : Frame), u = s.advance dt → sfind u.frames f = some x → x.tail = false → x.buf = some id →
      x.aborted = none → x.overrun = false → all = x.bytes ++ more → 4 ≤ all.length →
      y = { x with bytes := all.take (all.length - 4), tail := true, icv := none, count := [] } →
      w = (u.countPairs x.count (all.length + x.off)).modFrame f (fun x => { x with count := [] }) →
      (x.maxFrame < all.length + x.off → exec (.frameTail dt f more) s = .next (State.settle ((w.macAbort f .tooLong).endWaiting f))) ∧
      (∀ v, all.length + x.off ≤ x.maxFrame → x.port < 40 → v = (w.bump .RX_FRAMES x.port).add .RX_OCTETS x.port (all.length + x.off) →
        (poolSize (id / 262144) < all.length → exec (.frameTail dt f more) s = .next (State.settle (v.overrunFrame f y))) ∧
        (all.length ≤ poolSize (id / 262144) → x.icv = none → exec (.frameTail dt f more) s =
          .next (State.settle ((State.seal { v with frames := sset v.frames f y } f).tailGood f y))))) ∧
    (∀ (dt f : Nat) (more : Bytes) (s u : State) (t : Tail), u = s.advance dt → sfind u.frames f = none → sfind u.tails f = some t →
      exec (.frameTail dt f more) s = .next (State.settle (u.lostTail f t more.length)))) ∧
  ((∀ (u v w : State) (fid r : Nat) (f : Frame), lateReason f.bytes.length f.maxE f.exactE = some r →
      v = u.overBudget f → w = (State.bump { v with frames := sset v.frames fid f } .PARSE_LATE_MALFORMED f.pl).bump .PARSE_MALFORMED (f.pl * 256 + r) →
      (f.phase = .admitted → f.ended = true → u.tailGood fid f = w.killCopies fid)) ∧
    (∀ (u v w : State) (fid r : Nat) (f g : Frame), f.phase = .ended → lateReason f.bytes.length g.maxE g.exactE = some r → (g, v) = (u.overBudget f).authStart f →
      g.phase = .ended → g.bytes = f.bytes →
      w = (State.bump { v with frames := sset v.frames fid g } .PARSE_LATE_MALFORMED g.pl).bump .PARSE_MALFORMED (g.pl * 256 + r) →
      u.tailGood fid f = w.modFrame fid fun f => { f with lateBad := true }) ∧
    (∀ (u w : State) (f n l r : Nat) (t : Tail), l = t.len + n + t.off → l ≤ t.maxFrame → t.port < 40 → t.icnt ≤ budget l → t.parsed = true →
      lateReason (t.len + n - 4) t.maxE t.exactE = some r →
      w = ((State.countPairs { u with tails := sdel u.tails f } t.count l).bump .RX_FRAMES t.port).add .RX_OCTETS t.port l →
      u.lostTail f t n = (w.bump .PARSE_LATE_MALFORMED t.pl).bump .PARSE_MALFORMED (t.pl * 256 + r))) ∧
  (∀ (dt i : Nat) (pl : Fin 4) (s u v : State) (c : Cmp), u = s.advance dt → (sget u.cmp [] pl)[i]? = some c →
      v = { u with cmp := sput u.cmp [] pl ((sget u.cmp [] pl).eraseIdx i) } →
      (c.second = none → c.at_ + 1000 * max 1 (u.fld F.PRED_PAIR.CMP_WAIT_US c.pair) ≤ u.now →
        exec (.cmpResolve dt pl i) s = .next (State.settle (v.bump .PRED_CMP_SINGLE (c.pair * 2 + c.lane)))) ∧
      (c.second = some c.digest → exec (.cmpResolve dt pl i) s =
        .next (State.settle ((v.unhold (c.frame2.getD 0)).bump .PRED_CMP_MATCH c.pair))) ∧
      (∀ d w, c.second = some d → d ≠ c.digest → c.frame2 = none → w = v.bump .PRED_DIVERGE c.pair → exec (.cmpResolve dt pl i) s =
        .next (State.settle (((w.setReg .PRED_LANE_STAT c.pair 0 (w.reg .PRED_LANE_STAT c.pair 0 ||| 3)).irqSignal (168 + c.pair) true).evtLine
          c.pair true))) ∧
      (∀ d w x f cp, c.second = some d → d ≠ c.digest → c.frame2 = some x → sfind u.frames x = some f →
        w = State.evtLine (((v.bump .PRED_DIVERGE c.pair).setReg .PRED_LANE_STAT c.pair 0
          ((v.bump .PRED_DIVERGE c.pair).reg .PRED_LANE_STAT c.pair 0 ||| 3)).irqSignal (168 + c.pair) true) c.pair true →
        sfind w.frames x = some f → cp = { slowCopy x f f.resOf 0 4 w.frc with meta7 := some c.digest } →
        exec (.cmpResolve dt pl i) s = .next (State.settle (if w.flag F.PRED_LANE_STAT.DIV_COPY c.pair then (w.addCopy x f cp).unhold x else w.unhold x))))

/-! ## Table maintenance (chapters 05 to 07) -/

/-- LEARN_WINDOW and FLUSH_WALK (R193, R194, R200, R207): the oldest learn request is decided with all of its key and gone from the queue; a
request of a table that is being rehashed waits; one whose port is being flushed is discarded and counted; one against a host write is counted; a walk retires every entry of its port. -/
def Obligations.LearningAndFlushing : Prop :=
  ∀ (dt : Nat) (s u : State), u = s.advance dt →
    (∀ (h : Learn), u.learnQ = [h] → u.flag F.EXM_LTBL_CTL.REHASH_BUSY h.table = true → exec (.learnWindow dt) s = .next u.settle) ∧
    (∀ (h : Learn), u.learnQ = [h] → u.flag F.EXM_LTBL_CTL.REHASH_BUSY h.table = false → h.drop = false →
      u.flushQ.any (fun f => f.gport == h.gport) = true →
      u.kindOf h.table = 1 → u.hostPending h.table h.key = false →
      exec (.learnWindow dt) s = .next (State.settle (State.add { u with learnQ := [] } .LEARN_FLUSH_DISCARD 0 1))) ∧
    (∀ (h : Learn) (v : State), u.learnQ = [h] → u.flag F.EXM_LTBL_CTL.REHASH_BUSY h.table = false → u.flushQ = [] → u.kindOf h.table = 1 →
      v = State.add { u with learnQ := [] } .LEARN_FLUSH_DISCARD 0 0 →
      (u.hostPending h.table h.key = true → h.notice = false → exec (.learnWindow dt) s =
        .next (State.settle ((v.add .LEARN_HOST_PENDING 0 1).add .FAB_NOTICE_IGN 0 0))) ∧
      (u.hostPending h.table h.key = false → h.drop = false → exec (.learnWindow dt) s = .next (State.settle (v.learnWin h 1)))) ∧
    (∀ (f : Flush) (v : State), u.flushQ = [f] → f.staged = false → f.tell = false → f.ch = none → v = u.flushLearns [f.gport] →
      exec (.flushWalk dt) s = .next (State.settle { v with
        flushQ := []
        exm := v.exm.map fun e => if State.flushHits { v with flushQ := [] } f e.2 then (e.1, { e.2 with retired := true, until_ := v.cur }) else e }))

/-- AGEING_TICK and MAINT_SWEEP (R171, R173, R209, R271): a tick ages every entry of its table once a third of AGE_TIME has passed; a sweep frees what every live
generation has passed, settles what all of them see, and advances OLD.
At a tick an entry that was hit is young again; one that was not grows a step older, and at the third step it is removed and counted.
Static, pinned and foreign entries do not age. -/
def Obligations.AgeingAndMaintenance : Prop :=
  (∀ (dt : Nat) (s u : State), u = s.advance dt →
      (∀ (t : Fin 256), u.fld F.EXM_LTBL_CTL.AGE_TIME t ≠ 0 → u.flag F.EXM_LTBL_CTL.REHASH_BUSY t = false →
        u.fld F.EXM_LTBL_CTL.AGE_TIME t * 1000000000 ≤ 3 * (u.now - sget u.ageAt 0 t) →
        exec (.ageingTick dt t) s = .next (State.settle (u.exm.foldl (fun (v : State) e => v.ageOne t e)
          { u with ageAt := sset u.ageAt t u.now }))) ∧
      (∀ (old : Nat) (exm : Sparse Entry), old = u.old → u.rehash = [] →
        exm = (u.exm.filter fun e => !(e.2.retired && genGe old e.2.until_)).map (fun e =>
          (e.1, u.unpin { e.2 with settled := e.2.settled || genGe old e.2.from_ })) →
        exec (.maintSweep dt) s = .next (State.settle { u with
          exm := exm
          fdbTime := u.fdbTime.filter fun e => (sfind exm e.1).isSome
          lpm := (u.lpm.filter fun e => !(e.2.retired && genGe old e.2.until_)).map fun e =>
            (e.1, { e.2 with settled := e.2.settled || genGe old e.2.from_ })
          tcam := (u.tcam.filter fun e => !(e.2.retired && genGe old e.2.until_)).map fun e =>
            (e.1, { e.2 with settled := e.2.settled || genGe old e.2.from_ })
          ver := u.ver.map fun e => (e.1, settleVers old e.2)
          exmSw := u.exmSw.map fun e => (e.1, e.2.filter fun x => !genGe old x.1)
          oldS := old }))) ∧
  (∀ (u : State) (t p : Nat) (e : Entry), e.table = t → e.desc = u.descAt t u.cur → e.static_ = false → e.pinned = false → e.vis u.cur = true →
      u.kindOf t ≠ 1 →
      (e.hit = true → e.learned = false → u.ageOne t (p, e) = { u with exm := sset u.exm p { e with hit := false, age := 0 } }) ∧
      (e.hit = false → e.age < 2 → u.ageOne t (p, e) = { u with exm := sset u.exm p { e with age := e.age + 1 } }) ∧
      (e.hit = false → 2 ≤ e.age → u.ageOne t (p, e) = (u.exmRemoveNow p { e with age := 3 } true).bump .EXM_AGED t))

/-- TCAM_SCRUB, THROTTLE_RISE, THROTTLE_FALL and POLICER_SWEEP (R232, R236, R256): a row that differs from its good shadow is put right and counted; the throttle level
rises at once and falls one level at 92 °C and 99 °C; a sweep brings every policer's bucket up to date. -/
def Obligations.TcamScrubThrottleAndPolicers : Prop :=
  ∀ (dt : Nat) (s u : State), u = s.advance dt →
    (∀ (pl : Fin 4) (i : Nat) (row : Row), u.tcam = [(i, row)] → i / 8192 = pl → row.shBad = false → row.fixed ≠ row →
      exec (.tcamScrub dt pl) s = .next (State.settle (State.add { u with tcam := [(i, row.fixed)] } .TCAM_SCRUB_FIX pl 1))) ∧
    (∀ (temp : Int), u.fld F.TCAM_THR_STAT.LEVEL 0 < throttleEntry temp → exec (.throttleRise dt temp) s =
      .next (State.settle (State.setThrottle { u with pwr := { u.pwr with hot := temp } } (throttleEntry temp)))) ∧
    (∀ (temp : Int), u.fld F.TCAM_THR_STAT.LEVEL 0 = 1 → temp ≤ 92 * 256 → exec (.throttleFall dt temp) s =
      .next (State.settle (State.setThrottle { u with pwr := { u.pwr with hot := temp } } 0))) ∧
    (∀ (temp : Int), u.fld F.TCAM_THR_STAT.LEVEL 0 = 2 → temp ≤ 99 * 256 → exec (.throttleFall dt temp) s =
      .next (State.settle (State.setThrottle { u with pwr := { u.pwr with hot := temp } } 1))) ∧
    (∀ (n : Nat) (x : Pol), u.pol = [(n, x)] → u.written .POL_CFG = [] →
      exec (.policerSweep dt) s = .next (State.settle { u with pol := [(n, polUpdate u.now (u.polCfg n) x)] }))

/-! ## Scheduling and gates (chapter 09) -/

/-- SCHED_DECISION, COPY_TX_DONE and AGE_SWEEP (R323, R327, R340, R364, R366, R398): a decision of a node that is ready takes the copy its tree picks out of
its queue; a tree R398 leaves undefined, and a port of a bad pair, are undefined behaviour; in the safe state a decision drops the oldest queue's head; the last
byte of a copy counts it and lets its frame go, and one that reaches a block that cannot be read ends there; a sweep discards over-age heads. -/
def Obligations.CopiesAreScheduledAndSent : Prop :=
  ∀ (dt : Nat) (s u : State), u = s.advance dt →
    (∀ (node : Fin 64) (bad : List Nat) (cb : Nat) (v x0 x1 w : State) (l : List Act), v = u.settleQueues → l = v.active node →
      let goes (t : State) : Prop := exec (.schedDecision dt node { blocks := bad, capBad := cb }) s = .next t.settle
      (v.flt.safe = true → goes (v.dropHead l)) ∧
      (v.flt.safe = false → l = [] ∨ v.nodeReady node = false → goes v) ∧
      (v.flt.safe = false → l ≠ [] → v.nodeReady node = true → x0 = (if node < 44 && v.pairBad1 node then v.undefined .pair else v) →
        x1 = (if x0.strays node l then x0.undefined (if node < 44 then .tree else .strayQueue) else x0) →
        w = l.foldl (fun x a => x.refill 3 a.q) (((l.map (·.g)).foldl ins []).foldl (fun x g => x.refill 2 g)
          (((l.map (·.c)).foldl ins []).foldl (fun x c => x.refill 1 c) (x1.refill 0 node))) →
        (w.tokensOk 0 node = false → goes w) ∧
        (w.tokensOk 0 node = true →
          (∀ a dw x, w.pick node l = (some (a, dw), x) → goes (x.dequeue node bad cb a dw)) ∧
          (∀ x, w.pick node l = (none, x) → goes x)))) ∧
    (∀ (node : Fin 64) (t : Tx), sfind u.tx node = some t →
      (t.fail = none → t.ct = false → t.start + t.dur ≤ u.now →
        exec (.copyTxDone dt node) s = .next (State.settle (State.unref (State.txEnds { (u.bump .TX_FRAMES node).add .TX_OCTETS node t.len with
          tx := sdel u.tx node
          sent := u.sent ++ [Sent.mk node t.bytes true t.start (fcs t.bytes)] } node) t.copy.frame))) ∧
      (∀ n, t.fail = some n → n < u.txBegun t →
        exec (.copyTxDone dt node) s = .next (State.settle (u.stompAt node (some .TX_STOMP) (some n))))) ∧
    (∀ (q : Nat) (cp : Copy), u.queues = [(q, [cp])] →
      exec (.ageSweep dt) s = .next (State.settle (State.sweepQueue q 1 u).settleQueues))

/-- SHAPER_WAKE, SHAPER_SWEEP, GCL_CYCLE_START and GATE_TRANSITION (R369, R370, R376, R378): a node whose wake time has come is refilled and wakes no more; a sweep refills
the nodes; a list's cycle starts; the gate's state, its list, its entry in force and its timebase show in the status register. -/
def Obligations.ShapersAndGatesFollowTime : Prop :=
  ∀ (dt : Nat) (s u : State), u = s.advance dt →
    (∀ (lvl : Fin 4) (node t : Nat) (v : State), (sget u.shapers {} (nkey lvl node)).wake = some t → t ≤ u.frc → v = u.refill lvl node →
      exec (.shaperWake dt lvl node) s = .next (State.settle { v with
        shapers := sput v.shapers {} (nkey lvl node) { sget v.shapers {} (nkey lvl node) with wake := none } })) ∧
    (∀ (l n : Nat), u.shapedNodes = [(l, n)] → exec (.shaperSweep dt) s = .next (State.settle (u.refill l n))) ∧
    (∀ (g : GateId) (k : Nat) (v : State) (x : Gate), k = gateKey g → v = u.pendDue k → x = sget v.gates {} k → u.ready 3 = true →
      let goes (t : State) : Prop := exec (.gclCycleStart dt g) s = .next t.settle
      (x.cyc.cfg.enable = false ∨ x.cyc.cfg.grid = false → goes (v.gateStat k)) ∧
      (x.cyc.cfg.enable = true → x.cyc.cfg.grid = true → x.cyc.began = false →
        goes (if x.first ≤ v.gridNow then v.gridCycle k v.frc else v.gateStat k)) ∧
      (x.cyc.cfg.enable = true → x.cyc.cfg.grid = true → x.cyc.began = true →
        goes (if x.cyc.start + x.cyc.tc ≤ v.frc then v.gridCycle k (x.cyc.start + x.cyc.tc) else v.gateStat k))) ∧
    (∀ (g : GateId) (k w : Nat), k = gateKey g → w = b2n (u.gateAt k u.ptp u.frc).1 + 2 * b2n (sget u.gates {} k).pend.isSome +
        4 * (sget u.gates {} k).cyc.cfg.list + 8 * (match u.cycAt k (sget u.gates {} k).cyc u.ptp u.frc with
          | some (off, _, ends) => entryAt ends off | none => 0) + (if k < 1024 then 8192 else 512) * (sget u.gates {} k).gridSt →
      exec (.gateTransition dt g) s = .next (State.settle (if k < 1024 then u.setReg .GCL_STAT k 0 w else u.setReg .QCI_GATE_STAT (k - 1024) 0 w)))

/-- DD_FORGET_SWEEP, RCVY_RESET_TIMEOUT, SUPERVISION_TX and BYP_DRV_ON (R419, R424, R431, R433; Table 10-5): entries unused too long are retired; a recovery function without a passed frame takes
any; supervision frames go every 2 s, and nodes not heard for 60 s are forgotten; a bypass driver turns on 10 ms after its conditions began to hold.
Settling the bypass drivers, one whose conditions do not hold is off and its 10 ms are not running. -/
def Obligations.RedundancyTimersAct : Prop :=
  (∀ (dt : Nat) (s u : State), u = s.advance dt →
      (u.ddEntries = [] → u.dd = [] → exec (.ddForgetSweep dt) s = .next (State.settle u)) ∧
      (∀ (p : Nat) (e : Entry), u.ddEntries = [(p, e)] → u.ddStale e = true → u.dd = [] → exec (.ddForgetSweep dt) s = .next (State.settle
        { u with exm := sset u.exm p { e with retired := true, until_ := u.cur } })) ∧
      (∀ (i : Fin 4096) (x : Rcvy), x = sget u.rcvy {} i → x.takeAny = false → x.at_ + 1000000 * max 1 (u.fld F.PRED_RCVY.RESET_MS i) ≤ u.now →
        exec (.rcvyResetTimeout dt i) s = .next (State.settle (State.bump { u with rcvy := sset u.rcvy i { x with takeAny := true } } .PRED_RCVY_RESETS i))) ∧
      (∀ (k : Fin 16), u.pairRole k ≠ 0 → u.ready 0 = true → sget u.supAt 0 k + 2000000000 ≤ u.now → u.exm = [] →
        exec (.supervisionTx dt k) s = .next (State.settle (State.supervise { u with
          supAt := sset u.supAt k u.now
          nodes := u.nodes.filter fun e => decide (u.now < e.2 + 60000000000) } k (toBE Config.ownMac 6)
          (beNat (toBE Config.ownMac 6) 0 6)))) ∧
      (∀ (d : Fin 2) (t : Nat), sfind u.bypAt d = some t → u.bypCond d = true → t + 10000000 ≤ u.now →
        exec (.bypDrvOn dt d) s = .next (State.settle (State.bypSettle { u with pins := { u.pins with byp := ins u.pins.byp d } })))) ∧
  (∀ (u : State) (d : Fin 2), u.bypCond d = false →
      d.val ∉ u.bypSettle.pins.byp ∧ sfind u.bypSettle.bypAt d = none)

/-! ## Generations (chapter 05) and staged work -/

/-- GENERATION_COMMIT, RECIPE_BANK_WRITE and RW_VERSION_WAIT (R115, R116, R167, R271, R694): a requested commit that nothing holds up takes effect and its command completes; without a
request, and while work is outstanding, nothing happens; a bank receives its object once it is idle, is read back, and one that differs refuses the load; held writes proceed once they may. -/
def Obligations.CommitsTakeEffect : Prop :=
  ∀ (dt : Nat) (s u : State), u = s.advance dt →
    (∀ (t : Txn) (r : Req), u.txn = some t → t.commit = true → t.batch = false → u.commitFree = true →
      (∀ b, (u.commitGen.chan t.ch).busy = some (r, .commit b) →
        exec (.generationCommit dt) s = .next (State.settle (State.completeWait { u.commitGen with txn := none } t.ch 0 u.commitGen.cur []))) ∧
      (∀ v out, (u.commitGen.chan t.ch).busy = some (r, .commitDone v out) →
        exec (.generationCommit dt) s = .next (State.settle (State.completeWait { u.commitGen with txn := none } t.ch 0 v out)))) ∧
    (∀ (t : Txn), u.txn = some t → t.commit = false → exec (.generationCommit dt) s = .next (State.settle u)) ∧
    (∀ (pl : Fin 4) (ch b m : Nat) (c : Chan) (l : Load) (r : Req) (v : State), u.mbx = [(ch, c)] → c.busy = some (r, .bank m) → bit m pl = true →
      u.load = some l → b = 1 - u.fld F.PARSE_CTL.ACTIVE_BANK pl →
      (u.bankBusy pl b = true → exec (.recipeBankWrite dt pl) s = .next u.settle) ∧
      (u.bankBusy pl b = false → v = u.writeBank (bankNo pl b) l.data → v.bankMatches (bankNo pl b) l.data = true →
        (m ≠ 2 ^ pl.val → exec (.recipeBankWrite dt pl) s = .next (State.settle (State.setChan (v.stageFld F.PARSE_CTL.ACTIVE_BANK pl b) ch
          { c with busy := some (r, .bank (m - 2 ^ pl.val)) }))) ∧
        (m = 2 ^ pl.val → exec (.recipeBankWrite dt pl) s = .next (State.settle
          (State.stagedDone { v.stageFld F.PARSE_CTL.ACTIVE_BANK pl b with load := none } ch)))) ∧
      (u.bankBusy pl b = false → v = u.writeBank (bankNo pl b) l.data → v.bankMatches (bankNo pl b) l.data = false →
        exec (.recipeBankWrite dt pl) s = .next (State.settle (v.bankRefused ch r l)))) ∧
    (∀ (ch : Fin 16) (r : Req) (l : List (VTab × Nat × Nat × List Word)), (u.chan ch).busy = some (r, .rw l) →
      (l.all fun x => u.verFree x.1 x.2.1) = true →
      exec (.rwVersionWait dt ch) s = .next (State.settle ((u.verWrite l).stagedDone ch)))

/-! ## Time and the grid angle (chapter 11) -/

/-- TIME_STEP, TIME_SOURCE_LOST, TRACEABLE_EXPIRY, REF25_LOST and REF25_RESTORED (R442, R450, R452, R453): a step moves the clock by the signed words once TIME is READY and
the state is not HOLDOVER, marks the points, reporting instants and windows it passes and counts; a lost source enters HOLDOVER, whose HOLD_S ends TRACEABLE; REF_25M sets
and clears its bit and signal. -/
def Obligations.DeviceClockStepsAndHoldsOver : Prop :=
  ∀ (dt : Nat) (s u : State), u = s.advance dt →
    (∀ (ns sec : BitVec 32) (v : State), u.fld F.TIME_STATUS.STATE 0 ≠ 3 →
      v = u.setFld F.TIME_STATUS.STEP_COUNT 0 ((u.fld F.TIME_STATUS.STEP_COUNT 0 + 1) % 65536) →
      (u.ready 3 = false → exec (.timeStep dt ns sec) s = .next (State.settle u)) ∧
      (∀ (d : Int) (x w z y : State), u.ready 3 = true → d = sgn sec.toNat 32 * 1000000000 + sgn ns.toNat 32 →
        x = { v with clock := { v.clock with
          ptp := v.clock.ptp + d * (ptpUnit : Nat)
          steps := (v.now, d) :: v.clock.steps.filter fun e => decide (v.now < e.1 + 14000000) } } → w = x.passPoints false v.ptp x.ptp →
        z = (if d < 0 then w else State.passWindows v.ptp w.ptp (((w.written .PHX_PMU).map (·.1)).foldl (State.passReports v.ptp w.ptp) w)) →
        y = { z with clock := { z.clock with ppsOut := (((z.ptp : Int) - sgn (z.reg .TIME_PPS_OFS 0 0) 32) / 1000000000).toNat } } →
        exec (.timeStep dt ns sec) s = .next (State.settle y.gatesStep))) ∧
    (∀ (ns sec : BitVec 32), u.fld F.TIME_STATUS.STATE 0 = 3 → exec (.timeStep dt ns sec) s = .next u.settle) ∧
    (u.fld F.TIME_CTL.SRC 0 = 1 → u.fld F.TIME_STATUS.STATE 0 = 2 → exec (.timeSourceLost dt) s = .next (State.settle
      { u.setFld F.TIME_STATUS.STATE 0 3 with clock := { u.clock with holdAt := some u.now } })) ∧
    (∀ t v, u.fld F.TIME_CTL.SRC 0 = 2 → u.fld F.TIME_STATUS.STATE 0 = 2 → u.clock.ppsLast = some t → t + 2000000000 ≤ u.now →
      v = u.setFld F.TIME_STATUS.PPS_MISS 0 1 → v.fld F.TIME_STATUS.STATE 0 = 2 → exec (.timeSourceLost dt) s = .next (State.settle
      { v.setFld F.TIME_STATUS.STATE 0 3 with clock := { v.clock with holdAt := some u.now } })) ∧
    (∀ t, u.clock.holdAt = some t → t + 1000000000 * u.fld F.TIME_CTL.HOLD_S 0 ≤ u.now → u.flag F.TIME_STATUS.TRACEABLE 0 = true →
      exec (.traceableExpiry dt) s = .next (State.settle ((u.setFld F.TIME_STATUS.TRACEABLE 0 0).evtLine 16 true))) ∧
    (u.flag F.TIME_CTL.REF25 0 = true → exec (.ref25Lost dt) s = .next (State.settle ((u.setFld F.TIME_STATUS.REF25_LOST 0 1).irqSignal 50 true))) ∧
    (∀ v, v = u.setFld F.TIME_STATUS.REF25_LOST 0 0 → v.irq.lvl.contains 50 = true →
      exec (.ref25Restored dt) s = .next (State.settle (v.irqSignal 50 false)))

/-- TIME_NOW_READ, TIME_GRID_NOW_READ and TIME_TXTS_READ (R449, R459, R471): a read of word 0 latches every word of its register from one instant and
returns them; a read of a two-step FIFO returns its oldest entry and removes it. -/
def Obligations.TimeReadsLatchOneInstant : Prop :=
  ∀ (dt : Nat) (s u : State), u = s.advance dt →
    (∃ v : State, exec (.timeNowRead dt) s = .next (State.settle v) ∧ v = u.timeNow ∧ v.rd =
      [w32 (ptpNs u.ptp), w32 (ptpSec u.ptp % 4294967296), w32 (ptpSec u.ptp / 4294967296 % 65536 + 65536 * ((u.clock.ptp % (ptpUnit : Nat)).toNat * 65536 / ptpUnit)),
        w32 (u.frc % 4294967296), w32 (u.frc / 4294967296)] ∧ v.clock = u.clock) ∧
    (∃ v : State, exec (.timeGridNowRead dt) s = .next (State.settle v) ∧ v = u.gridNowRead ∧ v.rd =
      [w32 (u.gridNow % 4294967296), w32 (u.gridNow / 4294967296), w32 u.clock.gridFreq, w32 u.gridState, w32 (ptpNs u.ptp),
        w32 (ptpSec u.ptp % 4294967296)] ∧ v.clock = u.clock) ∧
    (∀ (p : Fin 40) (e : TxTs) (l : List TxTs), sget u.clock.txts [] p = e :: l → exec (.timeTxtsRead dt p) s = .next (State.settle { u with
      clock := { u.clock with txts := sput u.clock.txts [] p l }
      rd := [w32 e.seqId, w32 e.msgType, w32 e.dom, w32 (ptpNs e.egress), w32 (ptpSec e.egress),
        w32 (ptpSec e.egress / 4294967296), w32 e.residence, w32 (e.residence / 4294967296)] }))

/-- PPS_IN_EDGE, IRIG_IN_FRAME and PPS_OUT_EDGE (R452, R462 to R464): an edge within 1 µs of its second is used, one farther off is counted and not used; a frame's quality
decides TRACEABLE; at each whole second the output edge is given, but not in the safe state. -/
def Obligations.PulsesAndIrigFrames : Prop :=
  ∀ (dt : Nat) (s u : State), u = s.advance dt →
    (∀ err v, u.flag F.TIME_PPS_CFG.IN_EN 0 = true → err ≤ 1000 → v = u.onTime err → exec (.ppsInEdge dt err) s = .next (State.settle
      { v.setFld F.TIME_STATUS.PPS_MISS 0 0 with clock := { v.clock with ppsLast := some u.now } })) ∧
    (∀ err, u.flag F.TIME_PPS_CFG.IN_EN 0 = true → 1000 < err → ∃ v : State, exec (.ppsInEdge dt err) s = .next (State.settle v) ∧
      v.ctrs = (u.bump .TIME_PPS_REJECT 0).ctrs ∧ v.clock = u.clock) ∧
    (∀ (f : IrigFrame) (v w : State), u.flag F.TIME_IRIG_CFG.IN_EN 0 = true → f.edgeErr ≤ 1000 → v = u.onTime f.edgeErr →
      w = { v with clock := { v.clock with irigLast := some u.now } } →
      (w.fld F.TIME_CTL.SRC 0 < 2 ∨ w.fld F.TIME_STATUS.STATE 0 ≠ 2 → exec (.irigInFrame dt f) s = .next (State.settle w)) ∧
      (2 ≤ w.fld F.TIME_CTL.SRC 0 → w.fld F.TIME_STATUS.STATE 0 = 2 → exec (.irigInFrame dt f) s = .next (State.settle
        (w.setTraceable (v.flag F.TIME_IRIG_CFG.EXT1344 0 && decide (f.quality ≤ 1000)))))) ∧
    (∀ (n : Nat) (v : State), n = (((u.ptp : Int) - sgn (u.reg .TIME_PPS_OFS 0 0) 32) / 1000000000).toNat → n ≠ u.clock.ppsOut → u.ready 3 = true →
      (u.flt.safe = true → exec (.ppsOutEdge dt) s = .next (State.settle { u with clock := { u.clock with ppsOut := n } })) ∧
      (u.flt.safe = false → v = { u with clock := { u.clock with ppsOut := n, ppsRise := if u.flag F.TIME_PPS_CFG.OUT_EN 0 then some n else u.clock.ppsRise } } →
      (u.flag F.TIME_IRIG_CFG.OUT_EN 0 = false → exec (.ppsOutEdge dt) s = .next (State.settle v)) ∧
      (u.flag F.TIME_IRIG_CFG.OUT_EN 0 = true → ∃ w : State, exec (.ppsOutEdge dt) s = .next (State.settle w) ∧ w.clock.ppsRise = v.clock.ppsRise ∧
        w.clock.irigSec = u.ptp / 1000000000 + Config.utcOffset (u.ptp / 1000000000) +
          (if u.flag F.TIME_IRIG_CFG.LOCAL 0 then Config.localOffset (u.ptp / 1000000000) else 0))))

/-- GPIO_INPUT_EDGE, GPIO_INPUT_ACCEPT and GPIO_PULSE_END (R467, R468, R563): a new level is a candidate and its reversal within DEBOUNCE is counted; a level that has held
is accepted, reaches the event engine and, with TS_EN, the FIFO; a pulse that has run out drives 0. -/
def Obligations.GpioPinsDebounceAndPulse : Prop :=
  ∀ (dt : Nat) (n : Fin 32) (s u : State) (g : Gpio), u = s.advance dt → g = u.pin n →
    (∀ b, u.flag F.GPIO_OUT_CFG.OUT_EN n = false → g.cand = none → b ≠ g.level →
      exec (.gpioInputEdge dt n b) s = .next (State.settle (u.setPin n { g with cand := some (b, u.frc, u.ptp, u.gridNow) }))) ∧
    (∀ b b' t p q, u.flag F.GPIO_OUT_CFG.OUT_EN n = false → g.cand = some (b', t, p, q) → u.now < t + u.debounce n → b ≠ b' →
      exec (.gpioInputEdge dt n b) s = .next (State.settle ((u.setPin n { g with cand := none }).bump .GPIO_BOUNCE n))) ∧
    (∀ b t p q v, u.flag F.GPIO_OUT_CFG.OUT_EN n = false → g.cand = some (b, t, p, q) → t + u.debounce n ≤ u.now →
      v = (u.setPin n { g with level := b, cand := none }).evtIn { src := .gpio n, value := b2n b, frc := t, ptp := p, grid := some q } →
      (v.flag F.GPIO_IN_CFG.TS_EN n = false → exec (.gpioInputAccept dt n) s = .next (State.settle v)) ∧
      (v.flag F.GPIO_IN_CFG.TS_EN n = true → (v.fld F.GPIO_IN_CFG.EDGE n = 0 → b = true) → (v.fld F.GPIO_IN_CFG.EDGE n = 1 → b = false) → v.clock.gpioTs.length < 256 →
        exec (.gpioInputAccept dt n) s = .next (State.settle
          { v with clock := { v.clock with gpioTs := v.clock.gpioTs ++ [(n.val, b, t, q)] } }))) ∧
    (∀ t, g.pulse = some t → t ≤ u.now → u.flt.safe = false → g.out = true →
      exec (.gpioPulseEnd dt n) s = .next (State.settle ((u.setPin n { g with out := false, pulse := none }).evtIn { src := .gpio n, value := 0 })))

/-- GRID_ESTIMATE, GRID_HOLDOVER_ENTRY and GRID_HOLDOVER_EXPIRY (R473 to R477): an estimate that is not valid ends the run of good ones; in LOCKED a valid one sets the
frequency and corrects the angle; 500 µs without one enter HOLDOVER at its frequency; ten cycles on, FALLBACK at the nominal one.
The correction of one estimate removes at most a hundredth of a turn, spread over the next four. -/
def Obligations.GridTimebaseFollowsEstimates : Prop :=
  (∀ (dt : Nat) (s u : State), u = s.advance dt →
      (∀ (g : GridEst), u.flag F.TIME_GRID_CFG.EN 0 = true → u.ready 9 = true → u.estValid g = false →
        exec (.gridEstimate dt g) s = .next (State.settle { u with clock := { u.clock with gridGood := none } })) ∧
      (∀ (g : GridEst) (t f' f : Nat), u.flag F.TIME_GRID_CFG.EN 0 = true → u.ready 9 = true → u.estValid g = true → u.gridState = 0 →
        u.clock.gridLast = some (t, f', f) → u.now < t + 500000 → g.rocofHigh = false →
        exec (.gridEstimate dt g) s = .next (State.settle { u with clock := { u.clock with
          gridGood := some (u.clock.gridGood.getD u.now)
          gridLast := some (u.now, u.now - g.age, g.freq)
          gridFreq := ((g.freq : Int) + gridCorr (u.phaseErr g)).toNat } })) ∧
      (∀ (t x f : Nat), u.clock.gridLast = some (t, x, f) → u.gridState = 0 → t + 500000 ≤ u.now →
        exec (.gridHoldoverEntry dt) s = .next (State.settle (State.setGridState
          { u with clock := { u.clock with gridFreq := f, gridGood := none } } 1))) ∧
      (∀ (t x f : Nat), u.clock.gridLast = some (x, t, f) → u.gridState = 1 → 10 * 1000000000 * 1048576 ≤ (u.now - t) * f →
        exec (.gridHoldoverExpiry dt) s = .next (State.settle (State.setGridState
          { u with clock := { u.clock with gridFreq := u.nominal, gridGood := none } } 2)))) ∧
  (∀ (e : Int), -41943040 ≤ gridCorr e + 1 ∧ gridCorr e ≤ 41943040 ∧ (0 ≤ e → 0 ≤ gridCorr e))

/-! ## Measurement and recorder (chapter 12) -/

/-- SV_SAMPLE_RECORD, STREAM_LOSS, PHX_TICK and PHX_BANK_WAKE (R489, R492, R494, R499, R503): a record of no stream is counted, one of a switched-off bank asks it to wake, one of a
stream is placed; beyond the rate of R491 the placing is free; a silent stream is LOST; a tick serves every stream that runs; a bank with enabled streams comes on again while power allows it.
A sample counter at or past the stream's rate is counted in PHX_SMPCNT_RANGE and the record is not placed. -/
def Obligations.SamplesReachTheirStreams : Prop :=
  (∀ (dt : Nat) (s u : State), u = s.advance dt →
      (∀ (d : Delivered) (key cnt synch asdu : Nat) (pairs : List Nat) (v : State), readySv u.sideQ [] = some d →
        d.side = .sv key cnt synch asdu pairs → v = { u with sideQ := u.sideQ.erase d } → v.phxRuns = true →
        ((v.streamsOn.find? fun i => v.streamKey i == key) = none → exec (.svSampleRecord dt) s = .next (State.settle (v.bump .PHX_UNKNOWN d.pl))) ∧
        (∀ i, (v.streamsOn.find? fun i => v.streamKey i == key) = some i → v.phxFenced i = false →
          (v.pwr.banksOff.contains (i / 1024) = true → exec (.svSampleRecord dt) s = .next (State.settle (v.bump .PHX_BANK_WAKE i))) ∧
          (v.pwr.banksOff.contains (i / 1024) = false → exec (.svSampleRecord dt) s = .next (State.settle
            (if v.phxWild then v.wildSmp i d else v.placeSmp i d cnt synch pairs))))) ∧
      (∀ (i : Fin 4096) (x : Stream), x = u.stream i → x.seen = true → x.state ≠ 3 → u.flag F.PHX_STREAM.EN i = true → u.phxRuns = true →
        x.last + 1000 * max 1 (u.fld F.PHX_STREAM.LOSS_US i) ≤ u.now →
        exec (.streamLoss dt i) s = .next (State.settle ((u.finalTo i (x.newest + 1)).setStream i 3))) ∧
      (∀ i, u.phxRuns = true → u.ready 3 = true → u.streamsOn = [i] → u.phxFenced i = false → u.smpRate i ≠ 0 →
        exec (.phxTick dt) s = .next (State.settle (u.tickStream i))) ∧
      (∀ (b : Fin 4), u.power < 3 → (u.streamsOn.any fun i => i / 1024 == b.val) = true → exec (.phxBankWake dt b) s =
        .next (State.settle (State.clockBack (State.settlePower { u with pwr := { u.pwr with banksOff := del u.pwr.banksOff b } }))))) ∧
  (∀ (u : State) (i cnt synch : Nat) (d : Delivered) (pairs : List Nat), u.smpRate i ≤ cnt →
      u.placeSmp i d cnt synch pairs = u.bump .PHX_SMPCNT_RANGE i)

/-- HARM_WINDOW_END and PMU_REPORT (R508, R509, R514, R517): a window that ends writes the fifty orders, the distortion and its instant, and updates the event engine;
without a whole window the values are NaN. A due report is published and relayed to the clients that asked, asks again where no buffer is free, or is suppressed and counted while time is not traceable. -/
def Obligations.HarmonicsAndPhasorReports : Prop :=
  ∀ (dt : Nat) (s u : State), u = s.advance dt →
    (∀ (h : Fin 512) (i n te c thd : Nat) (w : List Smp) (ok : Bool) (x v : State), i = u.fld F.PHX_HARM.STREAM h → n = (if u.nomF i = 60 then 12 else 10) →
      u.flag F.PHX_HARM.EN h = true → u.phxRuns = true → u.shed 2 = false → u.phxFenced i = false → u.flag F.PHX_STREAM.EN i = true →
      u.smpRate i ≠ 0 → u.harmEnd i = (te, x) → sget x.harmAt 0 h + n * 1000000000 / (x.nomF i + 15) ≤ te → x.harmWindow h i n te = (w, ok) →
      c = x.fld F.PHX_HARM.CH h → thd = (if ok then x.estimate i 0x50 c 0 te w else qnan) →
      v = (List.range 50).foldl (fun (y : State) k => y.setReg .PHX_HARM_OUT h k (y.harmOrder i c te w ok (k + 1))) x →
      exec (.harmWindowEnd dt h) s = .next (State.settle (State.evtIn
        { (v.setReg .PHX_HARM_OUT h 50 thd).setReg .PHX_HARM_OUT h 51 (ptpNs te) with harmAt := sset v.harmAt h te }
        { src := .qty h 0x50, value := thd, valid := ok, ptp := te }))) ∧
    (∀ (y : State) i c te w o, y.harmOrder i c te w false o = qnan) ∧
    (∀ (m : Fin 64) (te : Nat), u.flag F.PHX_PMU.EN m = true → u.phxRuns = true → u.pmuAt m = some te → te ≤ u.ptp → u.pmuReady m te = true →
      (u.flag F.TIME_STATUS.TRACEABLE 0 = false → exec (.pmuReport dt m) s = .next (State.settle ((u.pmuStep m).bump .PHX_PMU_SUPPRESS m))) ∧
      (∀ x pay n, u.flag F.TIME_STATUS.TRACEABLE 0 = true → pay = u.pmuFrame m te → n = u.fld F.PHX_PMU.ENCAP m →
        x = (rwStart u { port := 42, pl := 0, bytes := pay, gen := u.cur } 0 42).encap n (tmplOf (u.verAt .RW_ENCAP n u.cur)) 0 →
        (x.dead = true → exec (.pmuReport dt m) s = .next (State.settle ((x.s.pmuStep m).pmuRelay m pay))) ∧
        (∀ b v q o, x.dead = false → (b, v) = (if x.bad then x.s.freshBytes x.b.length else (x.b, x.s)) → q = u.fld F.PHX_PMU.QUEUE m →
          v.publish b [] [(4, 16), (6, 0x1F1F1F), (8, 31)] (u.fld F.PHX_PMU.DEST m) (u.flag F.PHX_PMU.GROUP m) q (u.pubClass q) none = o →
          exec (.pmuReport dt m) s = .next (State.settle (match o with
            | none => u
            | some (_, t) => (t.pmuStep m).pmuRelay m pay)))))

/-- REC_CLOSE, TIME_POINT_FIRE and PMU_CLIENT_TIMEOUT (R481 to R483, R522, R702): a record closes 10 ms after its end at the latest; a point that is reached leaves the list, or is armed
for its next instant, and fires what it drives; a client silent for 5 s is disconnected. -/
def Obligations.RecordsPointsAndClientsEnd : Prop :=
  ∀ (dt : Nat) (s u : State), u = s.advance dt →
    (∀ (g : Fin 64) (r : Record), u.records g = [r] → r.isOpen = true → r.grid = false → r.stop + 10000000 ≤ u.ptp →
      exec (.recClose dt g) s = .next (State.settle (u.setRecords g [u.closeRecord g r]))) ∧
    (∀ (i : Nat) (p : Point), u.clock.points[i]? = some p → p.late = false → p.reachedAt (p.clock u) = true → p.period = 0 →
      exec (.timePointFire dt i) s = .next (State.settle
        (State.pointFires { u with clock := { u.clock with points := u.clock.points.eraseIdx i } } p))) ∧
    (∀ (i : Nat) (p : Point), u.clock.points[i]? = some p → p.late = true →
      exec (.timePointFire dt i) s = .next (State.settle ((u.takePoint i p).pointFires p)) ∧ (u.takePoint i p).ctrs = (u.bump .TIME_LATE_FIRE 0).ctrs) ∧
    (∀ (c : Fin 16) (x : PmuConn), sfind u.pmuConn c = some x → x.at_ + 5000000000 ≤ u.now →
      exec (.pmuClientTimeout dt c) s = .next (State.settle { u with pmuConn := sdel u.pmuConn c }))

/-! ## The event engine (chapter 13) -/

/-- EVT_PASS, EVT_TIMER_EXPIRY and SUB_LOSS (R535, R541, R544, R566 to R568): the oldest queued input leaves the queue and runs its pass; an expired timer runs one of its own at its expiry
instant; a subscription silent for HOLD_MS is LOST.
FSW_COMMIT: a switch already in its position leaves the queue; one waits while a transaction has staged writes; one that stages commits in its own generation and shows in FSW_STAT; one that cannot is counted, logged and raises its signal. -/
def Obligations.EventPassesRun : Prop :=
  (∀ (dt : Nat) (s u : State), u = s.advance dt →
      (∀ (e : EvIn) (q : List EvIn), u.evtQ = e :: q → u.ready 10 = true →
        exec (.evtPass dt) s = .next (State.settle (State.inputPass { u with evtQ := q } e))) ∧
      (∀ (c : Fin 2048) (t : Nat), (u.cond c).timer = some t → t ≤ u.now → u.ready 10 = true → exec (.evtTimerExpiry dt c) s =
        .next (State.settle (u.pass u.conds [(c.val, (u.cond c).raw, u.cond c)] (u.ptp - (u.now - t)) (u.frc - (u.now - t))))) ∧
      (∀ (i : Fin 1024), (sget u.subs {} i).state = 1 → (sget u.subs {} i).last + 1000000 * max 1 (u.fld F.EVT_SUB.HOLD_MS i) ≤ u.now →
        exec (.subLoss dt i) s = .next (State.settle (u.setSub i 2)))) ∧
  (∀ (dt x : Nat) (on : Bool) (q : List (Nat × Bool)) (s u : State), u = s.advance dt → u.fswQ = (x, on) :: q →
      (u.flag F.EVT_FSW_STAT.ON x = on → exec (.fswCommit dt) s = .next (State.settle { u with fswQ := q })) ∧
      (u.flag F.EVT_FSW_STAT.ON x ≠ on → (u.txn.isSome && u.stagedAny) = true ∨ u.commitFree = false → exec (.fswCommit dt) s = .next u.settle) ∧
      (∀ v, u.flag F.EVT_FSW_STAT.ON x ≠ on → (u.txn.isSome && u.stagedAny) = false → u.commitFree = true → v = u.fswMissed x on →
        (v.fswStage x on = none → exec (.fswCommit dt) s = .next (State.settle (State.logEvt { (v.bump .EVT_FSW_FAIL x).pulse 54 with fswQ := q }
          { act := x, cond := 0, rising := on, ptp := v.ptp, frc := v.frc, note := 1 }))) ∧
        (∀ t, v.fswStage x on = some t → exec (.fswCommit dt) s = .next (State.settle
          (State.setFld { t.commitGen with fswQ := q } F.EVT_FSW_STAT.ON x (b2n on))))))

/-- GOOSE_FRAME_BUILD and GOOSE_RETRANSMIT (R553, R555, R558): when the publisher gets its buffer the frame is built from the newest state and sqNum goes on, from 4,294,967,295 to 1, a frame without a copy is counted and a late one logged; at an instant of
the schedule the next frame falls due and the following instant is set. -/
def Obligations.GooseFramesFollowTheirSchedule : Prop :=
  ∀ (dt : Nat) (t : Fin 256) (s u : State) (g : Gpub), u = s.advance dt → g = u.tmpl t → u.flag F.EVT_GPUB.EN t = true → u.flt.safe = false →
    (∀ k b hs v ok x y z, g.due = some k → u.pwr.closing = false → u.gooseBytes t k = (b, v) → hs = u.gooseHdrs t →
      v.publish b hs [(4, 16), (6, hdrIdx hs [6, 7] + 256 * hdrIdx hs [9, 10] + 65536 * hdrIdx hs [13, 14, 15]), (8, hdrIdx hs [16])]
        (u.fld F.EVT_GPUB.DEST t) (u.flag F.EVT_GPUB.GROUP t) (u.fld F.EVT_GPUB.QUEUE t) (u.fld F.EVT_GPUB.CLASS t)
        (if bit (u.gw t 2) 0 then some (u.fld F.EVT_GPUB.REWRITE t) else none) = some (ok, x) →
      y = (if ok then x else x.bump .EVT_PUB_DROP t) →
      z = (if g.dueLate then y.logEvt { act := t, cond := 0, rising := false, ptp := g.edge, frc := y.frc, note := 2 } else y) →
      exec (.gooseFrameBuild dt t) s = .next (State.settle (z.setTmpl t { g with
        sq := if g.sq = 4294967295 then 1 else g.sq + 1
        wait0 := false
        due := g.late
        dueLate := g.late.isSome
        late := none }))) ∧
    (∀ at_ v, g.next = some at_ → at_ ≤ u.frc → v = u.frameDue t → exec (.gooseRetransmit dt t) s = .next (State.settle
      (v.setTmpl t { v.tmpl t with next := some (at_ + 1000 * v.gInterval t ((v.tmpl t).k + 1)) })))

/-! ## Batches (chapter 14) -/

/-- NIBEN_BLOCK_RX and NIBEN_REPLAY_TIMEOUT (R577, R578, R580): a DATA block with a wrong CRC or SEQ is counted and answered with NAK, every good block releases what its ACK
names, resends from there where it carries a NAK and lets what waited for room go, an expected DATA block is accepted and the next is expected; the sixteenth resend in a row takes the link down. A first NAK is the only one until the next accepted block. -/
def Obligations.BlocksAreAcceptedInOrder : Prop :=
  ∀ (dt : Nat) (l : Fin 8) (s u : State), u = s.advance dt → 2 ≤ u.linkState l →
    (∀ (b : Bytes), b.length = 256 →
      (crc32c 0 (b.take 252) ≠ beNat b 252 4 → byteAt b 4 < 64 → exec (.nibenBlockRx dt l b) s = .next (State.settle ((u.bump .FAB_BLK_CRC l).nak l))) ∧
      (crc32c 0 (b.take 252) ≠ beNat b 252 4 → 64 ≤ byteAt b 4 → exec (.nibenBlockRx dt l b) s = .next u.settle) ∧
      (∀ w v : State, crc32c 0 (b.take 252) = beNat b 252 4 → w = u.modLink l (fun k =>
          let k := k.release (beNat b 2 2) u.now
          if bit (byteAt b 5) 0 && serial k.acked (beNat b 2 2) 16 < k.retry then k.resend (beNat b 2 2) else k) →
        v = w.pumpLink l (sget w.links {} l).wait →
        (64 ≤ byteAt b 4 → exec (.nibenBlockRx dt l b) s = .next v.settle) ∧
        (byteAt b 4 < 64 → beNat b 0 2 ≠ (sget v.links {} l).expect →
          exec (.nibenBlockRx dt l b) s = .next (State.settle ((v.bump .FAB_BLK_SEQ l).nak l))) ∧
        (∀ bad rest, byteAt b 4 < 64 → beNat b 0 2 = (sget v.links {} l).expect →
          splitMsgs 64 ((sget v.links {} l).stream ++ (b.drop 8).take 244) = (bad, rest) → exec (.nibenBlockRx dt l b) s = .next (State.settle
          ((v.modLink l fun k => { k with expect := (k.expect + 1) % 65536, nakOut := false, stream := rest }).add .FAB_MSG_BAD 0 bad))))) ∧
    (∀ k : Link, k = sget u.links {} l → k.retry ≠ 0 → k.retryAt + 2000000 ≤ u.now →
      (15 ≤ k.resends → exec (.nibenReplayTimeout dt l) s = .next (State.settle ((u.bump .FAB_REPLAY_TIMEOUT l).nibenDown l 5))) ∧
      (k.resends < 15 → exec (.nibenReplayTimeout dt l) s = .next (State.settle
        ((u.bump .FAB_REPLAY_TIMEOUT l).modLink l fun k => { k.resend k.acked with resends := k.resends + 1, retryAt := u.now })))) ∧
    (((sget u.links {} l).nakOut = true → u.nak l = u))

/-- LINK_TRAINING_LOCK, HELLO, LINK_STATE and MEMBER_UNREACHABLE (R582, R587, R620): after 1 ms of lock a link is in CHECK and sends its HELLO; a HELLO that passes brings it UP,
one that fails leaves it REFUSED with its reason; news of another member is flooded on once; a member gone for 50 ms is dropped. -/
def Obligations.LinksComeUpAndMembersLeave : Prop :=
  ∀ (dt : Nat) (s u : State), u = s.advance dt →
    (∀ (l : Fin 8) (t : Nat), u.linkAllowed l = true → u.linkState l ≤ 1 → (sget u.links {} l).lockAt = some t → t + 1000000 ≤ u.now →
      exec (.linkTrainingLock dt l) s = .next (State.settle ((u.setLinkState l 2).sendOn l .hello))) ∧
    (∀ (l : Fin 8) (h : Hello) (v : State), 2 ≤ u.linkState l →
      v = ((u.setFld F.FAB_LINK_STAT.PEER l h.member).setFld F.FAB_LINK_STAT.PEER_LINK l h.link).modLink l (fun k => { k with peer := some h }) →
      (∀ r, v.helloRefusal h = some r → u.linkState l = 2 → exec (.helloMsg dt l h) s =
        .next (State.settle ((v.setFld F.FAB_LINK_STAT.REASON l r).setLinkState l 4))) ∧
      (v.helloRefusal h = none → exec (.helloMsg dt l h) s = .next (State.settle (State.routesNow (State.announce (State.setLinkState
        { v with peers := sset v.peers h.member { sget v.peers {} h.member with
          vers := some h.vers
          trace := h.trace
          epoch := h.epoch
          digest := h.digest } } l 3)))))) ∧
    (∀ (src : Nat) (reach : List (Nat × Nat × Nat)) (ports : List Nat) (p : Peer), p = sget u.peers {} src →
      (src = u.member ∨ (p.links = reach ∧ p.ports = ports) → exec (.linkStateMsg dt src reach ports) s = .next u.settle) ∧
      (src ≠ u.member → p.links ≠ reach ∨ p.ports ≠ ports → exec (.linkStateMsg dt src reach ports) s = .next (State.settle (State.routesNow
        (State.sendAll { u with peers := sset u.peers src { p with links := reach, ports := ports } } (.linkState src reach ports)))))) ∧
    (∀ (m : Fin 512) (t : Nat) (v : State), (sget u.peers {} m).unreachAt = some t → t + 50000000 ≤ u.now →
      v = u.dropCopies (fun cp => match cp.voq with | some q => decide (voq0 + 1024 * m ≤ q) && decide (q < voq0 + 1024 * m + 1024) | none => false)
        (fun _ s => s.bump .FAB_UNREACH_DROP 0) →
      exec (.memberUnreachable dt m) s = .next (State.settle (State.batchSettle (State.syncRounds { v with
        voq := v.voq.filter fun e => !(decide (voq0 + 1024 * m ≤ e.1) && decide (e.1 < voq0 + 1024 * m + 1024))
        flushQ := v.flushQ ++ (List.range 64).map fun (p : Nat) => Flush.mk 0 (64 * m + p) false false none false
        peers := sdel v.peers m }))))

/-- FRAME, CREDIT, REQUEST, CREDIT_ISSUE, NOTICE and FLUSH (R596 to R600, R602, R604, R607): a frame for this member is admitted, one for another goes on, one with 15 hops is counted; credit
adds to a queue's balance; requests say whom the generator serves, in ascending member id; a notice enters the learn queue and a flush runs for its global port. -/
def Obligations.FabricMessagesAct : Prop :=
  ∀ (dt : Nat) (s u : State), u = s.advance dt →
    (∀ (l : Fin 8) (m : FrameMsg), u.linkState l = 3 →
      (15 ≤ m.hops → exec (.frameMsg dt l m) s = .next (State.settle (u.bump .FAB_HOPS_DROP 0))) ∧
      (m.hops < 15 → m.group = true → m.member = u.member → exec (.frameMsg dt l m) s = .next (State.settle (u.fabOwn l m))) ∧
      (m.hops < 15 → m.group = false → m.dest / 64 = u.member → exec (.frameMsg dt l m) s = .next (State.settle (u.fabOwn l m))) ∧
      (m.hops < 15 → m.group = true → m.member ≠ u.member → exec (.frameMsg dt l m) s = .next (State.settle (u.fabTransit l m m.member))) ∧
      (m.hops < 15 → m.group = false → m.dest / 64 ≠ u.member → exec (.frameMsg dt l m) s = .next (State.settle (u.fabTransit l m (m.dest / 64))))) ∧
    (∀ (g bytes : Nat) (cls : Fin 16) (v : Voq), v = sget u.voq {} (voqOf g cls) →
      exec (.creditMsg dt g cls bytes) s = .next (State.settle (State.settleQueues
        { u with voq := sput u.voq {} (voqOf g cls) { v with credit := v.credit + (bytes : Nat) } }))) ∧
    (∀ (src : Nat) (p : Fin 40) (cls : Fin 16) (on : Bool) (l : List Nat), l = sget u.cgReq [] (p.val * 16 + cls) →
      exec (.requestMsg dt src p cls on) s = .next (State.settle { u with cgReq := sput u.cgReq [] (p.val * 16 + cls) (mark l src on) })) ∧
    (∀ (p : Fin 40) (cls : Fin 16) (i m n : Nat) (l : List Nat), i = p.val * 16 + cls → l = sget u.cgReq [] i → u.flag F.FAB_CTL.EN 0 = true → u.rate p ≠ 0 →
      n = 2 ^ (10 + min 6 (u.fld F.FAB_CTL.CREDIT_SZ 0)) → u.occ p cls < u.fld F.FAB_CG.THRESH i → (l.find? fun m => decide (m ≥ sget u.cgNext 0 i)) = some m →
      (sfind u.cgAt i).isSome = true → sget u.cgAt 0 i * (17 * u.rate p) + n * 128000 ≤ u.now * (17 * u.rate p) →
      exec (.creditIssue dt p cls) s = .next (State.settle (State.sendTo { u with cgNext := sset u.cgNext i (m + 1), cgAt := sset u.cgAt i u.now } m (u.gport p)
        (.credit (u.gport p) cls n)))) ∧
    (∀ (n : NoticeMsg), exec (.noticeMsg dt n) s = .next (State.settle (u.learn {
      table := n.table
      key := n.key
      gport := n.gport
      port := n.gport % 64
      ts := u.frc
      ptp := n.at_
      notice := true
      drop := !n.learn
      suspect := n.suspect }))) ∧
    (∀ (g : Nat), exec (.flushMsg dt g) s = .next (State.settle
      { u with flushQ := u.flushQ ++ [{ table := 0, gport := g, staged := false, static_ := false }] }))

/-- CONFIG, BATCH_STAGE_TIMEOUT, DIGEST_REPORT_DEADLINE, BATCH_COMMIT_AT_T and HELD_RESEND (R611 to R613, R615 to R617): segment 0 begins a configuration, later ones extend it, a report reaches
the leader, segment 65535 carries T; a member still blocked 90 ms later reports no digest; the leader chooses T at 100 ms; at T leader and member commit as soon as nothing holds the commit up, and a member whose digest differs at once leaves its staged work (HELD).
TIME_COMPARE_TX and TIME: every 125 ms each link that is up sends a TIME message; a received one gives the round trip and the offset, corrected by ASYM_PS. -/
def Obligations.BatchCommitRunsItsSteps : Prop :=
  (∀ (dt : Nat) (s u : State), u = s.advance dt →
      (∀ (epoch : Nat) (last : Bool) (words : List Word), u.batch.leading = none →
        (words ≠ [] → exec (.configMsg dt epoch 0 last words none) s = .next (State.settle { u with batch := { u.batch with
          epoch := epoch
          segs := words
          whole := last
          cfgAt := some u.now
          staged := none
          own := none
          noReport := false
          commitAt := none } })) ∧
        (∀ seg, seg ≠ 0 → seg ≠ 65535 → words ≠ [] → u.batch.epoch = epoch → u.batch.whole = false → exec (.configMsg dt epoch seg last words none) s =
          .next (State.settle { u with batch := { u.batch with segs := u.batch.segs ++ words, whole := last } })) ∧
        (u.batch.epoch = epoch → exec (.configMsg dt epoch 65535 last words none) s = .next (State.settle
          { u with batch := { u.batch with commitAt := some (wNat words 0 2) } }))) ∧
      (∀ (epoch m : Nat) (d : Bytes), (u.digestReport epoch m d).batch.leading.isSome = true →
        exec (.configMsg dt epoch 0 true [] (some (m, d))) s = .next (State.settle (u.digestReport epoch m d))) ∧
      (∀ t, u.batch.cfgAt = some t → u.batch.staged = none → u.txn.isSome = true → t + 90000000 ≤ u.now →
        exec (.batchStageTimeout dt) s = .next (State.settle { u with batch := { u.batch with noReport := true } })) ∧
      (∀ t, u.batch.leading = some t → t + 100000000 ≤ u.now → exec (.digestReportDeadline dt) s = .next (State.settle (u.chooseT true))) ∧
      (∀ t, u.batch.leading = some t → u.now < t + 100000000 → exec (.digestReportDeadline dt) s = .next (State.settle (u.chooseT false))) ∧
      (∀ t ag, u.batch.commitAt = some t → t ≤ u.ptp → ag = (u.batch.leading.isSome || (u.batch.staged.isSome && u.batch.own == some u.batch.digest)) →
        (ag = true → u.commitFree = true → u.cfgFree (cfgOf (u.batch.staged.getD [])) = true →
          exec (.batchCommitAtT dt) s = .next (State.settle (if u.batch.leading.isSome then u.leaderCommit else u.memberCommit))) ∧
        (ag = true → u.commitFree = false ∨ u.cfgFree (cfgOf (u.batch.staged.getD [])) = false → exec (.batchCommitAtT dt) s = .next u.settle) ∧
        (ag = false → exec (.batchCommitAtT dt) s = .next (State.settle u.memberCommit))) ∧
      (∀ (v : State), u.isLeader = true → u.batch.resendAt + 1000000000 ≤ u.now → v = { u with batch := { u.batch with resendAt := u.now } } →
        exec (.heldResend dt) s = .next (State.settle ((v.reachable.filter fun m => m != v.member && (sget v.peers {} m).digest != u.digest).foldl
          (fun (x : State) m => x.sendTo m (64 * m + 63) (.config x.epoch (cfgWords u.batch.config) (some (x.member, u.digest)))) v)))) ∧
  (∀ (dt : Nat) (s u : State), u = s.advance dt →
      (u.batch.timeAt + 125000000 ≤ u.now → (∀ l, l < 8 → u.linkState l ≠ 3) → exec (.timeCompareTx dt) s =
        .next (State.settle { u with batch := { u.batch with timeAt := u.now } })) ∧
      (u.now < u.batch.timeAt + 125000000 → exec (.timeCompareTx dt) s = .next u.settle) ∧
      (∀ (l : Fin 8) (tx rx : Nat) (k : Link) (v w x : State), u.linkState l = 3 → k = sget u.links {} l →
        v = u.modLink l (fun k => { k with rxTime := some (tx, u.ptp) }) →
        (rx = 0 → exec (.timeMsg dt l tx rx) s = .next v.settle) ∧
        (rx ≠ 0 → k.txTime ≠ 0 → w = v.setFld F.FAB_LINK_STAT.RTT_US l (min 4095 ((((rx : Int) - k.txTime) - ((tx : Int) - u.ptp)).toNat / 1000)) →
          x = w.modLink l (fun k' => { k' with offset := (((tx : Int) - u.ptp) + ((rx : Int) - k.txTime)) * 500 - sgn (w.fld F.FAB_LINK_CFG.ASYM_PS l) 16 }) →
          (x.disagreement l = none → exec (.timeMsg dt l tx rx) s = .next x.settle) ∧
          (∀ d, x.disagreement l = some d → exec (.timeMsg dt l tx rx) s = .next (State.settle (x.compareTime d))))))

/-! ## DRAM and crossings (chapter 19) -/

/-- DRAM_REQUEST, DRAM_CALIBRATION, DRAM_ROW_IDLE_CLOSE and CDC_FLUSH (R799, R806, R808, R810): a trained stack serves the request it chooses, counted by its class; calibration runs once
a second with a pause of at most 1 µs; a row idle for 1 µs closes; a flushed crossing is counted. What the reads of the block give against its side band is checked with the data. -/
def Obligations.DramServesAndRests : Prop :=
  ∀ (dt : Nat) (s u : State), u = s.advance dt →
    (∀ (st : Fin 2) (cores : List (Nat × Bool)) (first : List Nat) (again reads : List (List Nat)) (i : Nat) (r : DramReq) (c : DramCh) (v w x : State), reads = first :: again → v = (u.coreReqs st cores).dramPromote st →
      c = sget v.dramCh {} st → bit (v.reg .DRAM_STAT st 0) 0 = true → bit (v.reg .DRAM_STAT st 0) 1 = false → c.calEnd ≤ v.now → c.choose = some i → c.reqs[i]? = some r →
      w = { v with dramCh := sset v.dramCh st ({ c with reqs := c.reqs.eraseIdx i }.after r v.now) } →
      x = (w.bump .DRAM_REQ (st * 4 + r.cls)).perfEv 12 1 st 0 r.cls 0 0 →
      (c.hit r = true → exec (.dramRequest dt st cores first again) s =
        .next (State.settle (((x.perfEv 13 1 st 0 r.cls 0 0).dramEcc st r reads).dramCheck st r reads))) ∧
      (c.hit r = false → exec (.dramRequest dt st cores first again) s = .next (State.settle ((x.dramEcc st r reads).dramCheck st r reads)))) ∧
    (∀ (st : Fin 2) (c : DramCh), c = sget u.dramCh {} st → bit (u.reg .DRAM_STAT st 0) 0 = true → bit (u.reg .DRAM_STAT st 0) 1 = false → c.calAt + 1000000000 ≤ u.now →
      ∃ pause, pause ≤ 1000 ∧ exec (.dramCalibration dt st) s =
        .next (State.settle { u with free := u.free + 1, dramCh := sset u.dramCh st { c with calAt := u.now, calEnd := u.now + pause } })) ∧
    (∀ (st : Fin 2) (row t : Nat) (c : DramCh), c = sget u.dramCh {} st → sfind c.rows row = some t → t + 1000 ≤ u.now →
      exec (.dramRowIdleClose dt st row) s = .next (State.settle { u with dramCh := sset u.dramCh st { c with rows := sdel c.rows row } })) ∧
    exec (.cdcFlush dt) s = .next (State.settle ((u.bump .CDC_FLUSH 0).perfEv 15 1 0 0 0 0 0))

/-! ## Faults, journal and interrupts (chapter 18) -/

/-- FAULT_LINE_LATCH, FAULT_WORD_CLEAR, WATCH_EXPIRY, ESCALATION_CLEAR, SAFE_ENTRY and COLLECTOR_MISMATCH (R761, R763, R764, R768, R769, R772): a line whose condition arises is
raised, line 36 with the counter pair that is lost and lines 8 to 11 with the shadow row that is bad; a write of 1 clears its bit, and the bit is set again while the condition stays; a timer that expires with its bit set escalates; a mismatch ends in the safe state. -/
def Obligations.FaultLinesLatchAndEscalate : Prop :=
  ∀ (dt : Nat) (s u : State), u = s.advance dt →
    (∀ (i : Fin 64) (stays : Bool) (at_ : Nat) (v w : State), ownLine i = false →
      v = (if i.val = 36 then { u with pairs := sdel u.pairs at_, pairBad := ins u.pairBad at_ } else u) →
      w = (if 8 ≤ i.val ∧ i.val < 12 then v.shadowBad (i.val - 8) (at_ % 8192) else v) → exec (.faultLineLatch dt i stays at_) s =
        .next (State.settle (State.raise { w with flt := { w.flt with cond := mark w.flt.cond i stays } } i))) ∧
    (∀ (w : Fin 2) (x : Word), u.reg .FAULT_WORD 0 w &&& x.toNat = 0 →
      exec (.faultWordClear dt w x) s = .next (State.settle (u.setReg .FAULT_WORD 0 w (u.reg .FAULT_WORD 0 w)))) ∧
    (∀ (i b : Nat) (w : Fin 2) (x : Word) (v : State), (List.range 32).filter (bit (u.reg .FAULT_WORD 0 w &&& x.toNat)) = [b] → i = 32 * w + b →
      v = ((u.setReg .FAULT_WORD 0 w (u.reg .FAULT_WORD 0 w - (u.reg .FAULT_WORD 0 w &&& x.toNat))).irqSignal (64 + i) false).evtLine (32 + i) false →
      (v.flt.cond.contains i = true → exec (.faultWordClear dt w x) s = .next (State.settle (v.raise i))) ∧
      (v.flt.cond.contains i = false → exec (.faultWordClear dt w x) s = .next (State.settle { v with flt := { v.flt with watch := sdel v.flt.watch i } }))) ∧
    (u.pwr.on = true → exec (.collectorMismatch dt) s = .next (State.settle (State.safeEnter { u with flt := { u.flt with copyOk := false } } .collector 0))) ∧
    (∀ (i : Fin 64) (t : Nat) (v : State), sfind u.flt.watch i = some t → t ≤ u.now → v = { u with flt := { u.flt with watch := sdel u.flt.watch i } } →
      (bit v.faultWord i = true → u.flt.safe = false → u.flt.copyOk = true → exec (.watchExpiry dt i) s = .next (State.settle (v.watchStep i))) ∧
      (bit v.faultWord i = false → exec (.watchExpiry dt i) s = .next v.settle)) ∧
    (u.escStage ≠ 0 → sget u.flt.lastAt 0 u.escLine + 60000000000 ≤ u.now → exec (.escalationClear dt) s = .next (State.settle (u.setFld F.FLT_ESC.STAGE 0 0))) ∧
    (u.pwr.on = true → exec (.safeEntry dt .escalation) s = .next (State.settle (u.safeEnter .escalation u.escLine))) ∧
    (u.pwr.on = true → exec (.safeEntry dt .thermal) s = .next (State.settle (u.safeEnter .thermal 39))) ∧
    (∀ c, c ≠ .escalation → c ≠ .thermal → u.pwr.on = true → exec (.safeEntry dt c) s = .next (State.settle (u.safeEnter c 0)))

/-- KICK, WDOG_WARN and WATCHDOG (R770, R771): only 0x4B49 restarts the watchdog; half a period without a kick is warned of; at expiry line 40 latches, and the device makes a
warm reset with cause 6 or, at a count of 3, enters the safe state. -/
def Obligations.WatchdogWarnsAndResets : Prop :=
  ∀ (dt : Nat) (s u : State), u = s.advance dt →
    (∀ v : BitVec 16, v ≠ 0x4B49#16 → exec (.kick dt v) s = .next u.settle) ∧
    (u.flt.wdogAt.isSome = true → exec (.kick dt 0x4B49#16) s = .next (State.settle (u.wdogRestart u.flt.wdogTop))) ∧
    (∀ t, u.flt.wdogAt = some t → u.flt.warned = false → t + u.wdogNs / 2 ≤ u.now →
      exec (.wdogWarn dt) s = .next (State.settle (State.pulse { u with flt := { u.flt with warned := true } } 7))) ∧
    (∀ t (v w : State), u.flt.wdogAt = some t → t + u.wdogNs ≤ u.now → v = (u.wdogRestart u.flt.wdogTop).latch 40 →
      w = v.setFld F.FLT_ESC.WDOG_RESETS 0 (min 3 (v.fld F.FLT_ESC.WDOG_RESETS 0 + 1)) →
      (v.fld F.FLT_ESC.WDOG_RESETS 0 < 2 → exec (.watchdog dt) s = .next (State.settle (w.doReset false 6 false))) ∧
      (2 ≤ v.fld F.FLT_ESC.WDOG_RESETS 0 → exec (.watchdog dt) s = .next (State.settle (w.safeEnter .watchdog 0))))

/-- JOURNAL_SIGN_TIMER, JOURNAL_ENTRY_WRITE, SOURCE_EVENT, CLAIM, COMPLETE, COALESCE_RELEASE, STALE_DELIVERY and TARGET_WAKE (R779, R780, R785 to R790): entries are written in their
order and signed every 60 s; a claim takes the deliverable source of the highest priority and makes it active; a COMPLETE of a source that is not active is counted; a group releases what it holds. -/
def Obligations.JournalAndInterruptsAct : Prop :=
  ∀ (dt : Nat) (s u : State), u = s.advance dt →
    (u.journal.fresh = true → u.journal.signAt + 60000000000 ≤ u.now → exec (.journalSignTimer dt) s = .next (State.settle u.jSign)) ∧
    (u.journal.queue = [] → exec (.journalEntryWrite dt) s = .next u.settle) ∧
    (∀ t c f p q (v : State), u.journal.queue = (t, c, f, p) :: q → v = State.jWrite { u with journal := { u.journal with queue := q } } t c f p →
      v.journal.dropped = 0 → exec (.journalEntryWrite dt) s = .next v.settle) ∧
    (∀ (i : Fin 1024) (level : Bool), (irqUsed i = true → exec (.sourceEvent dt i level) s = .next (State.settle (u.irqSignal i level))) ∧
      (irqUsed i = false → exec (.sourceEvent dt i level) s = .next u.settle)) ∧
    (∀ (t : Fin 5), (u.irqBest t = none → exec (.irqClaim dt t) s = .next (State.settle { u with rd := [w32 0] })) ∧
      (∀ i (v : State), u.irqBest t = some i →
        v = State.irqSettle (State.perfEv { u with irq := { u.irq with
          pend := del u.irq.pend i
          stack := sset u.irq.stack t ((i, u.irqPrio i) :: sget u.irq.stack [] t) } } 16 1 0 0 0 0 0) →
        exec (.irqClaim dt t) s = .next (State.settle { v with rd := [w32 (i + 2147483648)] }))) ∧
    (∀ (t : Fin 5) (i : BitVec 10) (l : List (Nat × Nat)), l = sget u.irq.stack [] t →
      ((l.any fun a => a.1 == i.toNat) = true → exec (.irqComplete dt t i) s = .next (State.settle (State.irqSettle { u with irq := { u.irq with
        stack := sput u.irq.stack [] t (l.filter fun a => a.1 != i.toNat)
        fall := del u.irq.fall i.toNat } }))) ∧
      ((l.any fun a => a.1 == i.toNat) = false → exec (.irqComplete dt t i) s = .next (State.settle (u.bump .IRQ_BAD_COMPLETE t)))) ∧
    (∀ (g : Fin 64) (t : Nat), sfind u.irq.first g = some t → t + 1000 * max 1 (u.fld F.IRQ_GROUP.TIME_US g) ≤ u.now →
      exec (.coalesceRelease dt g) s = .next (State.settle (u.irqRelease g).irqSettle)) ∧
    (∀ (i : Fin 1024) (a t : Nat), t = u.irqTarget0 i → sfind u.irq.stale i = some a → u.fld F.IRQ_TGT.STALE_MS t ≠ 0 → u.irq.asleep.contains t = true →
      a + 1000000 * u.fld F.IRQ_TGT.STALE_MS t ≤ u.now →
      exec (.staleDelivery dt i) s = .next (State.settle (State.irqSettle { u with irq := { u.irq with fall := ins u.irq.fall i } }))) ∧
    (∀ (t : Fin 5), exec (.targetWake dt t) s = .next (State.settle (State.irqSettle { u with irq := { u.irq with
      asleep := del u.irq.asleep t
      wakes := del u.irq.wakes t } })))

/-! ## Supply and starts (chapter 17) -/

/-- The supply's rows (R720, R721, R723, R724, R734, R735, R739, R740, R846): HOLD and SAFE on the store, its stages and the undoing of what each shed, the low input, the store's fault, closure at 40.0 V and the
thermal shutdown at 115 °C or 135 °C. -/
def Obligations.SupplyEventsTakeTheirStates : Prop :=
  ∀ (dt mv : Nat) (s u : State), u = s.advance dt → u.pwr.on = true →
    (exec (.vinDipShort dt) s = .next (State.settle (u.bump .PWR_DIP_SHORT 0))) ∧
    (exec (.storeArmed dt mv) s = .next (State.settle (u.setStore mv))) ∧
    (∀ v : State, u.pwr.onStore = false → v = State.setStore { u with pwr := { u.pwr with
        onStore := true
        chargeAt := none } } mv →
      (v.flt.safe = true → 44000 ≤ mv → exec (.holdEntry dt mv) s = .next v.settle) ∧
      (v.flt.safe = true → mv < 44000 → exec (.holdEntry dt mv) s = .next (State.settle (v.closeDown mv))) ∧
      (v.flt.safe = false → mv < 44000 → exec (.holdEntry dt mv) s = .next (State.settle ((((v.setPower 3).warn).pulse 1).closeDown mv))) ∧
      (v.flt.safe = false → 44000 ≤ mv → exec (.holdEntry dt mv) s = .next (State.settle (State.runStages 4 (((v.setPower 3).warn).pulse 1))))) ∧
    (u.power = 3 → exec (.shedStage dt mv) s = .next (State.settle (State.runStages 4 (u.setStore mv)))) ∧
    (∀ v : State, u.pwr.onStore = true → v = State.warnRelease { u with pwr := { u.pwr with
        onStore := false
        chargeAt := if u.flag F.PWR_STAT.VIN_LOW 0 then none else some u.now
        undoAt := if u.pwr.shedDone = 0 then none else some u.now } } →
      (v.flt.safe = true → exec (.holdExit dt) s = .next (State.settle v.deferredReset)) ∧
      (v.flt.safe = false → v.ready 0 = false → exec (.holdExit dt) s = .next (State.settle (v.warmReset 8 false))) ∧
      (v.flt.safe = false → v.ready 0 = true → exec (.holdExit dt) s = .next (State.settle (v.setPower v.measured).endMeasures.deferredReset.clockBack))) ∧
    (∀ (t k : Nat) (v : State), u.pwr.undoAt = some t → u.pwr.onStore = false → u.pwr.shedDone = k + 1 → t + 1000000 ≤ u.now → v = { u with pwr := { u.pwr with
        shedDone := k
        shedFns := u.pwr.shedFns.tail
        undoAt := if k = 0 then none else some u.now } } →
      exec (.shedUndo dt) s = .next (State.settle ((v.setFld F.PWR_STAT.SHED 0 k).unshedFunc (u.pwr.shedFns.headD 0)))) ∧
    (u.pwr.high = true → u.pwr.onStore = false → 16500 ≤ mv → mv < 18000 → exec (.vinLow dt mv) s =
      .next (State.settle (State.warn (State.setFld { u with pwr := { u.pwr with
        vin := mv
        chargeAt := none } } F.PWR_STAT.VIN_LOW 0 1)))) ∧
    (u.flag F.PWR_STAT.VIN_LOW 0 = true → u.pwr.onStore = false → 18500 ≤ mv → exec (.vinLowEnd dt mv) s =
      .next (State.settle (State.warnRelease (State.setFld { u with pwr := { u.pwr with
        vin := mv
        chargeAt := some u.now } } F.PWR_STAT.VIN_LOW 0 0)))) ∧
    (∀ (v : State), v = u.setStore mv →
      (∀ low, (low = false ∧ v.chargeLate mv = true) ∨ (low = true ∧ v.pwr.cap ≠ 0 ∧ v.pwr.cap < 900000) →
        exec (.storeFault dt mv low) s = .next (State.settle ((v.setFld F.PWR_STAT.STORE_FAULT 0 1).warn.irqSignal 3 true))) ∧
      (v.chargeLate mv = false → exec (.storeFault dt mv false) s = .next v.settle) ∧
      (v.pwr.cap = 0 ∨ 900000 ≤ v.pwr.cap → exec (.storeFault dt mv true) s = .next v.settle) ∧
      (∀ t, v.pwr.chargeAt = some t → (v.chargeLate mv = true ↔ t + 25000000000 ≤ v.now ∧ mv < 80000))) ∧
    (u.pwr.onStore = true → mv ≤ 40000 → exec (.closure dt mv) s = .next (State.settle (u.closeDown mv))) ∧
    (∀ (die stage : Int) (v : State), 115 * 256 ≤ die ∨ 135 * 256 ≤ stage → v = u.tx.foldl (fun (x : State) e => x.loseTx e.1) u →
      exec (.thermalShutdown dt die stage) s = .next (State.settle (State.off { v with pwr := { v.pwr with hot := die } } true true)))

/-- Starts, resets and proofs (R719, R731, R745 to R747, R755, R756, R846): a start at 36.0 V, or 19.5 V on the 24 V class, with cause 0 or, after closure, 7; the reset
pins and requests with their causes; a proof posts READY, and of its missed limits the first runs it again and the second raises PROOF_FAIL; measures and wakes. Entries of the persistent store
that fail authentication as the starter reads them are discarded. -/
def Obligations.StartsResetsAndProofs : Prop :=
  ∀ (dt : Nat) (s u : State), u = s.advance dt →
    (∀ (mv : Nat) (high : Bool) (straps : BitVec 3) (cfg : StartCfg) (v : State), u.pwr.on = false → u.pwr.thermal = false → (if high then 19500 else 36000) ≤ mv →
      v = { u with startCfg := some cfg, i2cAddr := 72 + straps.toNat, pwr := { u.pwr with vin := mv, chargeAt := some 0 } } →
      exec (.powerOn dt mv high straps cfg) s =
        .next (State.settle (v.coldReset (if v.pwr.closing then 7 else 0) false high v.cfgUsed.ref25 v.cfgUsed.memberId))) ∧
    (∀ (hot : Int) (mv : Nat) (v : State), u.pwr.on = false → u.pwr.thermal = true → hot ≤ 90 * 256 → u.startMv ≤ mv →
      v = { u with pwr := { u.pwr with vin := mv, hot := hot, chargeAt := some 0 } } →
      exec (.thermalRestart dt hot mv) s = .next (State.settle (v.coldReset 0 false v.pwr.high v.cfgUsed.ref25 v.cfgUsed.memberId))) ∧
    (∀ (straps : BitVec 3) (cfg : StartCfg), u.pwr.on = true → exec (.porstN dt straps cfg) s =
      .next (State.settle (State.doReset { u with startCfg := some cfg, i2cAddr := 72 + straps.toNat } true 1 false))) ∧
    (∀ (straps : BitVec 3), u.pwr.on = true → exec (.wrstN dt straps) s =
      .next (State.settle (State.doReset { u with i2cAddr := 72 + straps.toNat } false 2 false))) ∧
    (∀ tryB, u.pwr.on = true → exec (.warmResetRequest dt tryB) s = .next (State.settle (u.doReset false 3 tryB)) ∧
      exec (.coldResetRequest dt tryB) s = .next (State.settle (u.doReset true 4 tryB))) ∧
    (∀ (a b : Option Image) (bad : List StoreItem) (x v w : State) (d : Bytes), u.pwr.on = true → u.pwr.onStore = false → u.sec.running = none → u.fld F.HOST_READY.STAGE 0 = 0 →
      x = bad.foldl State.storeBad { u with sec := { u.sec with slotA := a, slotB := b } } → x.sec.udsKill = false ∨ x.sec.lifecycle = 3 →
      v = { x with journal := { x.journal with chain := Config.shake256 (([0x5A, 0x4B, 0x34, 0x38, 0x31, 0x36, 0x20, 0x4A,
        0x4F, 0x55, 0x52, 0x4E, 0x41, 0x4C] : Bytes) ++ deviceId ++ toLE x.journal.seq 8) } } → v.freshBytes 64 = (d, w) →
      exec (.starterRun dt (a, b) bad) s = .next (State.settle ((((((w.extend 0 0 d).extend5).setFld F.SEC_BOOT.TRY_B 0 0).setFld
        F.SEC_BOOT.A_RESULT 0 0).setFld F.SEC_BOOT.B_RESULT 0 0).trySlots
        (if ((w.extend 0 0 d).extend5).flag F.SEC_BOOT.TRY_B 0 then [true, false] else [false, true])))) ∧
    (∀ (f : Fn), u.mayProof f = true → u.ready f.bit = false → u.proofLines f = [] → sget u.tries 0 f.code < 2 →
      (exec (.proofDone dt f) s = .next (State.settle (State.fnReady { u with proofAt := sset u.proofAt f.code u.now } f).clockBack)) ∧
      (u.proofLate f = false → exec (.proofTimeout dt f) s = .next u.settle) ∧
      (u.proofLate f = true → sget u.tries 0 f.code = 0 → exec (.proofTimeout dt f) s =
        .next (State.settle { u with tries := sset u.tries f.code 1, proofAt := sset u.proofAt (16 + f.code) u.now })) ∧
      (u.proofLate f = true → sget u.tries 0 f.code = 1 → exec (.proofTimeout dt f) s =
        .next (State.settle (State.raise { u with tries := sset u.tries f.code 2, proofAt := sset u.proofAt (16 + f.code) u.now } 19)))) ∧
    (∀ m, (u.measureOk m = true → exec (.pwrMeasureApply dt m) s = .next (State.settle (u.applyMeasure m).settlePower.clockBack)) ∧
      (u.measureOk m = false → exec (.pwrMeasureApply dt m) s = .next u.settle)) ∧
    (∀ (pl : Fin 4) (c : WakeCause) (v w : State), u.pwr.gated.contains pl.val = true → u.power < 3 → u.wakes pl c = true →
      v = State.quiesceEnd { u with pwr := { u.pwr with gated := del u.pwr.gated pl, wake := del u.pwr.wake pl } } →
      w = (if v.plFenced pl || v.sec.lifecycle = 3 then v else v.setReady (4 + pl) true) →
      exec (.pipelineWake dt pl c) s = .next (State.settle
        (((List.range 40).filter fun p => portPl p == pl.val).foldl State.tryUp w).bypSettle.settlePower.clockBack))

/-! ## Registers, doorbells and pins (chapters 1, 15, 16 and 19) -/

/-- Register rows, doorbells and the host DMA (R9, R310, R347, R676, R681, R682, R694, R704 to R706, R824): a register write reaches the register at its address; a read with RC fields returns
them; BUF_CTL.LOCK follows the write of its register; a doorbell moves an enabled channel's or ring's index, and one too far ahead is an error with cause 1; a transmit slot ends with error 1 for
a bad count and 2 for a failed read, and else its frame enters P40 or is held back; a slot the host changed meanwhile has free contents. -/
def Obligations.RegistersAndDoorbellsAct : Prop :=
  ∀ (dt : Nat) (s u : State), u = s.advance dt →
    (∀ (a : RegAddr) (v : Word), a.wf = true → a.held = none →
      exec (.registerWrite dt (.firmware a.reg a.idx) a.word v) s = .next (State.settle (u.fwWrite a.reg a.idx a.word v.toNat))) ∧
    (∀ (off : Nat) (v : Word), exec (.registerWrite dt .bar0 off v) s = .next (State.settle (u.bar0Write off v.toNat))) ∧
    (∀ (a : RegAddr) (v : Nat) (t : State), a.wf = true → a.held = none → u.regRead a.reg a.idx a.word = (v, t) →
      exec (.rcRead dt a) s = .next (State.settle { t with rd := [w32 v] })) ∧
    (∀ b, exec (.bufLock dt b) s = .next (State.settle (u.putReg .BUF_CTL 0 0 (putBits (u.reg .BUF_CTL 0 0) 0 1 (b2n b))))) ∧
    (∀ (n : Fin 64) (w : Fin 2) (v : Word), exec (.perfCtrWrite dt n w v) s = .next (State.settle (u.putReg .PERF_CTR n w v.toNat))) ∧
    (∀ (ch : Fin 16), u.mbxEn ch = true →
      (∀ pi : BitVec 16, serial (u.reqCi ch) pi.toNat 16 ≤ 2 ^ u.reqLog ch →
        exec (.mbxReqDb dt ch pi) s = .next (State.settle (u.setChan ch { u.chan ch with pi := pi.toNat }))) ∧
      (∀ pi : BitVec 16, 2 ^ u.reqLog ch < serial (u.reqCi ch) pi.toNat 16 → exec (.mbxReqDb dt ch pi) s = .next (State.settle (u.mbxError ch 1))) ∧
      (∀ ci : BitVec 16, serial (u.chan ch).cplCi ci.toNat 16 ≤ serial (u.chan ch).cplCi (u.cplPi ch) 16 →
        exec (.mbxCplDb dt ch ci) s = .next (State.settle (u.setChan ch { u.chan ch with cplCi := ci.toNat }))) ∧
      (∀ ci : BitVec 16, serial (u.chan ch).cplCi (u.cplPi ch) 16 < serial (u.chan ch).cplCi ci.toNat 16 →
        exec (.mbxCplDb dt ch ci) s = .next (State.settle (u.mbxError ch 1))) ∧
      exec (.mbxChannelDisable dt ch) s = .next (State.settle (u.stopChan ch))) ∧
    (∀ t, u.txn = some t → t.own = false → t.commit = false → t.last + 10000000000 ≤ u.now →
      exec (.txnLapse dt) s = .next (State.settle { u.abortTxn with lapsed := u.lapsed ++ [(t.id, t.ch)] })) ∧
    exec (.hostIfReset dt) s = .next (State.settle u.hostReset) ∧
    (∀ (k : Fin 8) (pi : BitVec 16) (ch : List Nat), (u.flag F.HDMA_TX.EN k = true →
        exec (.hdmaTxDoorbell dt k pi) s = .next (State.settle (u.setRing k { u.ring k with pi := pi.toNat }))) ∧
      (u.flag F.HDMA_RX.EN k = true →
        exec (.hdmaRxDoorbell dt k { pi := pi, changed := ch }) s = .next (State.settle (u.setRing (8 + k)
          { u.ring (8 + k) with pi := pi.toNat, changed := (u.ring (8 + k)).changed ++ ch })))) ∧
    (∀ (k : Fin 8) (t x : TxSlot), u.ready 13 = true → u.txTurn = some k.val → x = (u.ring k).held.getD t →
      (x.dmaErr = true → exec (.hdmaTxFrame dt k t) s = .next (State.settle (u.txDone k 2))) ∧
      (x.dmaErr = false → x.count < 60 ∨ 16380 < x.count → exec (.hdmaTxFrame dt k t) s = .next (State.settle (u.txDone k 1))) ∧
      (x.dmaErr = false → 60 ≤ x.count → x.count ≤ 16380 → ∀ b w, (if x.changed then u.freshBytes x.count else (fit x.count x.bytes, u)) = (b, w) →
        (∀ v, w.inject 40 (x.pipeline.getD (u.fld F.HDMA_TX.PIPELINE k) % 4) b = some v → exec (.hdmaTxFrame dt k t) s = .next (State.settle (v.txDone k 0))) ∧
        (w.inject 40 (x.pipeline.getD (u.fld F.HDMA_TX.PIPELINE k) % 4) b = none →
          exec (.hdmaTxFrame dt k t) s = .next (State.settle (w.setRing k { w.ring k with held := some x })))))

/-- I2C, UART and JTAG, and the security rows that come from no mailbox (R635, R636, R654, R657, R664, R666, R667): n bytes from the pointer; the UART read commands in every debug state; what a debug state
does not grant has no effect; a session that lapses or idles closes. -/
def Obligations.PinsAndSecurityEventsAct : Prop :=
  ∀ (dt : Nat) (s u : State), u = s.advance dt →
    (∀ (ptr : Option Byte) (n : Nat) (l : List Word) (v t : State), u.pwr.on = true → v = { u with i2cPtr := (ptr.map (·.toNat)).getD u.i2cPtr } →
      State.i2cRun n v = (l, t) → exec (.i2cRead dt ptr n) s = .next (State.settle { t with rd := l })) ∧
    (∀ m, u.sec.running = some m → exec (.uartCommand dt .ready) s =
      .next (State.settle { u with uart := u.uart ++ [UartLine.ready], rd := [w32 (u.reg .HOST_READY 0 0)] })) ∧
    (∀ m, u.sec.running = some m → exec (.uartCommand dt .other) s = .next u.settle ∧
      (u.sec.debug ≠ 1 → exec (.uartCommand dt .zeinekTest) s = .next u.settle)) ∧
    (u.pwr.on = true →
      exec (.jtagAccess dt .bypass) s = .next u.settle ∧ exec (.jtagAccess dt .sample) s = .next u.settle ∧
      exec (.jtagAccess dt .extest) s = .next (State.settle (u.safeEnter .extest 0)) ∧
      (∀ sig own st t, u.unlock sig own = (st, t) → exec (.jtagAccess dt (.unlock sig own)) s = .next (State.settle { t with rd := [w32 st] })) ∧
      exec (.jtagAccess dt .halt) s = .next u.settle ∧ exec (.jtagAccess dt .zeinekTest) s = .next u.settle ∧
      (∀ level c t, level = 1 ∨ level = 2 → u.sec.rngFail = false → u.challenge level = (c, t) →
        exec (.jtagAccess dt (.challenge level)) s = .next (State.settle { t with rd := c.map fun b => w32 b.toNat })) ∧
      (u.sec.debug = 0 → (∀ a, exec (.jtagAccess dt (.readReg a)) s = .next u.settle) ∧ (∀ a b, exec (.jtagAccess dt (.readMem a b)) s = .next u.settle)) ∧
      (u.sec.debug ≠ 1 → (∀ a v, exec (.jtagAccess dt (.writeReg a v)) s = .next u.settle) ∧ (∀ a b v, exec (.jtagAccess dt (.writeMem a b v)) s = .next u.settle)) ∧
      (∀ a v t, u.sec.debug ≠ 0 → a.outsideSec = true → State.rawRead (if u.addrStopped a then u.undefined .stoppedClock else u) a = (v, t) →
        exec (.jtagAccess dt (.readReg a)) s = .next (State.settle { t with rd := [w32 v] })) ∧
      (∀ a, u.sec.debug ≠ 0 → exec (.jtagAccess dt (.readMem a none)) s = .next (State.settle { u with rd := [w32 (u.debugByte a).toNat] })) ∧
      (∀ a v, u.sec.debug = 1 → a.outsideSec = true → exec (.jtagAccess dt (.writeReg a v)) s = .next (State.settle (u.rawWrite a v.toNat)))) ∧
    (∀ (p : Fin 32) (an : Fin 4) (cak : Fin 64) (scs : List Nat) (mka : Option MkaPdu) (k : Bytes) (v : State), u.sec.debug ≠ 1 → u.ready 1 = true → u.sakOf cak mka = some (k, v) →
      ∃ t, exec (.sakInstallDone dt p { an := an, cak := cak, scs := scs, mka := mka }) s = .next (State.settle t) ∧ t.txSa = sset v.txSa (4 * p.val + an.val) { key := k } ∧
        (∀ c ∈ ((scs.map (· % 18446744073709551616)).eraseDups).take 4, sfind t.rxSa (saKey p.val c an.val) = some { key := k }) ∧
        t.sec = v.sec ∧ t.regs = v.regs ∧ t.frames = v.frames) ∧
    exec (.secRngFail dt) s = .next (State.settle (State.pulse { u with sec := { u.sec with rngFail := true } } 0)) ∧
    exec (.entropyHealthPass dt) s = .next (State.settle { u with sec := { u.sec with rngFail := false } }) ∧
    (∀ (ch : Fin 16) (o : Opening), sfind u.sec.opening ch = some o → o.at_ + 10000000000 ≤ u.now →
      exec (.sessionLapse dt ch) s = .next (State.settle { u with sec := { u.sec with opening := sdel u.sec.opening ch } })) ∧
    (∀ (ch : Fin 16) (x : Session), u.session ch = some x → x.last + u.idleNs ≤ u.now →
      exec (.sessionIdleTimeout dt ch) s = .next (State.settle { u with sec := { u.sec with sessions := sdel u.sec.sessions ch } }))

/-! ## Mailbox commands (chapter 16)

Each clause names one row: c is what Table 16-7 says of its command, b the state its execution begins in; a request that R691 accepts completes, or waits, as stated. -/

/-- PORT_CONFIG, EXM_TABLE_CONFIG, EXM_TABLE_CONFIG_X, POL_CONFIG, QCI_CONFIG, RW_WRITE, MACSEC_CONFIG, ADM_CONFIG, MC_GROUP_WRITE, CAP_RING_CONFIG, SCHED_CONFIG, GCL_WRITE, QTEL_CONFIG, PRED_PAIR_CONFIG,
PRED_RCVY_CONFIG, TIME_CONFIG, PHX_STREAM_CONFIG, PHX_HARM_CONFIG, PMU_CONFIG, REC_CONFIG, EVT_CONFIG, FAB_CONFIG and FAULT_CONFIG (R693, R695, R714): every accepted request of each completes or waits.
Every record is checked before any applies; a malformed or refused one changes nothing and RESULT holds its offset; records that stage join the command's transaction, or one of its own that commits before
the command completes; immediate ones apply and complete. -/
def Obligations.ConfigurationCommandsApply : Prop :=
  ∀ (dt : Nat) (r : Req) (s u : State) (k : CfgCmd) (i : Instr), u = s.advance dt → bit r.arg.toNat 31 = false →
    (k, i) ∈ ([(.port, .portConfig dt r), (.exmTable, .exmTableConfig dt r), (.exmTableX, .exmTableConfigX dt r), (.pol, .polConfig dt r), (.qci, .qciConfig dt r), (.rw, .rwWrite dt r),
      (.macsec, .macsecConfig dt r), (.adm, .admConfig dt r), (.mcGroup, .mcGroupWrite dt r), (.capRing, .capRingConfig dt r), (.sched, .schedConfig dt r), (.gcl, .gclWrite dt r),
      (.qtel, .qtelConfig dt r), (.predPair, .predPairConfig dt r), (.predRcvy, .predRcvyConfig dt r), (.time, .timeConfig dt r), (.phxStream, .phxStreamConfig dt r),
      (.phxHarm, .phxHarmConfig dt r), (.pmu, .pmuConfig dt r), (.recorder, .recConfig dt r), (.evt, .evtConfig dt r), (.fab, .fabConfig dt r), (.fault, .faultConfig dt r)] : List (CfgCmd × Instr)) →
    Accepts k.cmd r u → let b := begun k.cmd r u
    (∀ off, r.cfgRecs k.cmd.op false = .error off → exec i s = .next (answer k.cmd r u b 2 off [])) ∧
    (∀ l, r.cfgRecs k.cmd.op false = .ok l →
      (∀ off st, r.txn ≠ 0 ∨ l.any CfgRec.stages = false → b.cfgApply (k.cmd.op == 0x8011) l = .error (off, st) → st ≠ 0 →
        exec i s = .next (answer k.cmd r u b st off [])) ∧
      (∀ t, l.any CfgRec.stages = false → cfgVers l = [] → (k = .fault → bits r.arg.toNat 0 2 = 0) → Applies k r b b t l →
        exec i s = .next (answer k.cmd r u t 0 0 [])) ∧
      (r.txn = 0 → l.any CfgRec.stages = true → b.txn ≠ none → exec i s = .next (answer k.cmd r u b 0x10 0 [])) ∧
      (∀ t, l.any CfgRec.stages = true → r.txn ≠ 0 ∨ b.txn = none → Applies k r b (stageFrom r b) t l →
        (cfgVers l = [] → (k = .fault → bits r.arg.toNat 0 2 = 0) → exec i s = .next (stageDone k.cmd r u t 0 [])) ∧
        (cfgVers l ≠ [] → k ≠ .fault → (cfgVers l).all (fun x => t.verFree x.1 x.2.1) = true → exec i s = .next (stageDone k.cmd r u (t.verWrite (cfgVers l)) 0 [])) ∧
        (cfgVers l ≠ [] → (cfgVers l).all (fun x => t.verFree x.1 x.2.1) = false → exec i s = .next (waiting r t (.rw (cfgVers l))))))

/-- FORCE_SAFE, UNFENCE, CONFIG_READBACK and SET_LATENCY_BUDGET complete (R693, R714, R732, R767, R781): FAULT_CONFIG with ARG bit 0 enters the safe state, with bit 1 it makes a block reset of the line's
unit and waits for its proof; with ARG bit 31 a configuration command reads its records back; a function's latency budget is staged. -/
def Obligations.FaultReadbackAndBudgetForms : Prop :=
  ∀ (dt : Nat) (r : Req) (s u : State), u = s.advance dt →
    (let c : Cmd := { op := 0xF0, role := some 2 }; let b := begun c r u
      Accepts c r u → bit r.arg.toNat 31 = false → r.cfgRecs 0xF0 false = .ok [] →
      (bit r.arg.toNat 0 = true → bit r.arg.toNat 1 = false → exec (.forceSafe dt r) s = .next (answer c r u (b.safeEnter .force 0) 0 0 [])) ∧
      (∀ t line, line = unitOf (bits r.arg.toNat 8 6) → bit r.arg.toNat 0 = false → bit r.arg.toNat 1 = true → b.flt.fenced.contains line = true → b.blockReset line = some t →
        exec (.unfence dt r) s = .next (waiting r { t with flt := { t.flt with proof := sset t.flt.proof line (t.now + proofNs line) } } (.proof line)))) ∧
    (∀ (k : CfgCmd) (l : List CfgRec), let c : Cmd := { k.cmd with read := true }; let q : Req := { r with arg := r.arg ||| 0x80000000 }; let b := begun c q u
      Accepts c q u → (q.cfgRecs c.op true = .ok l → exec (.configReadback dt k r) s = .next (answer c q u b 0 0 (wordsBytes (l.flatMap (b.cfgRead (c.op == 0x8011)))))) ∧
        (∀ off, q.cfgRecs c.op true = .error off → exec (.configReadback dt k r) s = .next (answer c q u b 2 off []))) ∧
    (let c : Cmd := { op := 0x20, role := some 1 }; let b := begun c r u
      Accepts c r u →
      (2 < bits r.arg.toNat 28 4 → exec (.setLatencyBudget dt r) s = .next (answer c r u b 2 0 [])) ∧
      (bits r.arg.toNat 28 4 ≤ 2 → r.cfgRecs 0x20 false = .ok [] → r.txn ≠ 0 ∨ b.txn = none → exec (.setLatencyBudget dt r) s =
        .next (stageDone c r u ((stageFrom r b).stageFld F.PWR_BUDGET.BUDGET_US (bits r.arg.toNat 28 4) (bits r.arg.toNat 0 28)) 0 [])))

/-- MBX_NOP, GET_INFO, TXN_BEGIN, TXN_BEGIN batch-wide, COMMIT, TXN_ABORT, PWR_STATUS, TIME_STATUS, FAB_STATUS, PORT_COUNTERS, COUNTER_READ, PMU_SERVER, REC_TRIGGER, REC_RELEASE, REC_READ, EVT_RESET_LATCH,
EVT_LOG_READ and JOURNAL_READ complete (R692, R694, R696, R702, R726, R733, R781, R817): for every state and accepted request, what the completion answers and what it leaves. TXN_BEGIN answers
the new identifier, COMMIT waits for its commit, a TXN_ABORT discards what is staged. -/
def Obligations.ChannelAndStatusCommandsAnswer : Prop :=
  ∀ (dt : Nat) (r : Req) (s u : State), u = s.advance dt →
    (let c : Cmd := { op := 0, role := none }; let b := begun c r u
      Accepts c r u → exec (.mbxNop dt r) s = .next (answer c r u b 0 (b.reg .HOST_READY 0 0) [])) ∧
    (let c : Cmd := { op := 1, role := none }; let b := begun c r u
      Accepts c r u → exec (.getInfo dt r) s = .next (answer c r u b 0 0 ((Config.serial ++ List.replicate 16 0).take 16 ++ deviceId ++ wordsBytes
        ([w32 ((b.sec.running.map (·.version)).getD 0), w32 (b.fld F.SEC_BOOT.BOOTED 0), w32 b.member, w32 (b.reg .HOST_READY 0 0), w32 b.secState] ++
          (List.range 16).map (fun k => w32 (b2n (b.session k).isSome + 2 * b2n ((b.txn.map (·.ch)) == some k))))))) ∧
    (let c : Cmd := { op := 0x10, role := some 1 }; let b := begun c r u
      Accepts c r u →
      (b.txn.isSome = true ∨ b.batch.staged.isSome = true → exec (.txnBegin dt r) s = .next (answer c r u b 0x10 0 [])) ∧
      (∀ id, b.txn = none → b.batch.staged = none → id = (if r.arg.toNat / 65536 ≠ 0 then r.arg.toNat / 65536 else b.lastTxn % 65535 + 1) →
        exec (.txnBegin dt r) s = .next (answer c r u { b with
          txn := some { id := id, ch := r.ch, sid := r.sid, batch := false, last := b.now }
          lastTxn := id
          lapsed := b.lapsed.erase (id, r.ch) } 0 id [])) ∧
      (∀ id, b.txn = none → b.batch.staged = none → id = (if r.arg.toNat / 65536 ≠ 0 then r.arg.toNat / 65536 else b.lastTxn % 65535 + 1) →
        b.fld F.FAB_STATE.STATE 0 ≠ 3 → b.isLeader = true → exec (.batchTxnBegin dt r) s = .next (answer c r u { b with
          txn := some { id := id, ch := r.ch, sid := r.sid, batch := true, last := b.now }
          lastTxn := id
          lapsed := b.lapsed.erase (id, r.ch) } 0 id [])) ∧
      (b.fld F.FAB_STATE.STATE 0 = 3 → exec (.batchTxnBegin dt r) s = .next (answer c r u b 0x902 0 [])) ∧
      (b.fld F.FAB_STATE.STATE 0 ≠ 3 → b.isLeader = false → exec (.batchTxnBegin dt r) s = .next (answer c r u b 0x901 0 []))) ∧
    (let c : Cmd := { op := 0x11, role := some 1 }; let b := begun c r u
      Accepts c r u → ∀ t v, b.txn = some t → r.txn ≠ 0 → v = { b with txn := some { t with commit := true } } →
      (t.batch = false → exec (.txnCommit dt r) s = .next (waiting r v (.commit false))) ∧
      (∀ w, t.batch = true → v.batchLead r.ch = .ok w → exec (.txnCommit dt r) s = .next (waiting r w (.commit true))) ∧
      (∀ st, t.batch = true → v.batchLead r.ch = .error st → exec (.txnCommit dt r) s = .next (answer c r u b st 0 []))) ∧
    (let c : Cmd := { op := 0x12, role := some 1 }; let b := begun c r u
      Accepts c r u → r.txn ≠ 0 → exec (.txnAbort dt r) s = .next (answer c r u b.abortTxn 0 0 [])) ∧
    (let c : Cmd := { op := 0x21, role := some 0, read := true }; let b := begun c r u
      Accepts c r u → ∃ m, exec (.pwrStatus dt r) s = .next (answer c r u b 0 (b.reg .PWR_STAT 0 0)
        (wordsBytes [m, w32 (b.pwr.vin / 10), w32 (b.pwr.store / 10), w32 (b.pwr.cap / 1000), w32 b.pwr.power]))) ∧
    (let c : Cmd := { op := 0xB1, role := some 0, read := true }; let b := begun c r u
      Accepts c r u → exec (.timeStatusCmd dt r) s = .next (answer c r u b 0 (b.reg .TIME_STATUS 0 0) (wordsBytes [w32 (b.reg .TIME_RATE 0 0), w32 (ptpNs b.ptp), w32 (ptpSec b.ptp),
        w32 (ptpSec b.ptp / 4294967296 % 65536), w32 b.gridNow, w32 (b.gridNow / 4294967296)]))) ∧
    (let c : Cmd := { op := 0xE1, role := some 0, read := true }; let b := begun c r u
      Accepts c r u → exec (.fabStatus dt r) s = .next (answer c r u b 0 (b.reg .FAB_STATE 0 0) (wordsBytes ((List.range 18).map (fun k => w32 (b.reg .FAB_EPOCH 0 k)) ++
        (List.range 8).map fun l => w32 (b.reg .FAB_LINK_STAT l 0))))) ∧
    (let c : Cmd := { op := 0x31, role := some 0, read := true }; let b := begun c r u
      Accepts c r u → (r.arg.toNat < 40 → exec (.portCounters dt r) s = .next (answer c r u b 0 0 ((b.lpiCount r.arg.toNat).portCounters r.arg.toNat))) ∧
        (40 ≤ r.arg.toNat → exec (.portCounters dt r) s = .next (answer c r u b 2 0 []))) ∧
    (let c : Cmd := { op := 0x32, role := some 0, read := true }; let b := begun c r u
      Accepts c r u → ∀ (first n : Nat) (l : List Nat), first = bits r.arg.toNat 0 20 → n = r.w 0 → 1 ≤ n → n ≤ 256 → first + n ≤ 1048576 →
      4 ≤ r.inLen → l = (List.range n).map (· + first) → exec (.counterRead dt r) s = .next (answer c r u
        (if bit r.arg.toNat 31 then l.foldl (fun (s : State) i => { s with pairs := sdel s.pairs i }) b else b) 0 0
        (l.flatMap fun i => toLE (sget b.pairs (0, 0) i).1 8 ++ toLE (sget b.pairs (0, 0) i).2 8))) ∧
    (let c : Cmd := { op := 0xC3, role := some 1 }; let b := begun c r u
      Accepts c r u → (bit (r.w 0) 0 = true → exec (.pmuServer dt r) s = .next (answer c r u { b with pmuSrv := r.payload, pmuConn := b.pmuConn } 0 b.pmuConn.length [])) ∧
        (bit (r.w 0) 0 = false → exec (.pmuServer dt r) s = .next (answer c r u { b with pmuSrv := r.payload, pmuConn := [] } 0 0 []))) ∧
    (let c : Cmd := { op := 0xC5, role := some 1 }; let b := begun c r u
      Accepts c r u → exec (.recTrigger dt r) s = .next (answer c r u (b.recTrigger (bits r.arg.toNat 0 6) b.ptp (2 ^ bits r.arg.toNat 8 5)) 0 0 [])) ∧
    (let c : Cmd := { op := 0xC6, role := some 1 }; let b := begun c r u
      Accepts c r u → ∀ x l, b.records (bits r.arg.toNat 0 6) = x :: l → x.isOpen = false →
      exec (.recRelease dt r) s = .next (answer c r u (b.setRecords (bits r.arg.toNat 0 6) l) 0 0 [])) ∧
    (let c : Cmd := { op := 0xC7, role := some 0, read := true, fn := some 11 }; let b := begun c r u
      Accepts c r u → ∀ x l, b.records (bits r.arg.toNat 0 6) = x :: l → x.isOpen = false →
      ∃ t rows, exec (.recRead dt r) s = .next (answer c r u t 0 (Config.comtrade (bits r.arg.toNat 8 1) x.words (b.recChans rows) rows).length
        (((Config.comtrade (bits r.arg.toNat 8 1) x.words (b.recChans rows) rows).drop (r.w 0)).take r.outLen)) ∧ rows.all x.holds = true) ∧
    (let c : Cmd := { op := 0xD1, role := some 1, fn := some 10 }; let b := begun c r u
      Accepts c r u → r.arg.toNat < 2048 → exec (.evtResetLatch dt r) s = .next (answer c r u
      (b.pass b.conds [(r.arg.toNat, (b.cond r.arg.toNat).raw, { b.cond r.arg.toNat with latched := false })] b.ptp b.frc) 0 0 [])) ∧
    (let c : Cmd := { op := 0xD2, role := some 0, read := true }; let b := begun c r u
      Accepts c r u → ∀ l, l = b.evtLog.take (r.outLen / 32) →
      exec (.evtLogRead dt r) s = .next (answer c r u { b with evtLog := b.evtLog.drop l.length } 0 l.length (wordsBytes (l.flatMap EvLog.words)))) ∧
    (let c : Cmd := { op := 0xF1, role := some 0, read := true }; let b := begun c r u
      Accepts c r u → (b.journal.newest.filter fun e => decide (e.seq ≥ r.w 0 + 4294967296 * r.w 1)).reverse ≠ [] →
      ∃ n out, exec (.journalRead dt r) s = .next (answer c r u b 0 n out))

/-- LOAD_RECIPE, EXM_WRITE, EXM_WRITE_X, EXM_SEARCH, TABLE_NEXT, FLUSH_BY_PORT, LPM_WRITE, LPM_SEARCH, TCAM_WRITE, TCAM_WRITE_X and TCAM_READ complete (R114, R163, R177 to R205, R214, R221, R228): for every
state and accepted request, a staged write joins its transaction, or one of its own, and answers the entry's position; a search answers the entry of the current or the next generation; FLUSH_BY_PORT waits for its
walk; the last segment of a recipe object waits for the engine's bank. -/
def Obligations.TableCommandsAnswer : Prop :=
  ∀ (dt : Nat) (r : Req) (s u : State), u = s.advance dt →
    (let c : Cmd := { op := 0x51, role := some 1 }; let b := begun c r u
      Accepts c r u → ∀ (t d op p : Nat) (x : State), r.txn ≠ 0 ∨ b.txn = none → t = r.w 0 % 256 → op = bits (r.w 0) 8 2 → d = b.descAt t b.curNext → 32 ≤ r.inLen → t ≠ 0 →
      op ≠ 3 → bit (r.w 0) 10 = false → bits (r.w 0) 13 19 = 0 → r.w 2 < 256 → tableKind (b.next .EXM_LTBL_CTL t 0) ≠ 0 → b.keyW t d ≠ 0 → r.exmKey 3 < 2 ^ b.keyW t d →
      (stageFrom r b).exmWrite t d op false (bit (r.w 0) 11) (r.exmKey 3) (r.w 1 + 4294967296 * (r.w 2 % 256)) = .ok p x →
      exec (.exmWrite dt r) s = .next (stageDone c r u x (x.exmPos t d p) [])) ∧
    (let c : Cmd := { op := 0x8010, role := some 2, expert := true }; let b := begun c r u
      Accepts c r u → ∀ (t d op p : Nat) (x : State), t = r.w 0 % 256 → op = bits (r.w 0) 8 2 → d = bits (r.w 0) 12 1 → 32 ≤ r.inLen → t ≠ 0 → op ≠ 3 →
      bits (r.w 0) 13 19 = 0 → r.w 2 < 256 → tableKind (b.next .EXM_LTBL_CTL t 0) ≠ 0 → b.keyW t d ≠ 0 → r.exmKey 3 < 2 ^ b.keyW t d →
      (bit (r.w 0) 10 = true → b.exmWrite t d op true (bit (r.w 0) 11) (r.exmKey 3) (r.w 1 + 4294967296 * (r.w 2 % 256)) = .ok p x →
        exec (.exmWriteX dt r) s = .next (answer c r u x 0 (x.exmPos t d p) [])) ∧
      (bit (r.w 0) 10 = false → r.txn ≠ 0 ∨ b.txn = none →
        (stageFrom r b).exmWrite t d op false (bit (r.w 0) 11) (r.exmKey 3) (r.w 1 + 4294967296 * (r.w 2 % 256)) = .ok p x →
        exec (.exmWriteX dt r) s = .next (stageDone c r u x (x.exmPos t d p) []))) ∧
    (let c : Cmd := { op := 0x52, role := some 0, read := true }; let b := begun c r u
      Accepts c r u → ∀ (t d g : Nat), t = r.w 0 % 256 → g = (if bit (r.w 0) 8 then b.curNext else b.cur) → d = b.descAt t g → 24 ≤ r.inLen → r.w 0 < 512 →
      (b.keyW t d = 0 ∨ b.exmHits t d (r.exmKey 1) g = [] → exec (.exmSearch dt r) s = .next (answer c r u b 0x101 0 [])) ∧
      (∀ p e l, b.keyW t d ≠ 0 → b.exmHits t d (r.exmKey 1) g = (p, e) :: l →
        exec (.exmSearch dt r) s = .next (answer c r u b 0 (b.exmPos t d p) (wordsBytes e.toWords)))) ∧
    (let c : Cmd := { op := 0x53, role := some 0, read := true }; let b := begun c r u
      Accepts c r u → 12 ≤ r.inLen → 1 ≤ r.w 2 → r.w 2 ≤ 128 → bits (r.w 0) 29 3 = 0 → bits (r.w 1) 16 15 = 0 →
      (bit (r.w 1) 31 = true ∨ bits (r.w 1) 0 16 = b.fld F.EXM_LTBL_STAT.SWITCH_COUNT (bits (r.w 0) 21 8) →
        ∃ out, exec (.tableNext dt r) s = .next (answer c r u b 0 0 out)) ∧
      (bit (r.w 1) 31 = false → bits (r.w 1) 0 16 ≠ b.fld F.EXM_LTBL_STAT.SWITCH_COUNT (bits (r.w 0) 21 8) →
        exec (.tableNext dt r) s = .next (answer c r u b 0x105 0 []))) ∧
    (let c : Cmd := { op := 0x54, role := some 1 }; let b := begun c r u
      Accepts c r u → ∀ f, 8 ≤ r.inLen → r.w 0 < 1024 → r.w 1 < 32768 → f = ({
        table := r.w 0 % 256
        gport := r.w 1
        staged := !bit (r.w 0) 8
        static_ := bit (r.w 0) 9
        ch := some r.ch
        tell := r.w 1 / 64 == b.member } : Flush) →
      (bit (r.w 0) 8 = true → exec (.flushByPort dt r) s = .next (waiting r { b with flushQ := b.flushQ ++ [f] } (.flush 0 1))) ∧
      (bit (r.w 0) 8 = false → r.txn ≠ 0 ∨ b.txn = none →
        exec (.flushByPort dt r) s = .next (waiting r { stageFrom r b with flushQ := (stageFrom r b).flushQ ++ [f] } (.flush 0 1)))) ∧
    (let c : Cmd := { op := 0x55, role := some 1 }; let b := begun c r u
      Accepts c r u → ∀ (len : Nat) (v6 : Bool), r.txn ≠ 0 ∨ b.txn = none → v6 = bit (r.w 0) 24 → len = bits (r.w 0) 16 8 → 24 ≤ r.inLen → r.w 0 < 134217728 →
      bits (r.w 0) 25 2 ≠ 3 → len ≤ famBits v6 → r.lpmAddr % 2 ^ (famBits v6 - len) = 0 →
      (∀ x, (stageFrom r b).lpmWrite (bits (r.w 0) 25 2) { pfx := r.lpmAddr, len := len, v6 := v6, vrf := r.w 0 % 65536, from_ := 0, result := r.w 5 } = .ok x →
        exec (.lpmWrite dt r) s = .next (stageDone c r u x 0 [])) ∧
      (∀ st, st ≠ 0 → (stageFrom r b).lpmWrite (bits (r.w 0) 25 2) { pfx := r.lpmAddr, len := len, v6 := v6, vrf := r.w 0 % 65536, from_ := 0, result := r.w 5 } = .error st →
        exec (.lpmWrite dt r) s = .next (answer c r u b st 0 []))) ∧
    (let c : Cmd := { op := 0x56, role := some 0, read := true }; let b := begun c r u
      Accepts c r u → 20 ≤ r.inLen → r.w 0 < 67108864 → bits (r.w 0) 16 8 = 0 → ∀ x, x = b.lpmLookup (r.w 0 % 65536) (bit (r.w 0) 24) r.lpmAddr
        (if bit (r.w 0) 25 then b.curNext else b.cur) → (∀ e, x = some e → exec (.lpmSearch dt r) s = .next (answer c r u b 0 0 (wordsBytes e.toWords))) ∧
      (x = none → exec (.lpmSearch dt r) s = .next (answer c r u b 0x101 0 []))) ∧
    (let c : Cmd := { op := 0x60, role := some 1 }; let b := begun c r u
      Accepts c r u → ∀ i t, r.rowOk = true → r.txn ≠ 0 ∨ b.txn = none →
      (stageFrom r b).tcamWrite (bits (r.w 0) 0 2) (maskPls (bits (r.w 0) 4 4)) (bits (r.w 0) 8 13) false (rowOf r.payload 1 (stageFrom r b).curNext) = .ok (i, t) →
      exec (.tcamWrite dt r) s = .next (stageDone c r u t i [])) ∧
    (let c : Cmd := { op := 0x8020, role := some 2, expert := true }; let b := begun c r u
      Accepts c r u → ∀ i t, r.rowOk = true → r.txn ≠ 0 ∨ b.txn = none →
      (stageFrom r b).tcamWrite (bits (r.w 0) 0 2) (maskPls (bits (r.w 0) 4 4)) (bits (r.w 0) 8 13) true (rowOf r.payload 1 (stageFrom r b).curNext) = .ok (i, t) →
      exec (.tcamWriteX dt r) s = .next (stageDone c r u t i [])) ∧
    (let c : Cmd := { op := 0x61, role := some 0, read := true }; let b := begun c r u
      Accepts c r u → 4 ≤ r.inLen → bits (r.w 0) 2 6 = 0 → bits (r.w 0) 22 10 = 0 →
      ∀ x, x = b.rowAt (r.w 0 % 4) (bits (r.w 0) 8 13) (if bit (r.w 0) 21 then b.curNext else b.cur) →
      (∀ e, x = some e → exec (.tcamRead dt r) s = .next (answer c r u b 0 0 (wordsBytes e.toWords))) ∧ (x = none → exec (.tcamRead dt r) s = .next (answer c r u b 0x101 0 []))) ∧
    (let c : Cmd := { op := 0x40, role := some 1 }; let b := begun c r u
      Accepts c r u → ∀ (seg m : Nat) (data : List Word) (t : State), seg = r.arg.toNat / 65536 → m = r.arg.toNat % 16 → m ≠ 0 → bits r.arg.toNat 5 11 = 0 → seg = 0 ∨ seg = (b.load.map (·.next)).getD 0 →
      data = (if seg = 0 then [] else (b.load.map (·.data)).getD []) ++ r.payload → t = { b with load := some { plMask := m, next := seg + 1, data := data } } →
      (bit r.arg.toNat 4 = false → r.inLen = 4096 → exec (.loadRecipe dt r) s = .next (answer c r u t 0 0 [])) ∧
      (bit r.arg.toNat 4 = true → r.inLen ≠ 0 → r.inLen % 4 = 0 → objOk data = true → b.batchCompatible (b.versionsWith m (objOf data)) = true → r.txn ≠ 0 ∨ b.txn = none →
        exec (.loadRecipe dt r) s = .next (waiting r
          (if r.txn = 0 then { t with txn := some { id := 0, ch := r.ch, sid := r.sid, last := b.now, own := true } } else t) (.bank m))) ∧
      (bit r.arg.toNat 4 = true → r.inLen ≠ 0 → objOk data = false → exec (.loadRecipe dt r) s = .next (answer c r u { b with load := none } 0x200 0 [])))

/-- SESSION_BEGIN, SESSION_FINISH, SESSION_CLOSE, SEC_QUOTE, SEC_CERT, SEC_EXTEND, OPERATOR_ENROL, OPERATOR_REMOVE, PROVISION, TRANSFER_OWNER, SEC_LIFECYCLE, SEC_DEBUG_CHALLENGE, SEC_DEBUG_UNLOCK,
FW_UPDATE, FW_UPDATE with TRIAL, FW_COMMIT, MACSEC_CAK_INSTALL, GKEY_CONFIG, SEC_POLICY and its read complete (R643 to R645, R649, R650, R652, R654, R659, R660, R662, R664, R671): each with its effect for every accepted request and the statuses of
Table 15-10 and R658. -/
def Obligations.SecurityCommandsAct : Prop :=
  ∀ (dt : Nat) (r : Req) (s u : State), u = s.advance dt →
    (let c : Cmd := { op := 0x100, role := none, fn := some 1 }; let b := begun c r u
      Accepts c r u →
      (b.power = 3 ∨ b.sec.lifecycle = 3 → exec (.sessionBegin dt r) s = .next (answer c r u b 0xA09 0 [])) ∧
      (b.power ≠ 3 → b.sec.lifecycle ≠ 3 → r.w 0 ≤ 15 → 92 ≤ r.inLen → (sfind b.sec.operators (r.w 0)).isSome = true → b.now < sget b.sec.lockout 0 (r.w 0) →
        exec (.sessionBegin dt r) s = .next (answer c r u b 0xA08 0 [])) ∧
      (∀ nd x v (b1 b2 b3 : State) sid t1 (o : Opening), b.power ≠ 3 → b.sec.lifecycle ≠ 3 → r.w 0 ≤ 15 → 92 ≤ r.inLen → (sfind b.sec.operators (r.w 0)).isSome = true →
        sget b.sec.lockout 0 (r.w 0) ≤ b.now → b.sec.rngFail = false → b.freshBytes 32 = (nd, b1) → b1.freshBytes 56 = (x, b2) → b2.fresh = (v, b3) → sid = newSid b3 v →
        t1 = sessionText r.ch (r.w 0) (r.item 15 32) (r.item 1 56) nd (Config.x448Public x) sid →
        o = { sid := sid, op := r.w 0, t1 := t1, sd := Config.signDik t1, xd := x, xh := r.item 1 56, at_ := b3.now } → exec (.sessionBegin dt r) s = .next (answer c r u
          { b3 with sec := { b3.sec with sessions := sdel b3.sec.sessions r.ch, opening := sset b3.sec.opening r.ch o } } 0 0
          (nd ++ Config.x448Public x ++ toLE sid 4 ++ padTo 116 (Config.signDik t1))))) ∧
    (let c : Cmd := { op := 0x101, role := none, fn := some 1 }; let b := begun c r u
      Accepts c r u → ∀ o k, sfind b.sec.opening r.ch = some o → o.sid = r.w 0 → b.now < o.at_ + 10000000000 → sfind b.sec.operators o.op = some k →
      (Config.ed448Verify k.key (o.t1 ++ o.sd) (r.item 1 114) = true → exec (.sessionFinish dt r) s = .next (answer c r u
        { b with sec := { b.sec with
          opening := sdel b.sec.opening r.ch
          sessions := sset b.sec.sessions r.ch { sid := o.sid, op := o.op, key := Config.kmac256 (Config.x448 o.xd o.xh) o.t1 32 2, last := b.now } } } 0 0 [])) ∧
      (Config.ed448Verify k.key (o.t1 ++ o.sd) (r.item 1 114) = false → exec (.sessionFinish dt r) s = .next (answer c r u (b.sessionFailed o.op) 0xA06 0 []))) ∧
    (let c : Cmd := { op := 0x102, role := some 0, read := true, fn := some 1 }; let b := begun c r u
      Accepts c r u → (b.session r.ch).isSome = true → exec (.sessionClose dt r) s = .next (answer c r u
      { b with sec := { b.sec with sessions := sdel b.sec.sessions r.ch } } 0 0 [])) ∧
    (let c : Cmd := { op := 0x103, role := none, fn := some 1 }; let b := begun c r u
      Accepts c r u → b.sec.lifecycle ≠ 3 → 36 ≤ r.inLen → r.w 8 < 65536 → ∀ q, q = quoteBytes b (r.item 0 32) (r.w 8) →
      exec (.secQuote dt r) s = .next (answer c r u b 0 0 (q ++ padTo 116 (Config.signDik q)))) ∧
    (let c : Cmd := { op := 0x104, role := none, fn := some 1 }; let b := begun c r u
      Accepts c r u → b.sec.lifecycle ≠ 3 → exec (.secCert dt r) s = .next (answer c r u b 0 0 Config.certificate)) ∧
    (let c : Cmd := { op := 0x105, role := some 2, fn := some 1 }; let b := begun c r u
      Accepts c r u → 8 ≤ r.w 0 → r.w 0 ≤ 15 → 72 ≤ r.inLen →
      exec (.secExtend dt r) s = .next (answer c r u (b.extend (r.w 0) (r.w 1) (r.item 2 64)) 0 0 [])) ∧
    (let c : Cmd := { op := 0x106, role := some 2, fn := some 1 }; let b := begun c r u
      Accepts c r u → ∀ i, ((List.range 16).find? fun i => (sfind b.sec.operators i).isNone) = some i → r.w 0 ≤ 2 → 64 ≤ r.inLen →
      exec (.operatorEnrol dt r) s = .next (answer c r u (State.extend5 { b with sec := { b.sec with
        operators := sset b.sec.operators i { key := r.item 1 57, role := r.w 0 } } }) 0 i [])) ∧
    (let c : Cmd := { op := 0x107, role := some 2, fn := some 1 }; let b := begun c r u
      Accepts c r u → ∀ k, sfind b.sec.operators (r.w 0) = some k →
      (k.role = 2 → (b.sec.operators.filter fun e => e.2.role == 2).length ≤ 1 → exec (.operatorRemove dt r) s = .next (answer c r u b 0xA03 0 [])) ∧
      (k.role ≠ 2 → exec (.operatorRemove dt r) s = .next (answer c r u (State.extend5 { b with sec := { b.sec with
        operators := sdel b.sec.operators (r.w 0)
        sessions := b.sec.sessions.filter fun e => e.2.op != r.w 0
        opening := b.sec.opening.filter fun e => e.2.op != r.w 0 } }) 0 0 []))) ∧
    (let c : Cmd := { op := 0x108, role := some 2, fn := some 1 }; let b := begun c r u
      Accepts c r u → b.fuseOk = true →
      (b.sec.lifecycle = 0 → 120 ≤ r.inLen → exec (.provision dt r) s = .next (answer c r u (State.extend5 { b with sec := closeSessions { b.sec with
        ownerRoot := r.item 0 57
        policy := 900
        lifecycle := 1
        operators := sset [] 0 (Operator.mk (r.item 15 57) 2) } }) 0 0 [])) ∧
      (1 < b.sec.lifecycle → exec (.provision dt r) s = .next (answer c r u b 0xA09 0 []))) ∧
    (let c : Cmd := { op := 0x109, role := some 2, fn := some 1 }; let b := begun c r u
      Accepts c r u → b.sec.lifecycle = 2 → b.fuseOk = true → 236 ≤ r.inLen →
      (Config.ed448Verify b.sec.ownerRoot (payBytes r.payload 0 120) (r.item 30 114) = false → exec (.transferOwner dt r) s = .next (answer c r u b 0xA06 0 [])) ∧
      (Config.ed448Verify b.sec.ownerRoot (payBytes r.payload 0 120) (r.item 30 114) = true → exec (.transferOwner dt r) s = .next (answer c r u
        (State.extend5 { b with sec := closeSessions { ownerGone b.sec with
          ownerRoot := r.item 0 57
          operators := sset [] 0 (Operator.mk (r.item 15 57) 2)
          ownerEpoch := (b.sec.ownerEpoch + 1) % 65536 } }) 0 0 []))) ∧
    (let c : Cmd := { op := 0x10A, role := some 2, fn := some 1 }; let b := begun c r u
      Accepts c r u → b.fuseOk = true →
      (r.w 0 = 2 → b.sec.lifecycle = 1 → exec (.secLifecycle dt r) s = .next (answer c r u (State.extend5 { b with sec := closeSessions { b.sec with lifecycle := 2 } }) 0 0 [])) ∧
      (r.w 0 = 3 → b.sec.lifecycle ≠ 3 → exec (.secLifecycle dt r) s = .next (answer c r u
        (State.extend5 { b with sec := closeSessions { ownerGone b.sec with lifecycle := 3, udsKill := true } }) 0 0 []))) ∧
    (let c : Cmd := { op := 0x10B, role := none, fn := some 1 }; let b := begun c r u
      Accepts c r u → r.w 0 = 1 ∨ r.w 0 = 2 → b.sec.rngFail = false → ∀ ch t, b.challenge (r.w 0) = (ch, t) →
      exec (.secDebugChallenge dt r) s = .next (answer c r u t 0 0 ch)) ∧
    (let c : Cmd := { op := 0x10C, role := none, fn := some 1 }; let b := begun c r u
      Accepts c r u → ∀ st t, b.unlock (r.item 0 114) (r.item 29 114) = (st, t) → exec (.secDebugUnlock dt r) s = .next (answer c r u t st 0 [])) ∧
    (let c : Cmd := { op := 0x10D, role := some 2, fn := some 1 }; let b := begun c r u
      Accepts c r u → ∀ st t, b.updateB r = (st, t) → exec (.fwUpdate dt r) s = .next (answer c r u t st 0 []) ∧
      (st ≠ 0 → exec (.fwTrial dt r) s = .next (answer c r u t st 0 [])) ∧
      (st = 0 → exec (.fwTrial dt r) s = .next (State.settle ((t.complete r ((fetched r u).cplKey c r) 0 0 []).warmReset 3 true)))) ∧
    (let c : Cmd := { op := 0x10E, role := some 2, fn := some 1 }; let b := begun c r u
      Accepts c r u → ∀ (v : State) (i : Image), b.fld F.SEC_BOOT.BOOTED 0 = 1 → b.fuseOk = true → b.sec.slotB = some i →
      v = { b with sec := { b.sec with slotA := some i } } → verifySlot v.sec (some i) = 1 → exec (.fwCommit dt r) s = .next (answer c r u { v with sec := { v.sec with
        svnFloor := max v.sec.svnFloor ((v.sec.running.map (·.svn)).getD i.svn)
        revoked := v.sec.revoked ||| (i.revoke % 2 ^ i.keyIndex) } } 0 0 [])) ∧
    (let c : Cmd := { op := 0x10F, role := some 2, fn := some 1 }; let b := begun c r u
      Accepts c r u → b.sec.debug ≠ 1 → r.w 0 ≤ 63 → 68 ≤ r.inLen → exec (.macsecCakInstall dt r) s = .next (answer c r u
      { b with sec := { b.sec with caks := sset b.sec.caks (r.w 0) (r.item 1 32, r.item 9 32) } } 0 0 [])) ∧
    (let c : Cmd := { op := 0x110, role := some 2, fn := some 1 }; let b := begun c r u
      Accepts c r u → b.sec.debug ≠ 1 → r.w 0 ≤ 255 → 1 ≤ r.w 1 → r.w 1 ≤ 5 → 56 ≤ r.inLen → exec (.gkeyConfig dt r) s = .next (answer c r u
      { b with sec := { b.sec with
        gkeys := sset b.sec.gkeys (r.w 0) (addGKey (sget b.sec.gkeys [] (r.w 0)) (GKey.mk (r.w 1) (wNat r.payload 2 2) (wNat r.payload 4 2) (r.item 6 32))) } } 0 0 [])) ∧
    (let c : Cmd := { op := 0x111, role := some 2, fn := some 1 }; let b := begun c r u
      Accepts c r u → 4 ≤ r.inLen → r.w 0 < 262144 → exec (.secPolicy dt r) s = .next (answer c r u
      { b with sec := { b.sec with policy := r.w 0 } } 0 0 [])) ∧
    (let c : Cmd := { op := 0x111, role := some 0, read := true, fn := some 1 }; let b := begun c r u
      Accepts c r u → exec (.secPolicyRead dt r) s = .next (answer c r u b 0 b.sec.policy (toLE b.sec.policy 4)))

/-- REG_READ, REG_WRITE, MEM_READ, MEM_WRITE, BUF_ALLOC, BUF_FREE and BUF_UNQUARANTINE complete (R328, R693, R698, R701, R716): registers are read and written in order, staging their CMT
fields; a memory write stores its bytes and no others; an access into a domain whose clock is stopped is undefined behaviour and hangs its channel; a buffer is taken from its pool and goes back. -/
def Obligations.ExpertAccessesAct : Prop :=
  ∀ (dt : Nat) (r : Req) (s u : State), u = s.advance dt →
    (let c : Cmd := { op := 0x8000, role := some 2, read := true, expert := true }; let b := begun c r u
      Accepts c r u → ∀ (a : RegAddr) (l : List RegAddr), l = RegAddr.run (r.w 0) a → 1 ≤ r.w 0 → r.w 0 ≤ 1024 → 4 ≤ r.inLen →
      (l.all RegAddr.isOpen = false → exec (.regRead dt a r) s = .next (answer c r u b 5 0 [])) ∧
      (∀ v t, l.all RegAddr.isOpen = true → l.find? b.addrStopped = none → b.readRun l = (v, t) →
        exec (.regRead dt a r) s = .next (answer c r u t 0 0 (wordsBytes v))) ∧
      (∀ x, l.all RegAddr.isOpen = true → l.find? b.addrStopped = some x →
        exec (.regRead dt a r) s = .next (waiting r (b.undefined .stoppedClock) (.clock x)))) ∧
    (∀ (a : RegAddr), let c : Cmd := { op := 0x8001, role := some 2, expert := true, reset := a.isReset r.payload.length }; let b := begun c r u
      Accepts c r u → ∀ (l : List RegAddr), l = RegAddr.run r.payload.length a → 1 ≤ r.payload.length → r.payload.length ≤ 1024 →
      l.all RegAddr.isOpen = true →
      (l.find? b.addrStopped = none → (l.any fun a => a.held.isNone && (a.reg.masks a.word).cmt != 0) = false →
        exec (.regWrite dt a r) s = .next (answer c r u (b.writeRun (l.zip r.payload)) 0 0 [])) ∧
      (l.find? b.addrStopped = none → (l.any fun a => a.held.isNone && (a.reg.masks a.word).cmt != 0) = true → r.txn ≠ 0 ∨ b.txn = none →
        exec (.regWrite dt a r) s = .next (stageDone c r u ((stageFrom r b).writeRun (l.zip r.payload)) 0 [])) ∧
      (∀ x, l.find? b.addrStopped = some x → exec (.regWrite dt a r) s = .next (waiting r (b.undefined .stoppedClock) (.clock x)))) ∧
    (let c : Cmd := { op := 0x8002, role := some 2, read := true, expert := true }; let b := begun c r u
      Accepts c r u → ∀ (a n : Nat) (x : Option RegAddr), a = r.w 0 + 4294967296 * r.w 1 → n = r.w 2 → x = r.unit → 12 ≤ r.inLen → memArgs a n = true →
      (∀ st, b.memDenied a n = some st → exec (.memRead dt r) s = .next (answer c r u b st 0 [])) ∧
      (b.memDenied a n = none → b.memStopped a n x = none → x = none → dramSize ≤ a → exec (.memRead dt r) s = .next (answer c r u b 0 0 (memReadBytes b.sram (a - dramSize) n))) ∧
      (b.memDenied a n = none → b.memStopped a n x = none → a < dramSize → exec (.memRead dt r) s =
        .next (waiting r (b.dramAsk 3 false a n (some r.ch)) (.mem (blocksOf a n).length false (b.dramBytes a n)))) ∧
      (∀ y v t, b.memDenied a n = none → b.memStopped a n x = none → x = some y → dramSize ≤ a → b.readRun (RegAddr.run (n / 4) y) = (v, t) →
        exec (.memRead dt r) s = .next (answer c r u t 0 0 (wordsBytes v))) ∧
      (∀ y, b.memDenied a n = none → b.memStopped a n x = some y → exec (.memRead dt r) s = .next (waiting r (b.undefined .stoppedClock) (.clock y)))) ∧
    (let c : Cmd := { op := 0x8003, role := some 2, expert := true }; let b := begun c r u
      Accepts c r u → ∀ (a n : Nat) (p : Bytes) (x : Option RegAddr), a = r.w 0 + 4294967296 * r.w 1 → n = r.w 2 → x = r.unit → p = payBytes r.payload 3 n → 12 + n ≤ r.inLen →
      memArgs a n = true → b.memDenied a n = none →
      (b.memStopped a n x = none → x = none ∨ a < dramSize → ∃ t : State, exec (.memWrite dt r) s = .next (answer c r u t 0 0 []) ∧ (MemOk b → MemOk t) ∧
        (dramSize ≤ a → t.dram = b.dram ∧ (∀ x, x < a - dramSize ∨ a - dramSize + p.length ≤ x → memRead t.sram x = memRead b.sram x) ∧
          (∀ i, i < p.length → memRead t.sram (a - dramSize + i) = p.getD i 0)) ∧
        (a < dramSize → t.sram = b.sram ∧ (∀ x, x < a ∨ a + p.length ≤ x → memRead t.dram x = memRead b.dram x) ∧
          (∀ i, i < p.length → memRead t.dram (a + i) = p.getD i 0))) ∧
      (∀ y, b.memStopped a n x = none → x = some y → dramSize ≤ a →
        exec (.memWrite dt r) s = .next (answer c r u (b.writeRun ((RegAddr.run (n / 4) y).zip (r.payload.drop 3))) 0 0 [])) ∧
      (∀ y, b.memStopped a n x = some y → exec (.memWrite dt r) s = .next (waiting r (b.undefined .stoppedClock) (.clock y)))) ∧
    (let c : Cmd := { op := 0x8030, role := some 2, expert := true }; let b := begun c r u
      Accepts c r u → r.arg.toNat < 4 →
      (b.allocFor 45 5 r.arg.toNat = none → exec (.bufAlloc dt r) s = .next (answer c r u b 0x402 0 [])) ∧
      (∀ q id t, b.allocFor 45 5 r.arg.toNat = some (q, id, t) → exec (.bufAlloc dt r) s = .next (answer c r u t 0 id []))) ∧
    (let c : Cmd := { op := 0x8031, role := some 2, expert := true }; let b := begun c r u
      Accepts c r u → ∀ id, id = r.arg.toNat → id < 1048576 → id % 262144 < b.poolCount (id / 262144) →
      (b.flag F.BUF_CTL.OWNER_CHECK 0 = true ∨ sfind b.bufs id = none → exec (.bufFree dt r) s = .next (answer c r u (b.freeBuf id 5) 0 0 [])) ∧
      (∀ o n, b.flag F.BUF_CTL.OWNER_CHECK 0 = false → sfind b.bufs id = some (o, n) → o ≠ 5 →
        exec (.bufFree dt r) s = .next (answer c r u ((b.undefined .foreignFree).freeBuf id 5) 0 0 []))) ∧
    (let c : Cmd := { op := 0x83, role := some 1 }; let b := begun c r u
      Accepts c r u → (b.quar.contains r.arg.toNat = true →
        exec (.bufUnquarantine dt r) s = .next (answer c r u { b.drop1 .BUF_QUARANTINE (r.arg.toNat / 262144) with quar := del b.quar r.arg.toNat } 0 0 [])) ∧
      (b.quar.contains r.arg.toNat = false → exec (.bufUnquarantine dt r) s = .next (answer c r u b 2 0 [])))

/-! ## The whole machine -/

/-- A step takes the command at the front of the queue and answers its effect on the rest; with no command waiting the block idles (a DESIGN CHOICE, log 1). -/
def Obligations.StepTakesTheFrontCommand : Prop :=
  (∀ (s : State) (c : Instr), step { s with pending := c :: s.pending } = exec c s) ∧ (∀ s : State, s.pending = [] → step s = .next s)

/-- After reset no command waits, every register reads its reset value (those of log 1 to 12 among them are the model's own), every counter is 0, no READY bit and no fault bit is set, no mailbox
channel is enabled, memory lists nothing and no line waits. -/
def Obligations.ResetLeavesTheModuleIdle : Prop :=
  State.reset.pending = [] ∧ Latched State.reset ∧ MemOk State.reset ∧ (∀ r i k, State.reset.reg r i k = r.resetNat i k % 4294967296) ∧
  (∀ c i, State.reset.ctr c i = 0) ∧ (∀ b, State.reset.ready b = false) ∧ State.reset.faultWord = 0 ∧ (∀ ch, State.reset.mbxEn ch = false) ∧
  State.reset.frames = [] ∧ State.reset.txn = none ∧ State.reset.pwr.on = true ∧ State.reset.flt.safe = false

/-- Time passes only with a command (R12, R13): now moves on by dt; the queue, the channels, the security domain and the transaction are as they were, undefined behaviour or not. With none, the clock, the
frames and the raised lines follow time alone, and without a whole core cycle nothing but the clock follows. -/
def Obligations.TimePassesWithACommand : Prop :=
  ∀ (s u : State) (dt : Nat), u = s.advance dt → u.now = s.now + dt ∧ u.pending = s.pending ∧ u.mbx = s.mbx ∧ u.sec = s.sec ∧ u.txn = s.txn ∧
    (s.undef = [] → s.phxWild = false ∨ s.flag F.TIME_GRID_CFG.EN 0 = false → u.clock = clockAfter s dt ∧ u.frames = s.frames ∧ u.flt.raised = s.flt.raised ∧
      (coreCycles (s.now + dt) = coreCycles s.now → s.perfSkid = [] → u = { s with now := s.now + dt, clock := clockAfter s dt }))

/-- What ends a step: with no line raised, no batch configuration waiting and no latency budget granted nothing changes; a line already latched sets nothing; no raised line is left. -/
def Obligations.SettleLatchesRaisedLines : Prop :=
  (∀ s : State, s.flt.raised = [] → s.batch.whole = false ∨ s.batch.staged.isSome = true ∨ s.batch.noReport = true ∨ s.txn.isSome = true →
    s.pwr.okAt = [] → (∀ f, s.fld F.PWR_BUDGET.BUDGET_US f = 0) → s.settle = s) ∧
  (∀ (s : State) i, bit s.faultWord i = true → s.latch i = s) ∧ (∀ s : State, Latched s.settle)

/-- R761: no raised line outlives the step that raised it. From every state with no line waiting, a step that answers a next state leaves none. -/
def Obligations.EveryStepLatchesItsLines : Prop :=
  ∀ s t : State, Latched s → step s = .next t → Latched t

/-- No command is ever refused and none stops: from every state each answers a next state, in which every line it raised is latched. -/
def Obligations.CommandsAnswerSettledStates : Prop :=
  ∀ (c : Instr) (s : State), ∃ t : State, exec c s = .next t.settle ∧ Latched t.settle

/-- R685: a command is started only when its completion ring holds a free slot, and while the ring is full the channel waits: whatever the mailbox command, the request stays where it is and nothing
but time has passed. -/
def Obligations.FullCompletionRingMakesTheChannelWait : Prop :=
  ∀ (i : Instr) (c : Cmd) (dt : Nat) (r : Req) (s u : State), mailboxRow i = some (c, dt, r) → u = s.advance dt →
    2 ^ u.cplLog r.ch ≤ serial (u.chan r.ch).cplCi (u.cplPi r.ch) 16 → exec i s = .next u.settle

/-- R691: the checks of a request in their order, for every mailbox command: the opcode, then the level, then the session, then the pointers, then the transaction; the first that fails completes it and no later one is
looked at. A completion of a command whose tag was not verified carries no tag. -/
def Obligations.RequestsAreCheckedInOrder : Prop :=
  ∀ (i : Instr) (c : Cmd) (dt : Nat) (r : Req) (s u f a : State), mailboxRow i = some (c, dt, r) → i ≠ .fwTrial dt r → u = s.advance dt → u.canBegin r.ch = true → r.pcie ≠ .fetch → f = fetched r u →
    a = f.acceptCmd c r →
    (r.opcode ≠ none → exec i s = .next (State.settle (f.complete r none 1 0 []))) ∧
    (r.opcode = none →
    (f.levelOk c r = false → exec i s = .next (State.settle (f.complete r none 5 0 []))) ∧
    (∀ st v, f.levelOk c r = true → f.sessionCheck c r = some (st, v) → exec i s = .next (State.settle (f.complete r (if v then f.cplKey c r else none) st 0 []))) ∧
    (f.levelOk c r = true → f.sessionCheck c r = none → ptrBad r = true → exec i s = .next (State.settle (a.complete r (f.cplKey c r) 3 0 []))) ∧
    (∀ st b, f.levelOk c r = true → f.sessionCheck c r = none → ptrBad r = false → a.txnCheck r = (some st, b) → exec i s = .next (State.settle (b.complete r (f.cplKey c r) st 0 []))))

/-- R688 and R689: a completion takes the slot at CPL_PI with its phase, status, cookie, RESULT and output, CPL_PI moves on by one, and the channel is free for its next request. -/
def Obligations.CompletionsTakeTheNextSlot : Prop :=
  ∀ (t v : State) (r : Req) (key : Option Bytes) (st result : Nat) (out : Bytes), r.pcie ≠ .completion → v = t.complete r key st result out →
    (∃ x : Cpl, v.cpls = t.cpls ++ [(r.ch, x)] ∧ x.index = t.cplPi r.ch ∧ x.phase = ((t.cplPi r.ch >>> t.cplLog r.ch) % 2 == 0) ∧ x.status = st ∧ x.cookie = r.cookie ∧
      x.result = result % 4294967296 ∧ x.out = out.take r.outLen ∧ (key = none → x.tag = [])) ∧
    v.regs = (t.setFld F.MBX_RING.CPL_PI r.ch ((t.cplPi r.ch + 1) % 65536)).regs ∧ v.mbx = sput t.mbx {} r.ch { t.chan r.ch with busy := none }

/-- R682: a doorbell whose PI lies more than 2^REQ_LOG2 ahead of REQ_CI, or a CI that lies behind the last CI or ahead of CPL_PI, sets ERROR with cause 1. -/
def Obligations.DoorbellsTooFarSetError : Prop :=
  ∀ (dt : Nat) (ch : Fin 16) (n : BitVec 16) (s u : State), u = s.advance dt → u.mbxEn ch = true → (u.mbxError ch 1).reg .MBX_RING ch 6 = 3 ∧
    (2 ^ u.reqLog ch < serial (u.reqCi ch) n.toNat 16 → exec (.mbxReqDb dt ch n) s = .next (State.settle (u.mbxError ch 1))) ∧
    (serial (u.chan ch).cplCi (u.cplPi ch) 16 < serial (u.chan ch).cplCi n.toNat 16 → exec (.mbxCplDb dt ch n) s = .next (State.settle (u.mbxError ch 1)))

/-- R787: a read of CLAIM returns, with VALID set, the deliverable source of the highest PRIO, the lowest number among equals, clears its pending bit, makes it active and sets RUNNING to its PRIO; with no
source deliverable it returns 0 and changes nothing. -/
def Obligations.ClaimTakesTheHighestPriority : Prop :=
  ∀ (dt : Nat) (t : Fin 5) (s u : State), u = s.advance dt →
    ((∀ j, u.irqDeliverable t j = false) → exec (.irqClaim dt t) s = .next (State.settle { u with rd := [w32 0] })) ∧
    (∀ i, i < 1024 → u.irqDeliverable t i = true → (∀ j, u.irqDeliverable t j = true → u.irqPrio j < u.irqPrio i ∨ (u.irqPrio j = u.irqPrio i ∧ i ≤ j)) →
      ∃ v w : State, exec (.irqClaim dt t) s = .next (State.settle { v with rd := [w32 (i + 2147483648)] }) ∧ v = (w.perfEv 16 1 0 0 0 0 0).irqSettle ∧
        w.irq.pend = del u.irq.pend i ∧ w.irqActive i = true ∧ w.irqRunning t = u.irqPrio i)

end
end

