-- ==== Sys2Proof/Laws/Store.lean ====
section
/-! SUPPORT. Laws of the sparse stores and of memory: read after write, and that every operation keeps the canonical form. -/
namespace Sys2Proof.Machine

variable {α : Type}

/-- Reading the index just set. -/
@[simp] theorem sfind_sset_self (m : Sparse α) (i : Nat) (x : α) : sfind (sset m i x) i = some x := by
  induction m with
  | nil => simp [sset, sfind]
  | cons e t ih =>
    obtain ⟨k, v⟩ := e
    simp only [sset]
    split
    · simp [sfind]
    · split
      · simp [sfind]
      · simp [sfind, *]

/-- Setting one index leaves every other. -/
theorem sfind_sset_ne (m : Sparse α) (i j : Nat) (x : α) (h : j ≠ i) : sfind (sset m i x) j = sfind m j := by
  induction m with
  | nil => simp [sset, sfind, h]
  | cons e t ih =>
    obtain ⟨k, v⟩ := e
    simp only [sset]
    split
    · subst_vars; simp [sfind, h]
    · split
      · simp only [sfind, if_neg h]
      · simp only [sfind, ih]

/-- Setting one value at every index of a list: each index of the list holds it. -/
theorem sfind_foldl_sset (f : Nat → Nat) (v : α) (l : List Nat) (m : Sparse α) (c : Nat) (h : c ∈ l ∨ sfind m (f c) = some v) :
    sfind (l.foldl (fun m c => sset m (f c) v) m) (f c) = some v := by
  induction l generalizing m with
  | nil => simpa using h
  | cons a l ih =>
    refine ih _ ?_
    by_cases e : f c = f a
    · right; rw [e]; exact sfind_sset_self _ _ _
    · rw [sfind_sset_ne _ _ _ _ e]
      rcases h with h | h
      · rcases List.mem_cons.mp h with rfl | h
        · exact absurd rfl e
        · exact .inl h
      · exact .inr h

/-- A rising store that begins above an index does not hold it. -/
theorem sfind_of_rising (m : Sparse α) (b i : Nat) (h : risingFrom b m = true) (hi : i < b) : sfind m i = none := by
  induction m generalizing b with
  | nil => rfl
  | cons e t ih =>
    obtain ⟨k, v⟩ := e
    simp only [risingFrom, Bool.and_eq_true, decide_eq_true_eq] at h
    have : i ≠ k := by omega
    simp only [sfind, if_neg this]
    exact ih (k + 1) h.2 (by omega)

/-- A lower bound may be lowered. -/
theorem risingFrom_mono (m : Sparse α) (b c : Nat) (h : risingFrom b m = true) (hc : c ≤ b) : risingFrom c m = true := by
  cases m with
  | nil => rfl
  | cons e t =>
    obtain ⟨k, v⟩ := e
    simp only [risingFrom, Bool.and_eq_true, decide_eq_true_eq] at h ⊢
    exact ⟨by omega, h.2⟩

/-- Setting an index keeps the keys rising. -/
theorem risingFrom_sset (m : Sparse α) (b i : Nat) (x : α) (h : risingFrom b m = true) (hb : b ≤ i) :
    risingFrom b (sset m i x) = true := by
  induction m generalizing b with
  | nil => simp [sset, risingFrom, hb]
  | cons e t ih =>
    obtain ⟨k, v⟩ := e
    simp only [risingFrom, Bool.and_eq_true, decide_eq_true_eq] at h
    simp only [sset]
    split
    · subst_vars; simp [risingFrom, hb, h.2]
    · split
      · have : i + 1 ≤ k := by omega
        simp [risingFrom, hb, this, h.2]
      · have : k + 1 ≤ i := by omega
        simp [risingFrom, h.1, ih (k + 1) h.2 this]

/-- Removing an index keeps the keys rising. -/
theorem risingFrom_sdel (m : Sparse α) (b i : Nat) (h : risingFrom b m = true) : risingFrom b (sdel m i) = true := by
  induction m generalizing b with
  | nil => rfl
  | cons e t ih =>
    obtain ⟨k, v⟩ := e
    simp only [risingFrom, Bool.and_eq_true, decide_eq_true_eq] at h
    simp only [sdel]
    split
    · exact risingFrom_mono _ (k + 1) b (ih (k + 1) h.2) (by omega)
    · simp [risingFrom, h.1, ih (k + 1) h.2]

/-- A removed index reads as absent. -/
@[simp] theorem sfind_sdel_self (m : Sparse α) (i : Nat) : sfind (sdel m i) i = none := by
  induction m with
  | nil => rfl
  | cons e t ih =>
    simp only [sdel]
    split
    · exact ih
    · simp only [sfind, ih]
      simp [*]

/-- Removing one index leaves every other. -/
theorem sfind_sdel_ne (m : Sparse α) (i j : Nat) (hij : j ≠ i) : sfind (sdel m i) j = sfind m j := by
  induction m with
  | nil => rfl
  | cons e t ih =>
    obtain ⟨k, v⟩ := e
    simp only [sdel]
    split
    · rename_i hik
      rw [ih, sfind, if_neg (by omega)]
    · simp only [sfind, ih]

/-- Entries of a store after a write: the one written, or old ones. -/
theorem mem_sset (m : Sparse α) (i : Nat) (x : α) (e : Nat × α) (h : e ∈ sset m i x) : e = (i, x) ∨ e ∈ m := by
  induction m with
  | nil => simpa [sset] using h
  | cons a t ih =>
    obtain ⟨k, v⟩ := a
    simp only [sset] at h
    split at h
    · rcases List.mem_cons.1 h with h | h
      · exact .inl h
      · exact .inr (List.mem_cons_of_mem _ h)
    · split at h
      · rcases List.mem_cons.1 h with h | h
        · exact .inl h
        · exact .inr h
      · rcases List.mem_cons.1 h with h | h
        · exact .inr (by rw [h]; exact List.mem_cons_self)
        · exact (ih h).imp id (List.mem_cons_of_mem _)

/-- Entries of a store after a removal are old ones. -/
theorem mem_sdel (m : Sparse α) (i : Nat) (e : Nat × α) (h : e ∈ sdel m i) : e ∈ m := by
  induction m with
  | nil => simp [sdel] at h
  | cons a t ih =>
    simp only [sdel] at h
    split at h
    · exact List.mem_cons_of_mem _ (ih h)
    · rcases List.mem_cons.1 h with h | h
      · rw [h]; exact List.mem_cons_self
      · exact List.mem_cons_of_mem _ (ih h)

/-- A write of a store with a default keeps its canonical form. -/
theorem storeWf_sput [DecidableEq α] (d : Nat → α) (m : Sparse α) (i : Nat) (x : α) (h : storeWf d m = true) :
    storeWf d (sput m (d i) i x) = true := by
  simp only [storeWf, Bool.and_eq_true, List.all_eq_true, decide_eq_true_eq] at h ⊢
  unfold sput
  split
  · exact ⟨risingFrom_sdel m 0 i h.1, fun e he => h.2 e (mem_sdel m i e he)⟩
  · refine ⟨risingFrom_sset m 0 i x h.1 (Nat.zero_le i), fun e he => ?_⟩
    rcases mem_sset m i x e he with he | he
    · subst he; assumption
    · exact h.2 e he

/-- Reading the index just written. -/
@[simp] theorem sget_sput_self [DecidableEq α] (m : Sparse α) (d : α) (i : Nat) (x : α) : sget (sput m d i x) d i = x := by
  unfold sput
  split <;> simp [sget, *]

/-- A write leaves every other index. -/
theorem sget_sput_ne [DecidableEq α] (m : Sparse α) (d e : α) (i j : Nat) (x : α) (hij : j ≠ i) : sget (sput m d i x) e j = sget m e j := by
  unfold sput sget
  split
  · rw [sfind_sdel_ne m i j hij]
  · rw [sfind_sset_ne m i j x hij]

/-! ## Memory -/

/-- A byte write keeps the canonical form. -/
theorem memWrite_wf (m : List Host.Cell) (a : Nat) (b : Byte) (h : Memory.wf m = true) : Memory.wf (memWrite m a b) = true :=
  storeWf_sput (fun _ => memDefault) m a b h

/-- A write of several bytes keeps it. -/
theorem memWriteBytes_wf (m : List Host.Cell) (a : Nat) (l : Bytes) (h : Memory.wf m = true) : Memory.wf (memWriteBytes m a l) = true := by
  induction l generalizing m a with
  | nil => exact h
  | cons b t ih => exact ih (memWrite m a b) (a + 1) (memWrite_wf m a b h)

/-- A byte read after its write. -/
@[simp] theorem memRead_memWrite_self (m : List Host.Cell) (a : Nat) (b : Byte) : memRead (memWrite m a b) a = b := sget_sput_self m memDefault a b

/-- A byte write leaves every other byte. -/
theorem memRead_memWrite_ne (m : List Host.Cell) (a c : Nat) (b : Byte) (hc : c ≠ a) : memRead (memWrite m a b) c = memRead m c :=
  sget_sput_ne m memDefault memDefault a c b hc

/-- A string of bytes written leaves every other address alone. -/
theorem memRead_memWriteBytes_ne (l : Bytes) (m : List Host.Cell) (a c : Nat) (hc : c < a ∨ a + l.length ≤ c) :
    memRead (memWriteBytes m a l) c = memRead m c := by
  induction l generalizing m a with
  | nil => rfl
  | cons b t ih =>
    simp only [List.length_cons] at hc
    rw [memWriteBytes, ih _ _ (by omega), memRead_memWrite_ne m a c b (by omega)]

/-- A string of bytes written reads back. -/
theorem memRead_memWriteBytes_in (l : Bytes) (m : List Host.Cell) (a i : Nat) (hi : i < l.length) :
    memRead (memWriteBytes m a l) (a + i) = l.getD i 0 := by
  induction l generalizing m a i with
  | nil => simp at hi
  | cons b t ih =>
    cases i with
    | zero =>
      rw [memWriteBytes, memRead_memWriteBytes_ne t _ _ _ (by omega)]
      simp
    | succ n =>
      have := ih (memWrite m a b) (a + 1) n (by simpa using hi)
      rw [memWriteBytes, show a + (n + 1) = a + 1 + n by omega, this]
      simp

/-- The memories after reset are canonical. -/
theorem reset_mem_wf : Memory.wf State.reset.dram = true ∧ Memory.wf State.reset.sram = true := ⟨rfl, rfl⟩

end Sys2Proof.Machine
end

