-- ==== Sys2Proof/Laws/State.lean ====
section
/-! SUPPORT. One lemma for each field and each basic update of the state: what a register write, a counter, a staged value and a raised
line leave alone; and reading a register after its write. -/
namespace Sys2Proof.Machine

/-! ## setReg changes regs alone -/

@[simp] theorem State.setReg_pending (s : State) (r : Reg) (i k v : Nat) : (s.setReg r i k v).pending = s.pending := rfl
@[simp] theorem State.setReg_free (s : State) (r : Reg) (i k v : Nat) : (s.setReg r i k v).free = s.free := rfl
@[simp] theorem State.setReg_undef (s : State) (r : Reg) (i k v : Nat) : (s.setReg r i k v).undef = s.undef := rfl
@[simp] theorem State.setReg_rd (s : State) (r : Reg) (i k v : Nat) : (s.setReg r i k v).rd = s.rd := rfl
@[simp] theorem State.setReg_now (s : State) (r : Reg) (i k v : Nat) : (s.setReg r i k v).now = s.now := rfl
@[simp] theorem State.setReg_cmt (s : State) (r : Reg) (i k v : Nat) : (s.setReg r i k v).cmt = s.cmt := rfl
@[simp] theorem State.setReg_ctrs (s : State) (r : Reg) (i k v : Nat) : (s.setReg r i k v).ctrs = s.ctrs := rfl
@[simp] theorem State.setReg_ver (s : State) (r : Reg) (i k v : Nat) : (s.setReg r i k v).ver = s.ver := rfl
@[simp] theorem State.setReg_ports (s : State) (r : Reg) (i k v : Nat) : (s.setReg r i k v).ports = s.ports := rfl
@[simp] theorem State.setReg_pfcPause (s : State) (r : Reg) (i k v : Nat) : (s.setReg r i k v).pfcPause = s.pfcPause := rfl
@[simp] theorem State.setReg_pfcSent (s : State) (r : Reg) (i k v : Nat) : (s.setReg r i k v).pfcSent = s.pfcSent := rfl
@[simp] theorem State.setReg_frames (s : State) (r : Reg) (i k v : Nat) : (s.setReg r i k v).frames = s.frames := rfl
@[simp] theorem State.setReg_tails (s : State) (r : Reg) (i k v : Nat) : (s.setReg r i k v).tails = s.tails := rfl
@[simp] theorem State.setReg_nextFrame (s : State) (r : Reg) (i k v : Nat) : (s.setReg r i k v).nextFrame = s.nextFrame := rfl
@[simp] theorem State.setReg_nextHead (s : State) (r : Reg) (i k v : Nat) : (s.setReg r i k v).nextHead = s.nextHead := rfl
@[simp] theorem State.setReg_nextDisp (s : State) (r : Reg) (i k v : Nat) : (s.setReg r i k v).nextDisp = s.nextDisp := rfl
@[simp] theorem State.setReg_engines (s : State) (r : Reg) (i k v : Nat) : (s.setReg r i k v).engines = s.engines := rfl
@[simp] theorem State.setReg_codeLen (s : State) (r : Reg) (i k v : Nat) : (s.setReg r i k v).codeLen = s.codeLen := rfl
@[simp] theorem State.setReg_bankObj (s : State) (r : Reg) (i k v : Nat) : (s.setReg r i k v).bankObj = s.bankObj := rfl
@[simp] theorem State.setReg_codeMap (s : State) (r : Reg) (i k v : Nat) : (s.setReg r i k v).codeMap = s.codeMap := rfl
@[simp] theorem State.setReg_load (s : State) (r : Reg) (i k v : Nat) : (s.setReg r i k v).load = s.load := rfl
@[simp] theorem State.setReg_copyWin (s : State) (r : Reg) (i k v : Nat) : (s.setReg r i k v).copyWin = s.copyWin := rfl
@[simp] theorem State.setReg_sideQ (s : State) (r : Reg) (i k v : Nat) : (s.setReg r i k v).sideQ = s.sideQ := rfl
@[simp] theorem State.setReg_sideRate (s : State) (r : Reg) (i k v : Nat) : (s.setReg r i k v).sideRate = s.sideRate := rfl
@[simp] theorem State.setReg_exm (s : State) (r : Reg) (i k v : Nat) : (s.setReg r i k v).exm = s.exm := rfl
@[simp] theorem State.setReg_oldS (s : State) (r : Reg) (i k v : Nat) : (s.setReg r i k v).oldS = s.oldS := rfl
@[simp] theorem State.setReg_exmSw (s : State) (r : Reg) (i k v : Nat) : (s.setReg r i k v).exmSw = s.exmSw := rfl
@[simp] theorem State.setReg_cur (s : State) (r : Reg) (i k v : Nat) : (s.setReg r i k v).cur = s.cur := rfl
@[simp] theorem State.setReg_learnQ (s : State) (r : Reg) (i k v : Nat) : (s.setReg r i k v).learnQ = s.learnQ := rfl
@[simp] theorem State.setReg_flushQ (s : State) (r : Reg) (i k v : Nat) : (s.setReg r i k v).flushQ = s.flushQ := rfl
@[simp] theorem State.setReg_ageAt (s : State) (r : Reg) (i k v : Nat) : (s.setReg r i k v).ageAt = s.ageAt := rfl
@[simp] theorem State.setReg_rehash (s : State) (r : Reg) (i k v : Nat) : (s.setReg r i k v).rehash = s.rehash := rfl
@[simp] theorem State.setReg_lpm (s : State) (r : Reg) (i k v : Nat) : (s.setReg r i k v).lpm = s.lpm := rfl
@[simp] theorem State.setReg_tcam (s : State) (r : Reg) (i k v : Nat) : (s.setReg r i k v).tcam = s.tcam := rfl
@[simp] theorem State.setReg_tcamWin (s : State) (r : Reg) (i k v : Nat) : (s.setReg r i k v).tcamWin = s.tcamWin := rfl
@[simp] theorem State.setReg_fhLog (s : State) (r : Reg) (i k v : Nat) : (s.setReg r i k v).fhLog = s.fhLog := rfl
@[simp] theorem State.setReg_pol (s : State) (r : Reg) (i k v : Nat) : (s.setReg r i k v).pol = s.pol := rfl
@[simp] theorem State.setReg_bufs (s : State) (r : Reg) (i k v : Nat) : (s.setReg r i k v).bufs = s.bufs := rfl
@[simp] theorem State.setReg_quar (s : State) (r : Reg) (i k v : Nat) : (s.setReg r i k v).quar = s.quar := rfl
@[simp] theorem State.setReg_crcs (s : State) (r : Reg) (i k v : Nat) : (s.setReg r i k v).crcs = s.crcs := rfl
@[simp] theorem State.setReg_poolPtr (s : State) (r : Reg) (i k v : Nat) : (s.setReg r i k v).poolPtr = s.poolPtr := rfl
@[simp] theorem State.setReg_poolLow (s : State) (r : Reg) (i k v : Nat) : (s.setReg r i k v).poolLow = s.poolLow := rfl
@[simp] theorem State.setReg_capCnt (s : State) (r : Reg) (i k v : Nat) : (s.setReg r i k v).capCnt = s.capCnt := rfl
@[simp] theorem State.setReg_lookQ (s : State) (r : Reg) (i k v : Nat) : (s.setReg r i k v).lookQ = s.lookQ := rfl
@[simp] theorem State.setReg_queues (s : State) (r : Reg) (i k v : Nat) : (s.setReg r i k v).queues = s.queues := rfl
@[simp] theorem State.setReg_tx (s : State) (r : Reg) (i k v : Nat) : (s.setReg r i k v).tx = s.tx := rfl
@[simp] theorem State.setReg_sent (s : State) (r : Reg) (i k v : Nat) : (s.setReg r i k v).sent = s.sent := rfl
@[simp] theorem State.setReg_shapers (s : State) (r : Reg) (i k v : Nat) : (s.setReg r i k v).shapers = s.shapers := rfl
@[simp] theorem State.setReg_drr (s : State) (r : Reg) (i k v : Nat) : (s.setReg r i k v).drr = s.drr := rfl
@[simp] theorem State.setReg_rounds (s : State) (r : Reg) (i k v : Nat) : (s.setReg r i k v).rounds = s.rounds := rfl
@[simp] theorem State.setReg_gates (s : State) (r : Reg) (i k v : Nat) : (s.setReg r i k v).gates = s.gates := rfl
@[simp] theorem State.setReg_qtelCnt (s : State) (r : Reg) (i k v : Nat) : (s.setReg r i k v).qtelCnt = s.qtelCnt := rfl
@[simp] theorem State.setReg_txSa (s : State) (r : Reg) (i k v : Nat) : (s.setReg r i k v).txSa = s.txSa := rfl
@[simp] theorem State.setReg_rxSa (s : State) (r : Reg) (i k v : Nat) : (s.setReg r i k v).rxSa = s.rxSa := rfl
@[simp] theorem State.setReg_authBusy (s : State) (r : Reg) (i k v : Nat) : (s.setReg r i k v).authBusy = s.authBusy := rfl
@[simp] theorem State.setReg_dd (s : State) (r : Reg) (i k v : Nat) : (s.setReg r i k v).dd = s.dd := rfl
@[simp] theorem State.setReg_cmp (s : State) (r : Reg) (i k v : Nat) : (s.setReg r i k v).cmp = s.cmp := rfl
@[simp] theorem State.setReg_rcvy (s : State) (r : Reg) (i k v : Nat) : (s.setReg r i k v).rcvy = s.rcvy := rfl
@[simp] theorem State.setReg_bypAt (s : State) (r : Reg) (i k v : Nat) : (s.setReg r i k v).bypAt = s.bypAt := rfl
@[simp] theorem State.setReg_supAt (s : State) (r : Reg) (i k v : Nat) : (s.setReg r i k v).supAt = s.supAt := rfl
@[simp] theorem State.setReg_nodes (s : State) (r : Reg) (i k v : Nat) : (s.setReg r i k v).nodes = s.nodes := rfl
@[simp] theorem State.setReg_mbx (s : State) (r : Reg) (i k v : Nat) : (s.setReg r i k v).mbx = s.mbx := rfl
@[simp] theorem State.setReg_cpls (s : State) (r : Reg) (i k v : Nat) : (s.setReg r i k v).cpls = s.cpls := rfl
@[simp] theorem State.setReg_txn (s : State) (r : Reg) (i k v : Nat) : (s.setReg r i k v).txn = s.txn := rfl
@[simp] theorem State.setReg_lastTxn (s : State) (r : Reg) (i k v : Nat) : (s.setReg r i k v).lastTxn = s.lastTxn := rfl
@[simp] theorem State.setReg_lapsed (s : State) (r : Reg) (i k v : Nat) : (s.setReg r i k v).lapsed = s.lapsed := rfl
@[simp] theorem State.setReg_sec (s : State) (r : Reg) (i k v : Nat) : (s.setReg r i k v).sec = s.sec := rfl
@[simp] theorem State.setReg_pci (s : State) (r : Reg) (i k v : Nat) : (s.setReg r i k v).pci = s.pci := rfl
@[simp] theorem State.setReg_rings (s : State) (r : Reg) (i k v : Nat) : (s.setReg r i k v).rings = s.rings := rfl
@[simp] theorem State.setReg_rrRing (s : State) (r : Reg) (i k v : Nat) : (s.setReg r i k v).rrRing = s.rrRing := rfl
@[simp] theorem State.setReg_hostRx (s : State) (r : Reg) (i k v : Nat) : (s.setReg r i k v).hostRx = s.hostRx := rfl
@[simp] theorem State.setReg_p43 (s : State) (r : Reg) (i k v : Nat) : (s.setReg r i k v).p43 = s.p43 := rfl
@[simp] theorem State.setReg_i2cPtr (s : State) (r : Reg) (i k v : Nat) : (s.setReg r i k v).i2cPtr = s.i2cPtr := rfl
@[simp] theorem State.setReg_i2cAddr (s : State) (r : Reg) (i k v : Nat) : (s.setReg r i k v).i2cAddr = s.i2cAddr := rfl
@[simp] theorem State.setReg_i2cLatch (s : State) (r : Reg) (i k v : Nat) : (s.setReg r i k v).i2cLatch = s.i2cLatch := rfl
@[simp] theorem State.setReg_uart (s : State) (r : Reg) (i k v : Nat) : (s.setReg r i k v).uart = s.uart := rfl
@[simp] theorem State.setReg_dram (s : State) (r : Reg) (i k v : Nat) : (s.setReg r i k v).dram = s.dram := rfl
@[simp] theorem State.setReg_sram (s : State) (r : Reg) (i k v : Nat) : (s.setReg r i k v).sram = s.sram := rfl
@[simp] theorem State.setReg_rawW (s : State) (r : Reg) (i k v : Nat) : (s.setReg r i k v).rawW = s.rawW := rfl
@[simp] theorem State.setReg_wild (s : State) (r : Reg) (i k v : Nat) : (s.setReg r i k v).wild = s.wild := rfl
@[simp] theorem State.setReg_dramSide (s : State) (r : Reg) (i k v : Nat) : (s.setReg r i k v).dramSide = s.dramSide := rfl
@[simp] theorem State.setReg_perfSkid (s : State) (r : Reg) (i k v : Nat) : (s.setReg r i k v).perfSkid = s.perfSkid := rfl
@[simp] theorem State.setReg_pwr (s : State) (r : Reg) (i k v : Nat) : (s.setReg r i k v).pwr = s.pwr := rfl
@[simp] theorem State.setReg_pins (s : State) (r : Reg) (i k v : Nat) : (s.setReg r i k v).pins = s.pins := rfl
@[simp] theorem State.setReg_startCfg (s : State) (r : Reg) (i k v : Nat) : (s.setReg r i k v).startCfg = s.startCfg := rfl
@[simp] theorem State.setReg_tries (s : State) (r : Reg) (i k v : Nat) : (s.setReg r i k v).tries = s.tries := rfl
@[simp] theorem State.setReg_proofAt (s : State) (r : Reg) (i k v : Nat) : (s.setReg r i k v).proofAt = s.proofAt := rfl
@[simp] theorem State.setReg_flt (s : State) (r : Reg) (i k v : Nat) : (s.setReg r i k v).flt = s.flt := rfl
@[simp] theorem State.setReg_journal (s : State) (r : Reg) (i k v : Nat) : (s.setReg r i k v).journal = s.journal := rfl
@[simp] theorem State.setReg_irq (s : State) (r : Reg) (i k v : Nat) : (s.setReg r i k v).irq = s.irq := rfl
@[simp] theorem State.setReg_clock (s : State) (r : Reg) (i k v : Nat) : (s.setReg r i k v).clock = s.clock := rfl
@[simp] theorem State.setReg_gpio (s : State) (r : Reg) (i k v : Nat) : (s.setReg r i k v).gpio = s.gpio := rfl
@[simp] theorem State.setReg_phxWild (s : State) (r : Reg) (i k v : Nat) : (s.setReg r i k v).phxWild = s.phxWild := rfl
@[simp] theorem State.setReg_streams (s : State) (r : Reg) (i k v : Nat) : (s.setReg r i k v).streams = s.streams := rfl
@[simp] theorem State.setReg_harmAt (s : State) (r : Reg) (i k v : Nat) : (s.setReg r i k v).harmAt = s.harmAt := rfl
@[simp] theorem State.setReg_recs (s : State) (r : Reg) (i k v : Nat) : (s.setReg r i k v).recs = s.recs := rfl
@[simp] theorem State.setReg_recRows (s : State) (r : Reg) (i k v : Nat) : (s.setReg r i k v).recRows = s.recRows := rfl
@[simp] theorem State.setReg_pmuNext (s : State) (r : Reg) (i k v : Nat) : (s.setReg r i k v).pmuNext = s.pmuNext := rfl
@[simp] theorem State.setReg_pmuDue (s : State) (r : Reg) (i k v : Nat) : (s.setReg r i k v).pmuDue = s.pmuDue := rfl
@[simp] theorem State.setReg_pmuChg (s : State) (r : Reg) (i k v : Nat) : (s.setReg r i k v).pmuChg = s.pmuChg := rfl
@[simp] theorem State.setReg_pmuSrv (s : State) (r : Reg) (i k v : Nat) : (s.setReg r i k v).pmuSrv = s.pmuSrv := rfl
@[simp] theorem State.setReg_pmuConn (s : State) (r : Reg) (i k v : Nat) : (s.setReg r i k v).pmuConn = s.pmuConn := rfl
@[simp] theorem State.setReg_pmuTx (s : State) (r : Reg) (i k v : Nat) : (s.setReg r i k v).pmuTx = s.pmuTx := rfl
@[simp] theorem State.setReg_subs (s : State) (r : Reg) (i k v : Nat) : (s.setReg r i k v).subs = s.subs := rfl
@[simp] theorem State.setReg_conds (s : State) (r : Reg) (i k v : Nat) : (s.setReg r i k v).conds = s.conds := rfl
@[simp] theorem State.setReg_acts (s : State) (r : Reg) (i k v : Nat) : (s.setReg r i k v).acts = s.acts := rfl
@[simp] theorem State.setReg_gpub (s : State) (r : Reg) (i k v : Nat) : (s.setReg r i k v).gpub = s.gpub := rfl
@[simp] theorem State.setReg_evtQ (s : State) (r : Reg) (i k v : Nat) : (s.setReg r i k v).evtQ = s.evtQ := rfl
@[simp] theorem State.setReg_evtLog (s : State) (r : Reg) (i k v : Nat) : (s.setReg r i k v).evtLog = s.evtLog := rfl
@[simp] theorem State.setReg_fswQ (s : State) (r : Reg) (i k v : Nat) : (s.setReg r i k v).fswQ = s.fswQ := rfl
@[simp] theorem State.setReg_links (s : State) (r : Reg) (i k v : Nat) : (s.setReg r i k v).links = s.links := rfl
@[simp] theorem State.setReg_voq (s : State) (r : Reg) (i k v : Nat) : (s.setReg r i k v).voq = s.voq := rfl
@[simp] theorem State.setReg_cgReq (s : State) (r : Reg) (i k v : Nat) : (s.setReg r i k v).cgReq = s.cgReq := rfl
@[simp] theorem State.setReg_cgNext (s : State) (r : Reg) (i k v : Nat) : (s.setReg r i k v).cgNext = s.cgNext := rfl
@[simp] theorem State.setReg_cgAt (s : State) (r : Reg) (i k v : Nat) : (s.setReg r i k v).cgAt = s.cgAt := rfl
@[simp] theorem State.setReg_batch (s : State) (r : Reg) (i k v : Nat) : (s.setReg r i k v).batch = s.batch := rfl
@[simp] theorem State.setReg_peers (s : State) (r : Reg) (i k v : Nat) : (s.setReg r i k v).peers = s.peers := rfl
@[simp] theorem State.setReg_fdbTime (s : State) (r : Reg) (i k v : Nat) : (s.setReg r i k v).fdbTime = s.fdbTime := rfl
@[simp] theorem State.setReg_dramCh (s : State) (r : Reg) (i k v : Nat) : (s.setReg r i k v).dramCh = s.dramCh := rfl
@[simp] theorem State.setReg_pairs (s : State) (r : Reg) (i k v : Nat) : (s.setReg r i k v).pairs = s.pairs := rfl
@[simp] theorem State.setReg_pairBad (s : State) (r : Reg) (i k v : Nat) : (s.setReg r i k v).pairBad = s.pairBad := rfl

/-! ## setFld changes regs alone -/

@[simp] theorem State.setFld_pending (s : State) (f : Fld) (i v : Nat) : (s.setFld f i v).pending = s.pending := rfl
@[simp] theorem State.setFld_free (s : State) (f : Fld) (i v : Nat) : (s.setFld f i v).free = s.free := rfl
@[simp] theorem State.setFld_undef (s : State) (f : Fld) (i v : Nat) : (s.setFld f i v).undef = s.undef := rfl
@[simp] theorem State.setFld_rd (s : State) (f : Fld) (i v : Nat) : (s.setFld f i v).rd = s.rd := rfl
@[simp] theorem State.setFld_now (s : State) (f : Fld) (i v : Nat) : (s.setFld f i v).now = s.now := rfl
@[simp] theorem State.setFld_cmt (s : State) (f : Fld) (i v : Nat) : (s.setFld f i v).cmt = s.cmt := rfl
@[simp] theorem State.setFld_ctrs (s : State) (f : Fld) (i v : Nat) : (s.setFld f i v).ctrs = s.ctrs := rfl
@[simp] theorem State.setFld_ver (s : State) (f : Fld) (i v : Nat) : (s.setFld f i v).ver = s.ver := rfl
@[simp] theorem State.setFld_ports (s : State) (f : Fld) (i v : Nat) : (s.setFld f i v).ports = s.ports := rfl
@[simp] theorem State.setFld_pfcPause (s : State) (f : Fld) (i v : Nat) : (s.setFld f i v).pfcPause = s.pfcPause := rfl
@[simp] theorem State.setFld_pfcSent (s : State) (f : Fld) (i v : Nat) : (s.setFld f i v).pfcSent = s.pfcSent := rfl
@[simp] theorem State.setFld_frames (s : State) (f : Fld) (i v : Nat) : (s.setFld f i v).frames = s.frames := rfl
@[simp] theorem State.setFld_tails (s : State) (f : Fld) (i v : Nat) : (s.setFld f i v).tails = s.tails := rfl
@[simp] theorem State.setFld_nextFrame (s : State) (f : Fld) (i v : Nat) : (s.setFld f i v).nextFrame = s.nextFrame := rfl
@[simp] theorem State.setFld_nextHead (s : State) (f : Fld) (i v : Nat) : (s.setFld f i v).nextHead = s.nextHead := rfl
@[simp] theorem State.setFld_nextDisp (s : State) (f : Fld) (i v : Nat) : (s.setFld f i v).nextDisp = s.nextDisp := rfl
@[simp] theorem State.setFld_engines (s : State) (f : Fld) (i v : Nat) : (s.setFld f i v).engines = s.engines := rfl
@[simp] theorem State.setFld_codeLen (s : State) (f : Fld) (i v : Nat) : (s.setFld f i v).codeLen = s.codeLen := rfl
@[simp] theorem State.setFld_bankObj (s : State) (f : Fld) (i v : Nat) : (s.setFld f i v).bankObj = s.bankObj := rfl
@[simp] theorem State.setFld_codeMap (s : State) (f : Fld) (i v : Nat) : (s.setFld f i v).codeMap = s.codeMap := rfl
@[simp] theorem State.setFld_load (s : State) (f : Fld) (i v : Nat) : (s.setFld f i v).load = s.load := rfl
@[simp] theorem State.setFld_copyWin (s : State) (f : Fld) (i v : Nat) : (s.setFld f i v).copyWin = s.copyWin := rfl
@[simp] theorem State.setFld_sideQ (s : State) (f : Fld) (i v : Nat) : (s.setFld f i v).sideQ = s.sideQ := rfl
@[simp] theorem State.setFld_sideRate (s : State) (f : Fld) (i v : Nat) : (s.setFld f i v).sideRate = s.sideRate := rfl
@[simp] theorem State.setFld_exm (s : State) (f : Fld) (i v : Nat) : (s.setFld f i v).exm = s.exm := rfl
@[simp] theorem State.setFld_oldS (s : State) (f : Fld) (i v : Nat) : (s.setFld f i v).oldS = s.oldS := rfl
@[simp] theorem State.setFld_exmSw (s : State) (f : Fld) (i v : Nat) : (s.setFld f i v).exmSw = s.exmSw := rfl
@[simp] theorem State.setFld_cur (s : State) (f : Fld) (i v : Nat) : (s.setFld f i v).cur = s.cur := rfl
@[simp] theorem State.setFld_learnQ (s : State) (f : Fld) (i v : Nat) : (s.setFld f i v).learnQ = s.learnQ := rfl
@[simp] theorem State.setFld_flushQ (s : State) (f : Fld) (i v : Nat) : (s.setFld f i v).flushQ = s.flushQ := rfl
@[simp] theorem State.setFld_ageAt (s : State) (f : Fld) (i v : Nat) : (s.setFld f i v).ageAt = s.ageAt := rfl
@[simp] theorem State.setFld_rehash (s : State) (f : Fld) (i v : Nat) : (s.setFld f i v).rehash = s.rehash := rfl
@[simp] theorem State.setFld_lpm (s : State) (f : Fld) (i v : Nat) : (s.setFld f i v).lpm = s.lpm := rfl
@[simp] theorem State.setFld_tcam (s : State) (f : Fld) (i v : Nat) : (s.setFld f i v).tcam = s.tcam := rfl
@[simp] theorem State.setFld_tcamWin (s : State) (f : Fld) (i v : Nat) : (s.setFld f i v).tcamWin = s.tcamWin := rfl
@[simp] theorem State.setFld_fhLog (s : State) (f : Fld) (i v : Nat) : (s.setFld f i v).fhLog = s.fhLog := rfl
@[simp] theorem State.setFld_pol (s : State) (f : Fld) (i v : Nat) : (s.setFld f i v).pol = s.pol := rfl
@[simp] theorem State.setFld_bufs (s : State) (f : Fld) (i v : Nat) : (s.setFld f i v).bufs = s.bufs := rfl
@[simp] theorem State.setFld_quar (s : State) (f : Fld) (i v : Nat) : (s.setFld f i v).quar = s.quar := rfl
@[simp] theorem State.setFld_crcs (s : State) (f : Fld) (i v : Nat) : (s.setFld f i v).crcs = s.crcs := rfl
@[simp] theorem State.setFld_poolPtr (s : State) (f : Fld) (i v : Nat) : (s.setFld f i v).poolPtr = s.poolPtr := rfl
@[simp] theorem State.setFld_poolLow (s : State) (f : Fld) (i v : Nat) : (s.setFld f i v).poolLow = s.poolLow := rfl
@[simp] theorem State.setFld_capCnt (s : State) (f : Fld) (i v : Nat) : (s.setFld f i v).capCnt = s.capCnt := rfl
@[simp] theorem State.setFld_lookQ (s : State) (f : Fld) (i v : Nat) : (s.setFld f i v).lookQ = s.lookQ := rfl
@[simp] theorem State.setFld_queues (s : State) (f : Fld) (i v : Nat) : (s.setFld f i v).queues = s.queues := rfl
@[simp] theorem State.setFld_tx (s : State) (f : Fld) (i v : Nat) : (s.setFld f i v).tx = s.tx := rfl
@[simp] theorem State.setFld_sent (s : State) (f : Fld) (i v : Nat) : (s.setFld f i v).sent = s.sent := rfl
@[simp] theorem State.setFld_shapers (s : State) (f : Fld) (i v : Nat) : (s.setFld f i v).shapers = s.shapers := rfl
@[simp] theorem State.setFld_drr (s : State) (f : Fld) (i v : Nat) : (s.setFld f i v).drr = s.drr := rfl
@[simp] theorem State.setFld_rounds (s : State) (f : Fld) (i v : Nat) : (s.setFld f i v).rounds = s.rounds := rfl
@[simp] theorem State.setFld_gates (s : State) (f : Fld) (i v : Nat) : (s.setFld f i v).gates = s.gates := rfl
@[simp] theorem State.setFld_qtelCnt (s : State) (f : Fld) (i v : Nat) : (s.setFld f i v).qtelCnt = s.qtelCnt := rfl
@[simp] theorem State.setFld_txSa (s : State) (f : Fld) (i v : Nat) : (s.setFld f i v).txSa = s.txSa := rfl
@[simp] theorem State.setFld_rxSa (s : State) (f : Fld) (i v : Nat) : (s.setFld f i v).rxSa = s.rxSa := rfl
@[simp] theorem State.setFld_authBusy (s : State) (f : Fld) (i v : Nat) : (s.setFld f i v).authBusy = s.authBusy := rfl
@[simp] theorem State.setFld_dd (s : State) (f : Fld) (i v : Nat) : (s.setFld f i v).dd = s.dd := rfl
@[simp] theorem State.setFld_cmp (s : State) (f : Fld) (i v : Nat) : (s.setFld f i v).cmp = s.cmp := rfl
@[simp] theorem State.setFld_rcvy (s : State) (f : Fld) (i v : Nat) : (s.setFld f i v).rcvy = s.rcvy := rfl
@[simp] theorem State.setFld_bypAt (s : State) (f : Fld) (i v : Nat) : (s.setFld f i v).bypAt = s.bypAt := rfl
@[simp] theorem State.setFld_supAt (s : State) (f : Fld) (i v : Nat) : (s.setFld f i v).supAt = s.supAt := rfl
@[simp] theorem State.setFld_nodes (s : State) (f : Fld) (i v : Nat) : (s.setFld f i v).nodes = s.nodes := rfl
@[simp] theorem State.setFld_mbx (s : State) (f : Fld) (i v : Nat) : (s.setFld f i v).mbx = s.mbx := rfl
@[simp] theorem State.setFld_cpls (s : State) (f : Fld) (i v : Nat) : (s.setFld f i v).cpls = s.cpls := rfl
@[simp] theorem State.setFld_txn (s : State) (f : Fld) (i v : Nat) : (s.setFld f i v).txn = s.txn := rfl
@[simp] theorem State.setFld_lastTxn (s : State) (f : Fld) (i v : Nat) : (s.setFld f i v).lastTxn = s.lastTxn := rfl
@[simp] theorem State.setFld_lapsed (s : State) (f : Fld) (i v : Nat) : (s.setFld f i v).lapsed = s.lapsed := rfl
@[simp] theorem State.setFld_sec (s : State) (f : Fld) (i v : Nat) : (s.setFld f i v).sec = s.sec := rfl
@[simp] theorem State.setFld_pci (s : State) (f : Fld) (i v : Nat) : (s.setFld f i v).pci = s.pci := rfl
@[simp] theorem State.setFld_rings (s : State) (f : Fld) (i v : Nat) : (s.setFld f i v).rings = s.rings := rfl
@[simp] theorem State.setFld_rrRing (s : State) (f : Fld) (i v : Nat) : (s.setFld f i v).rrRing = s.rrRing := rfl
@[simp] theorem State.setFld_hostRx (s : State) (f : Fld) (i v : Nat) : (s.setFld f i v).hostRx = s.hostRx := rfl
@[simp] theorem State.setFld_p43 (s : State) (f : Fld) (i v : Nat) : (s.setFld f i v).p43 = s.p43 := rfl
@[simp] theorem State.setFld_i2cPtr (s : State) (f : Fld) (i v : Nat) : (s.setFld f i v).i2cPtr = s.i2cPtr := rfl
@[simp] theorem State.setFld_i2cAddr (s : State) (f : Fld) (i v : Nat) : (s.setFld f i v).i2cAddr = s.i2cAddr := rfl
@[simp] theorem State.setFld_i2cLatch (s : State) (f : Fld) (i v : Nat) : (s.setFld f i v).i2cLatch = s.i2cLatch := rfl
@[simp] theorem State.setFld_uart (s : State) (f : Fld) (i v : Nat) : (s.setFld f i v).uart = s.uart := rfl
@[simp] theorem State.setFld_dram (s : State) (f : Fld) (i v : Nat) : (s.setFld f i v).dram = s.dram := rfl
@[simp] theorem State.setFld_sram (s : State) (f : Fld) (i v : Nat) : (s.setFld f i v).sram = s.sram := rfl
@[simp] theorem State.setFld_rawW (s : State) (f : Fld) (i v : Nat) : (s.setFld f i v).rawW = s.rawW := rfl
@[simp] theorem State.setFld_wild (s : State) (f : Fld) (i v : Nat) : (s.setFld f i v).wild = s.wild := rfl
@[simp] theorem State.setFld_dramSide (s : State) (f : Fld) (i v : Nat) : (s.setFld f i v).dramSide = s.dramSide := rfl
@[simp] theorem State.setFld_perfSkid (s : State) (f : Fld) (i v : Nat) : (s.setFld f i v).perfSkid = s.perfSkid := rfl
@[simp] theorem State.setFld_pwr (s : State) (f : Fld) (i v : Nat) : (s.setFld f i v).pwr = s.pwr := rfl
@[simp] theorem State.setFld_pins (s : State) (f : Fld) (i v : Nat) : (s.setFld f i v).pins = s.pins := rfl
@[simp] theorem State.setFld_startCfg (s : State) (f : Fld) (i v : Nat) : (s.setFld f i v).startCfg = s.startCfg := rfl
@[simp] theorem State.setFld_tries (s : State) (f : Fld) (i v : Nat) : (s.setFld f i v).tries = s.tries := rfl
@[simp] theorem State.setFld_proofAt (s : State) (f : Fld) (i v : Nat) : (s.setFld f i v).proofAt = s.proofAt := rfl
@[simp] theorem State.setFld_flt (s : State) (f : Fld) (i v : Nat) : (s.setFld f i v).flt = s.flt := rfl
@[simp] theorem State.setFld_journal (s : State) (f : Fld) (i v : Nat) : (s.setFld f i v).journal = s.journal := rfl
@[simp] theorem State.setFld_irq (s : State) (f : Fld) (i v : Nat) : (s.setFld f i v).irq = s.irq := rfl
@[simp] theorem State.setFld_clock (s : State) (f : Fld) (i v : Nat) : (s.setFld f i v).clock = s.clock := rfl
@[simp] theorem State.setFld_gpio (s : State) (f : Fld) (i v : Nat) : (s.setFld f i v).gpio = s.gpio := rfl
@[simp] theorem State.setFld_phxWild (s : State) (f : Fld) (i v : Nat) : (s.setFld f i v).phxWild = s.phxWild := rfl
@[simp] theorem State.setFld_streams (s : State) (f : Fld) (i v : Nat) : (s.setFld f i v).streams = s.streams := rfl
@[simp] theorem State.setFld_harmAt (s : State) (f : Fld) (i v : Nat) : (s.setFld f i v).harmAt = s.harmAt := rfl
@[simp] theorem State.setFld_recs (s : State) (f : Fld) (i v : Nat) : (s.setFld f i v).recs = s.recs := rfl
@[simp] theorem State.setFld_recRows (s : State) (f : Fld) (i v : Nat) : (s.setFld f i v).recRows = s.recRows := rfl
@[simp] theorem State.setFld_pmuNext (s : State) (f : Fld) (i v : Nat) : (s.setFld f i v).pmuNext = s.pmuNext := rfl
@[simp] theorem State.setFld_pmuDue (s : State) (f : Fld) (i v : Nat) : (s.setFld f i v).pmuDue = s.pmuDue := rfl
@[simp] theorem State.setFld_pmuChg (s : State) (f : Fld) (i v : Nat) : (s.setFld f i v).pmuChg = s.pmuChg := rfl
@[simp] theorem State.setFld_pmuSrv (s : State) (f : Fld) (i v : Nat) : (s.setFld f i v).pmuSrv = s.pmuSrv := rfl
@[simp] theorem State.setFld_pmuConn (s : State) (f : Fld) (i v : Nat) : (s.setFld f i v).pmuConn = s.pmuConn := rfl
@[simp] theorem State.setFld_pmuTx (s : State) (f : Fld) (i v : Nat) : (s.setFld f i v).pmuTx = s.pmuTx := rfl
@[simp] theorem State.setFld_subs (s : State) (f : Fld) (i v : Nat) : (s.setFld f i v).subs = s.subs := rfl
@[simp] theorem State.setFld_conds (s : State) (f : Fld) (i v : Nat) : (s.setFld f i v).conds = s.conds := rfl
@[simp] theorem State.setFld_acts (s : State) (f : Fld) (i v : Nat) : (s.setFld f i v).acts = s.acts := rfl
@[simp] theorem State.setFld_gpub (s : State) (f : Fld) (i v : Nat) : (s.setFld f i v).gpub = s.gpub := rfl
@[simp] theorem State.setFld_evtQ (s : State) (f : Fld) (i v : Nat) : (s.setFld f i v).evtQ = s.evtQ := rfl
@[simp] theorem State.setFld_evtLog (s : State) (f : Fld) (i v : Nat) : (s.setFld f i v).evtLog = s.evtLog := rfl
@[simp] theorem State.setFld_fswQ (s : State) (f : Fld) (i v : Nat) : (s.setFld f i v).fswQ = s.fswQ := rfl
@[simp] theorem State.setFld_links (s : State) (f : Fld) (i v : Nat) : (s.setFld f i v).links = s.links := rfl
@[simp] theorem State.setFld_voq (s : State) (f : Fld) (i v : Nat) : (s.setFld f i v).voq = s.voq := rfl
@[simp] theorem State.setFld_cgReq (s : State) (f : Fld) (i v : Nat) : (s.setFld f i v).cgReq = s.cgReq := rfl
@[simp] theorem State.setFld_cgNext (s : State) (f : Fld) (i v : Nat) : (s.setFld f i v).cgNext = s.cgNext := rfl
@[simp] theorem State.setFld_cgAt (s : State) (f : Fld) (i v : Nat) : (s.setFld f i v).cgAt = s.cgAt := rfl
@[simp] theorem State.setFld_batch (s : State) (f : Fld) (i v : Nat) : (s.setFld f i v).batch = s.batch := rfl
@[simp] theorem State.setFld_peers (s : State) (f : Fld) (i v : Nat) : (s.setFld f i v).peers = s.peers := rfl
@[simp] theorem State.setFld_fdbTime (s : State) (f : Fld) (i v : Nat) : (s.setFld f i v).fdbTime = s.fdbTime := rfl
@[simp] theorem State.setFld_dramCh (s : State) (f : Fld) (i v : Nat) : (s.setFld f i v).dramCh = s.dramCh := rfl
@[simp] theorem State.setFld_pairs (s : State) (f : Fld) (i v : Nat) : (s.setFld f i v).pairs = s.pairs := rfl
@[simp] theorem State.setFld_pairBad (s : State) (f : Fld) (i v : Nat) : (s.setFld f i v).pairBad = s.pairBad := rfl

/-! ## add changes ctrs alone -/

@[simp] theorem State.add_pending (s : State) (c : Ctr) (i n : Nat) : (s.add c i n).pending = s.pending := rfl
@[simp] theorem State.add_free (s : State) (c : Ctr) (i n : Nat) : (s.add c i n).free = s.free := rfl
@[simp] theorem State.add_undef (s : State) (c : Ctr) (i n : Nat) : (s.add c i n).undef = s.undef := rfl
@[simp] theorem State.add_rd (s : State) (c : Ctr) (i n : Nat) : (s.add c i n).rd = s.rd := rfl
@[simp] theorem State.add_now (s : State) (c : Ctr) (i n : Nat) : (s.add c i n).now = s.now := rfl
@[simp] theorem State.add_regs (s : State) (c : Ctr) (i n : Nat) : (s.add c i n).regs = s.regs := rfl
@[simp] theorem State.add_cmt (s : State) (c : Ctr) (i n : Nat) : (s.add c i n).cmt = s.cmt := rfl
@[simp] theorem State.add_ver (s : State) (c : Ctr) (i n : Nat) : (s.add c i n).ver = s.ver := rfl
@[simp] theorem State.add_ports (s : State) (c : Ctr) (i n : Nat) : (s.add c i n).ports = s.ports := rfl
@[simp] theorem State.add_pfcPause (s : State) (c : Ctr) (i n : Nat) : (s.add c i n).pfcPause = s.pfcPause := rfl
@[simp] theorem State.add_pfcSent (s : State) (c : Ctr) (i n : Nat) : (s.add c i n).pfcSent = s.pfcSent := rfl
@[simp] theorem State.add_frames (s : State) (c : Ctr) (i n : Nat) : (s.add c i n).frames = s.frames := rfl
@[simp] theorem State.add_tails (s : State) (c : Ctr) (i n : Nat) : (s.add c i n).tails = s.tails := rfl
@[simp] theorem State.add_nextFrame (s : State) (c : Ctr) (i n : Nat) : (s.add c i n).nextFrame = s.nextFrame := rfl
@[simp] theorem State.add_nextHead (s : State) (c : Ctr) (i n : Nat) : (s.add c i n).nextHead = s.nextHead := rfl
@[simp] theorem State.add_nextDisp (s : State) (c : Ctr) (i n : Nat) : (s.add c i n).nextDisp = s.nextDisp := rfl
@[simp] theorem State.add_engines (s : State) (c : Ctr) (i n : Nat) : (s.add c i n).engines = s.engines := rfl
@[simp] theorem State.add_codeLen (s : State) (c : Ctr) (i n : Nat) : (s.add c i n).codeLen = s.codeLen := rfl
@[simp] theorem State.add_bankObj (s : State) (c : Ctr) (i n : Nat) : (s.add c i n).bankObj = s.bankObj := rfl
@[simp] theorem State.add_codeMap (s : State) (c : Ctr) (i n : Nat) : (s.add c i n).codeMap = s.codeMap := rfl
@[simp] theorem State.add_load (s : State) (c : Ctr) (i n : Nat) : (s.add c i n).load = s.load := rfl
@[simp] theorem State.add_copyWin (s : State) (c : Ctr) (i n : Nat) : (s.add c i n).copyWin = s.copyWin := rfl
@[simp] theorem State.add_sideQ (s : State) (c : Ctr) (i n : Nat) : (s.add c i n).sideQ = s.sideQ := rfl
@[simp] theorem State.add_sideRate (s : State) (c : Ctr) (i n : Nat) : (s.add c i n).sideRate = s.sideRate := rfl
@[simp] theorem State.add_exm (s : State) (c : Ctr) (i n : Nat) : (s.add c i n).exm = s.exm := rfl
@[simp] theorem State.add_oldS (s : State) (c : Ctr) (i n : Nat) : (s.add c i n).oldS = s.oldS := rfl
@[simp] theorem State.add_exmSw (s : State) (c : Ctr) (i n : Nat) : (s.add c i n).exmSw = s.exmSw := rfl
@[simp] theorem State.add_cur (s : State) (c : Ctr) (i n : Nat) : (s.add c i n).cur = s.cur := rfl
@[simp] theorem State.add_learnQ (s : State) (c : Ctr) (i n : Nat) : (s.add c i n).learnQ = s.learnQ := rfl
@[simp] theorem State.add_flushQ (s : State) (c : Ctr) (i n : Nat) : (s.add c i n).flushQ = s.flushQ := rfl
@[simp] theorem State.add_ageAt (s : State) (c : Ctr) (i n : Nat) : (s.add c i n).ageAt = s.ageAt := rfl
@[simp] theorem State.add_rehash (s : State) (c : Ctr) (i n : Nat) : (s.add c i n).rehash = s.rehash := rfl
@[simp] theorem State.add_lpm (s : State) (c : Ctr) (i n : Nat) : (s.add c i n).lpm = s.lpm := rfl
@[simp] theorem State.add_tcam (s : State) (c : Ctr) (i n : Nat) : (s.add c i n).tcam = s.tcam := rfl
@[simp] theorem State.add_tcamWin (s : State) (c : Ctr) (i n : Nat) : (s.add c i n).tcamWin = s.tcamWin := rfl
@[simp] theorem State.add_fhLog (s : State) (c : Ctr) (i n : Nat) : (s.add c i n).fhLog = s.fhLog := rfl
@[simp] theorem State.add_pol (s : State) (c : Ctr) (i n : Nat) : (s.add c i n).pol = s.pol := rfl
@[simp] theorem State.add_bufs (s : State) (c : Ctr) (i n : Nat) : (s.add c i n).bufs = s.bufs := rfl
@[simp] theorem State.add_quar (s : State) (c : Ctr) (i n : Nat) : (s.add c i n).quar = s.quar := rfl
@[simp] theorem State.add_crcs (s : State) (c : Ctr) (i n : Nat) : (s.add c i n).crcs = s.crcs := rfl
@[simp] theorem State.add_poolPtr (s : State) (c : Ctr) (i n : Nat) : (s.add c i n).poolPtr = s.poolPtr := rfl
@[simp] theorem State.add_poolLow (s : State) (c : Ctr) (i n : Nat) : (s.add c i n).poolLow = s.poolLow := rfl
@[simp] theorem State.add_capCnt (s : State) (c : Ctr) (i n : Nat) : (s.add c i n).capCnt = s.capCnt := rfl
@[simp] theorem State.add_lookQ (s : State) (c : Ctr) (i n : Nat) : (s.add c i n).lookQ = s.lookQ := rfl
@[simp] theorem State.add_queues (s : State) (c : Ctr) (i n : Nat) : (s.add c i n).queues = s.queues := rfl
@[simp] theorem State.add_tx (s : State) (c : Ctr) (i n : Nat) : (s.add c i n).tx = s.tx := rfl
@[simp] theorem State.add_sent (s : State) (c : Ctr) (i n : Nat) : (s.add c i n).sent = s.sent := rfl
@[simp] theorem State.add_shapers (s : State) (c : Ctr) (i n : Nat) : (s.add c i n).shapers = s.shapers := rfl
@[simp] theorem State.add_drr (s : State) (c : Ctr) (i n : Nat) : (s.add c i n).drr = s.drr := rfl
@[simp] theorem State.add_rounds (s : State) (c : Ctr) (i n : Nat) : (s.add c i n).rounds = s.rounds := rfl
@[simp] theorem State.add_gates (s : State) (c : Ctr) (i n : Nat) : (s.add c i n).gates = s.gates := rfl
@[simp] theorem State.add_qtelCnt (s : State) (c : Ctr) (i n : Nat) : (s.add c i n).qtelCnt = s.qtelCnt := rfl
@[simp] theorem State.add_txSa (s : State) (c : Ctr) (i n : Nat) : (s.add c i n).txSa = s.txSa := rfl
@[simp] theorem State.add_rxSa (s : State) (c : Ctr) (i n : Nat) : (s.add c i n).rxSa = s.rxSa := rfl
@[simp] theorem State.add_authBusy (s : State) (c : Ctr) (i n : Nat) : (s.add c i n).authBusy = s.authBusy := rfl
@[simp] theorem State.add_dd (s : State) (c : Ctr) (i n : Nat) : (s.add c i n).dd = s.dd := rfl
@[simp] theorem State.add_cmp (s : State) (c : Ctr) (i n : Nat) : (s.add c i n).cmp = s.cmp := rfl
@[simp] theorem State.add_rcvy (s : State) (c : Ctr) (i n : Nat) : (s.add c i n).rcvy = s.rcvy := rfl
@[simp] theorem State.add_bypAt (s : State) (c : Ctr) (i n : Nat) : (s.add c i n).bypAt = s.bypAt := rfl
@[simp] theorem State.add_supAt (s : State) (c : Ctr) (i n : Nat) : (s.add c i n).supAt = s.supAt := rfl
@[simp] theorem State.add_nodes (s : State) (c : Ctr) (i n : Nat) : (s.add c i n).nodes = s.nodes := rfl
@[simp] theorem State.add_mbx (s : State) (c : Ctr) (i n : Nat) : (s.add c i n).mbx = s.mbx := rfl
@[simp] theorem State.add_cpls (s : State) (c : Ctr) (i n : Nat) : (s.add c i n).cpls = s.cpls := rfl
@[simp] theorem State.add_txn (s : State) (c : Ctr) (i n : Nat) : (s.add c i n).txn = s.txn := rfl
@[simp] theorem State.add_lastTxn (s : State) (c : Ctr) (i n : Nat) : (s.add c i n).lastTxn = s.lastTxn := rfl
@[simp] theorem State.add_lapsed (s : State) (c : Ctr) (i n : Nat) : (s.add c i n).lapsed = s.lapsed := rfl
@[simp] theorem State.add_sec (s : State) (c : Ctr) (i n : Nat) : (s.add c i n).sec = s.sec := rfl
@[simp] theorem State.add_pci (s : State) (c : Ctr) (i n : Nat) : (s.add c i n).pci = s.pci := rfl
@[simp] theorem State.add_rings (s : State) (c : Ctr) (i n : Nat) : (s.add c i n).rings = s.rings := rfl
@[simp] theorem State.add_rrRing (s : State) (c : Ctr) (i n : Nat) : (s.add c i n).rrRing = s.rrRing := rfl
@[simp] theorem State.add_hostRx (s : State) (c : Ctr) (i n : Nat) : (s.add c i n).hostRx = s.hostRx := rfl
@[simp] theorem State.add_p43 (s : State) (c : Ctr) (i n : Nat) : (s.add c i n).p43 = s.p43 := rfl
@[simp] theorem State.add_i2cPtr (s : State) (c : Ctr) (i n : Nat) : (s.add c i n).i2cPtr = s.i2cPtr := rfl
@[simp] theorem State.add_i2cAddr (s : State) (c : Ctr) (i n : Nat) : (s.add c i n).i2cAddr = s.i2cAddr := rfl
@[simp] theorem State.add_i2cLatch (s : State) (c : Ctr) (i n : Nat) : (s.add c i n).i2cLatch = s.i2cLatch := rfl
@[simp] theorem State.add_uart (s : State) (c : Ctr) (i n : Nat) : (s.add c i n).uart = s.uart := rfl
@[simp] theorem State.add_dram (s : State) (c : Ctr) (i n : Nat) : (s.add c i n).dram = s.dram := rfl
@[simp] theorem State.add_sram (s : State) (c : Ctr) (i n : Nat) : (s.add c i n).sram = s.sram := rfl
@[simp] theorem State.add_rawW (s : State) (c : Ctr) (i n : Nat) : (s.add c i n).rawW = s.rawW := rfl
@[simp] theorem State.add_wild (s : State) (c : Ctr) (i n : Nat) : (s.add c i n).wild = s.wild := rfl
@[simp] theorem State.add_dramSide (s : State) (c : Ctr) (i n : Nat) : (s.add c i n).dramSide = s.dramSide := rfl
@[simp] theorem State.add_perfSkid (s : State) (c : Ctr) (i n : Nat) : (s.add c i n).perfSkid = s.perfSkid := rfl
@[simp] theorem State.add_pwr (s : State) (c : Ctr) (i n : Nat) : (s.add c i n).pwr = s.pwr := rfl
@[simp] theorem State.add_pins (s : State) (c : Ctr) (i n : Nat) : (s.add c i n).pins = s.pins := rfl
@[simp] theorem State.add_startCfg (s : State) (c : Ctr) (i n : Nat) : (s.add c i n).startCfg = s.startCfg := rfl
@[simp] theorem State.add_tries (s : State) (c : Ctr) (i n : Nat) : (s.add c i n).tries = s.tries := rfl
@[simp] theorem State.add_proofAt (s : State) (c : Ctr) (i n : Nat) : (s.add c i n).proofAt = s.proofAt := rfl
@[simp] theorem State.add_flt (s : State) (c : Ctr) (i n : Nat) : (s.add c i n).flt = s.flt := rfl
@[simp] theorem State.add_journal (s : State) (c : Ctr) (i n : Nat) : (s.add c i n).journal = s.journal := rfl
@[simp] theorem State.add_irq (s : State) (c : Ctr) (i n : Nat) : (s.add c i n).irq = s.irq := rfl
@[simp] theorem State.add_clock (s : State) (c : Ctr) (i n : Nat) : (s.add c i n).clock = s.clock := rfl
@[simp] theorem State.add_gpio (s : State) (c : Ctr) (i n : Nat) : (s.add c i n).gpio = s.gpio := rfl
@[simp] theorem State.add_phxWild (s : State) (c : Ctr) (i n : Nat) : (s.add c i n).phxWild = s.phxWild := rfl
@[simp] theorem State.add_streams (s : State) (c : Ctr) (i n : Nat) : (s.add c i n).streams = s.streams := rfl
@[simp] theorem State.add_harmAt (s : State) (c : Ctr) (i n : Nat) : (s.add c i n).harmAt = s.harmAt := rfl
@[simp] theorem State.add_recs (s : State) (c : Ctr) (i n : Nat) : (s.add c i n).recs = s.recs := rfl
@[simp] theorem State.add_recRows (s : State) (c : Ctr) (i n : Nat) : (s.add c i n).recRows = s.recRows := rfl
@[simp] theorem State.add_pmuNext (s : State) (c : Ctr) (i n : Nat) : (s.add c i n).pmuNext = s.pmuNext := rfl
@[simp] theorem State.add_pmuDue (s : State) (c : Ctr) (i n : Nat) : (s.add c i n).pmuDue = s.pmuDue := rfl
@[simp] theorem State.add_pmuChg (s : State) (c : Ctr) (i n : Nat) : (s.add c i n).pmuChg = s.pmuChg := rfl
@[simp] theorem State.add_pmuSrv (s : State) (c : Ctr) (i n : Nat) : (s.add c i n).pmuSrv = s.pmuSrv := rfl
@[simp] theorem State.add_pmuConn (s : State) (c : Ctr) (i n : Nat) : (s.add c i n).pmuConn = s.pmuConn := rfl
@[simp] theorem State.add_pmuTx (s : State) (c : Ctr) (i n : Nat) : (s.add c i n).pmuTx = s.pmuTx := rfl
@[simp] theorem State.add_subs (s : State) (c : Ctr) (i n : Nat) : (s.add c i n).subs = s.subs := rfl
@[simp] theorem State.add_conds (s : State) (c : Ctr) (i n : Nat) : (s.add c i n).conds = s.conds := rfl
@[simp] theorem State.add_acts (s : State) (c : Ctr) (i n : Nat) : (s.add c i n).acts = s.acts := rfl
@[simp] theorem State.add_gpub (s : State) (c : Ctr) (i n : Nat) : (s.add c i n).gpub = s.gpub := rfl
@[simp] theorem State.add_evtQ (s : State) (c : Ctr) (i n : Nat) : (s.add c i n).evtQ = s.evtQ := rfl
@[simp] theorem State.add_evtLog (s : State) (c : Ctr) (i n : Nat) : (s.add c i n).evtLog = s.evtLog := rfl
@[simp] theorem State.add_fswQ (s : State) (c : Ctr) (i n : Nat) : (s.add c i n).fswQ = s.fswQ := rfl
@[simp] theorem State.add_links (s : State) (c : Ctr) (i n : Nat) : (s.add c i n).links = s.links := rfl
@[simp] theorem State.add_voq (s : State) (c : Ctr) (i n : Nat) : (s.add c i n).voq = s.voq := rfl
@[simp] theorem State.add_cgReq (s : State) (c : Ctr) (i n : Nat) : (s.add c i n).cgReq = s.cgReq := rfl
@[simp] theorem State.add_cgNext (s : State) (c : Ctr) (i n : Nat) : (s.add c i n).cgNext = s.cgNext := rfl
@[simp] theorem State.add_cgAt (s : State) (c : Ctr) (i n : Nat) : (s.add c i n).cgAt = s.cgAt := rfl
@[simp] theorem State.add_batch (s : State) (c : Ctr) (i n : Nat) : (s.add c i n).batch = s.batch := rfl
@[simp] theorem State.add_peers (s : State) (c : Ctr) (i n : Nat) : (s.add c i n).peers = s.peers := rfl
@[simp] theorem State.add_fdbTime (s : State) (c : Ctr) (i n : Nat) : (s.add c i n).fdbTime = s.fdbTime := rfl
@[simp] theorem State.add_dramCh (s : State) (c : Ctr) (i n : Nat) : (s.add c i n).dramCh = s.dramCh := rfl
@[simp] theorem State.add_pairs (s : State) (c : Ctr) (i n : Nat) : (s.add c i n).pairs = s.pairs := rfl
@[simp] theorem State.add_pairBad (s : State) (c : Ctr) (i n : Nat) : (s.add c i n).pairBad = s.pairBad := rfl

/-! ## bump changes ctrs alone -/

@[simp] theorem State.bump_pending (s : State) (c : Ctr) (i : Nat) : (s.bump c i).pending = s.pending := rfl
@[simp] theorem State.bump_free (s : State) (c : Ctr) (i : Nat) : (s.bump c i).free = s.free := rfl
@[simp] theorem State.bump_undef (s : State) (c : Ctr) (i : Nat) : (s.bump c i).undef = s.undef := rfl
@[simp] theorem State.bump_rd (s : State) (c : Ctr) (i : Nat) : (s.bump c i).rd = s.rd := rfl
@[simp] theorem State.bump_now (s : State) (c : Ctr) (i : Nat) : (s.bump c i).now = s.now := rfl
@[simp] theorem State.bump_regs (s : State) (c : Ctr) (i : Nat) : (s.bump c i).regs = s.regs := rfl
@[simp] theorem State.bump_cmt (s : State) (c : Ctr) (i : Nat) : (s.bump c i).cmt = s.cmt := rfl
@[simp] theorem State.bump_ver (s : State) (c : Ctr) (i : Nat) : (s.bump c i).ver = s.ver := rfl
@[simp] theorem State.bump_ports (s : State) (c : Ctr) (i : Nat) : (s.bump c i).ports = s.ports := rfl
@[simp] theorem State.bump_pfcPause (s : State) (c : Ctr) (i : Nat) : (s.bump c i).pfcPause = s.pfcPause := rfl
@[simp] theorem State.bump_pfcSent (s : State) (c : Ctr) (i : Nat) : (s.bump c i).pfcSent = s.pfcSent := rfl
@[simp] theorem State.bump_frames (s : State) (c : Ctr) (i : Nat) : (s.bump c i).frames = s.frames := rfl
@[simp] theorem State.bump_tails (s : State) (c : Ctr) (i : Nat) : (s.bump c i).tails = s.tails := rfl
@[simp] theorem State.bump_nextFrame (s : State) (c : Ctr) (i : Nat) : (s.bump c i).nextFrame = s.nextFrame := rfl
@[simp] theorem State.bump_nextHead (s : State) (c : Ctr) (i : Nat) : (s.bump c i).nextHead = s.nextHead := rfl
@[simp] theorem State.bump_nextDisp (s : State) (c : Ctr) (i : Nat) : (s.bump c i).nextDisp = s.nextDisp := rfl
@[simp] theorem State.bump_engines (s : State) (c : Ctr) (i : Nat) : (s.bump c i).engines = s.engines := rfl
@[simp] theorem State.bump_codeLen (s : State) (c : Ctr) (i : Nat) : (s.bump c i).codeLen = s.codeLen := rfl
@[simp] theorem State.bump_bankObj (s : State) (c : Ctr) (i : Nat) : (s.bump c i).bankObj = s.bankObj := rfl
@[simp] theorem State.bump_codeMap (s : State) (c : Ctr) (i : Nat) : (s.bump c i).codeMap = s.codeMap := rfl
@[simp] theorem State.bump_load (s : State) (c : Ctr) (i : Nat) : (s.bump c i).load = s.load := rfl
@[simp] theorem State.bump_copyWin (s : State) (c : Ctr) (i : Nat) : (s.bump c i).copyWin = s.copyWin := rfl
@[simp] theorem State.bump_sideQ (s : State) (c : Ctr) (i : Nat) : (s.bump c i).sideQ = s.sideQ := rfl
@[simp] theorem State.bump_sideRate (s : State) (c : Ctr) (i : Nat) : (s.bump c i).sideRate = s.sideRate := rfl
@[simp] theorem State.bump_exm (s : State) (c : Ctr) (i : Nat) : (s.bump c i).exm = s.exm := rfl
@[simp] theorem State.bump_oldS (s : State) (c : Ctr) (i : Nat) : (s.bump c i).oldS = s.oldS := rfl
@[simp] theorem State.bump_exmSw (s : State) (c : Ctr) (i : Nat) : (s.bump c i).exmSw = s.exmSw := rfl
@[simp] theorem State.bump_cur (s : State) (c : Ctr) (i : Nat) : (s.bump c i).cur = s.cur := rfl
@[simp] theorem State.bump_learnQ (s : State) (c : Ctr) (i : Nat) : (s.bump c i).learnQ = s.learnQ := rfl
@[simp] theorem State.bump_flushQ (s : State) (c : Ctr) (i : Nat) : (s.bump c i).flushQ = s.flushQ := rfl
@[simp] theorem State.bump_ageAt (s : State) (c : Ctr) (i : Nat) : (s.bump c i).ageAt = s.ageAt := rfl
@[simp] theorem State.bump_rehash (s : State) (c : Ctr) (i : Nat) : (s.bump c i).rehash = s.rehash := rfl
@[simp] theorem State.bump_lpm (s : State) (c : Ctr) (i : Nat) : (s.bump c i).lpm = s.lpm := rfl
@[simp] theorem State.bump_tcam (s : State) (c : Ctr) (i : Nat) : (s.bump c i).tcam = s.tcam := rfl
@[simp] theorem State.bump_tcamWin (s : State) (c : Ctr) (i : Nat) : (s.bump c i).tcamWin = s.tcamWin := rfl
@[simp] theorem State.bump_fhLog (s : State) (c : Ctr) (i : Nat) : (s.bump c i).fhLog = s.fhLog := rfl
@[simp] theorem State.bump_pol (s : State) (c : Ctr) (i : Nat) : (s.bump c i).pol = s.pol := rfl
@[simp] theorem State.bump_bufs (s : State) (c : Ctr) (i : Nat) : (s.bump c i).bufs = s.bufs := rfl
@[simp] theorem State.bump_quar (s : State) (c : Ctr) (i : Nat) : (s.bump c i).quar = s.quar := rfl
@[simp] theorem State.bump_crcs (s : State) (c : Ctr) (i : Nat) : (s.bump c i).crcs = s.crcs := rfl
@[simp] theorem State.bump_poolPtr (s : State) (c : Ctr) (i : Nat) : (s.bump c i).poolPtr = s.poolPtr := rfl
@[simp] theorem State.bump_poolLow (s : State) (c : Ctr) (i : Nat) : (s.bump c i).poolLow = s.poolLow := rfl
@[simp] theorem State.bump_capCnt (s : State) (c : Ctr) (i : Nat) : (s.bump c i).capCnt = s.capCnt := rfl
@[simp] theorem State.bump_lookQ (s : State) (c : Ctr) (i : Nat) : (s.bump c i).lookQ = s.lookQ := rfl
@[simp] theorem State.bump_queues (s : State) (c : Ctr) (i : Nat) : (s.bump c i).queues = s.queues := rfl
@[simp] theorem State.bump_tx (s : State) (c : Ctr) (i : Nat) : (s.bump c i).tx = s.tx := rfl
@[simp] theorem State.bump_sent (s : State) (c : Ctr) (i : Nat) : (s.bump c i).sent = s.sent := rfl
@[simp] theorem State.bump_shapers (s : State) (c : Ctr) (i : Nat) : (s.bump c i).shapers = s.shapers := rfl
@[simp] theorem State.bump_drr (s : State) (c : Ctr) (i : Nat) : (s.bump c i).drr = s.drr := rfl
@[simp] theorem State.bump_rounds (s : State) (c : Ctr) (i : Nat) : (s.bump c i).rounds = s.rounds := rfl
@[simp] theorem State.bump_gates (s : State) (c : Ctr) (i : Nat) : (s.bump c i).gates = s.gates := rfl
@[simp] theorem State.bump_qtelCnt (s : State) (c : Ctr) (i : Nat) : (s.bump c i).qtelCnt = s.qtelCnt := rfl
@[simp] theorem State.bump_txSa (s : State) (c : Ctr) (i : Nat) : (s.bump c i).txSa = s.txSa := rfl
@[simp] theorem State.bump_rxSa (s : State) (c : Ctr) (i : Nat) : (s.bump c i).rxSa = s.rxSa := rfl
@[simp] theorem State.bump_authBusy (s : State) (c : Ctr) (i : Nat) : (s.bump c i).authBusy = s.authBusy := rfl
@[simp] theorem State.bump_dd (s : State) (c : Ctr) (i : Nat) : (s.bump c i).dd = s.dd := rfl
@[simp] theorem State.bump_cmp (s : State) (c : Ctr) (i : Nat) : (s.bump c i).cmp = s.cmp := rfl
@[simp] theorem State.bump_rcvy (s : State) (c : Ctr) (i : Nat) : (s.bump c i).rcvy = s.rcvy := rfl
@[simp] theorem State.bump_bypAt (s : State) (c : Ctr) (i : Nat) : (s.bump c i).bypAt = s.bypAt := rfl
@[simp] theorem State.bump_supAt (s : State) (c : Ctr) (i : Nat) : (s.bump c i).supAt = s.supAt := rfl
@[simp] theorem State.bump_nodes (s : State) (c : Ctr) (i : Nat) : (s.bump c i).nodes = s.nodes := rfl
@[simp] theorem State.bump_mbx (s : State) (c : Ctr) (i : Nat) : (s.bump c i).mbx = s.mbx := rfl
@[simp] theorem State.bump_cpls (s : State) (c : Ctr) (i : Nat) : (s.bump c i).cpls = s.cpls := rfl
@[simp] theorem State.bump_txn (s : State) (c : Ctr) (i : Nat) : (s.bump c i).txn = s.txn := rfl
@[simp] theorem State.bump_lastTxn (s : State) (c : Ctr) (i : Nat) : (s.bump c i).lastTxn = s.lastTxn := rfl
@[simp] theorem State.bump_lapsed (s : State) (c : Ctr) (i : Nat) : (s.bump c i).lapsed = s.lapsed := rfl
@[simp] theorem State.bump_sec (s : State) (c : Ctr) (i : Nat) : (s.bump c i).sec = s.sec := rfl
@[simp] theorem State.bump_pci (s : State) (c : Ctr) (i : Nat) : (s.bump c i).pci = s.pci := rfl
@[simp] theorem State.bump_rings (s : State) (c : Ctr) (i : Nat) : (s.bump c i).rings = s.rings := rfl
@[simp] theorem State.bump_rrRing (s : State) (c : Ctr) (i : Nat) : (s.bump c i).rrRing = s.rrRing := rfl
@[simp] theorem State.bump_hostRx (s : State) (c : Ctr) (i : Nat) : (s.bump c i).hostRx = s.hostRx := rfl
@[simp] theorem State.bump_p43 (s : State) (c : Ctr) (i : Nat) : (s.bump c i).p43 = s.p43 := rfl
@[simp] theorem State.bump_i2cPtr (s : State) (c : Ctr) (i : Nat) : (s.bump c i).i2cPtr = s.i2cPtr := rfl
@[simp] theorem State.bump_i2cAddr (s : State) (c : Ctr) (i : Nat) : (s.bump c i).i2cAddr = s.i2cAddr := rfl
@[simp] theorem State.bump_i2cLatch (s : State) (c : Ctr) (i : Nat) : (s.bump c i).i2cLatch = s.i2cLatch := rfl
@[simp] theorem State.bump_uart (s : State) (c : Ctr) (i : Nat) : (s.bump c i).uart = s.uart := rfl
@[simp] theorem State.bump_dram (s : State) (c : Ctr) (i : Nat) : (s.bump c i).dram = s.dram := rfl
@[simp] theorem State.bump_sram (s : State) (c : Ctr) (i : Nat) : (s.bump c i).sram = s.sram := rfl
@[simp] theorem State.bump_rawW (s : State) (c : Ctr) (i : Nat) : (s.bump c i).rawW = s.rawW := rfl
@[simp] theorem State.bump_wild (s : State) (c : Ctr) (i : Nat) : (s.bump c i).wild = s.wild := rfl
@[simp] theorem State.bump_dramSide (s : State) (c : Ctr) (i : Nat) : (s.bump c i).dramSide = s.dramSide := rfl
@[simp] theorem State.bump_perfSkid (s : State) (c : Ctr) (i : Nat) : (s.bump c i).perfSkid = s.perfSkid := rfl
@[simp] theorem State.bump_pwr (s : State) (c : Ctr) (i : Nat) : (s.bump c i).pwr = s.pwr := rfl
@[simp] theorem State.bump_pins (s : State) (c : Ctr) (i : Nat) : (s.bump c i).pins = s.pins := rfl
@[simp] theorem State.bump_startCfg (s : State) (c : Ctr) (i : Nat) : (s.bump c i).startCfg = s.startCfg := rfl
@[simp] theorem State.bump_tries (s : State) (c : Ctr) (i : Nat) : (s.bump c i).tries = s.tries := rfl
@[simp] theorem State.bump_proofAt (s : State) (c : Ctr) (i : Nat) : (s.bump c i).proofAt = s.proofAt := rfl
@[simp] theorem State.bump_flt (s : State) (c : Ctr) (i : Nat) : (s.bump c i).flt = s.flt := rfl
@[simp] theorem State.bump_journal (s : State) (c : Ctr) (i : Nat) : (s.bump c i).journal = s.journal := rfl
@[simp] theorem State.bump_irq (s : State) (c : Ctr) (i : Nat) : (s.bump c i).irq = s.irq := rfl
@[simp] theorem State.bump_clock (s : State) (c : Ctr) (i : Nat) : (s.bump c i).clock = s.clock := rfl
@[simp] theorem State.bump_gpio (s : State) (c : Ctr) (i : Nat) : (s.bump c i).gpio = s.gpio := rfl
@[simp] theorem State.bump_phxWild (s : State) (c : Ctr) (i : Nat) : (s.bump c i).phxWild = s.phxWild := rfl
@[simp] theorem State.bump_streams (s : State) (c : Ctr) (i : Nat) : (s.bump c i).streams = s.streams := rfl
@[simp] theorem State.bump_harmAt (s : State) (c : Ctr) (i : Nat) : (s.bump c i).harmAt = s.harmAt := rfl
@[simp] theorem State.bump_recs (s : State) (c : Ctr) (i : Nat) : (s.bump c i).recs = s.recs := rfl
@[simp] theorem State.bump_recRows (s : State) (c : Ctr) (i : Nat) : (s.bump c i).recRows = s.recRows := rfl
@[simp] theorem State.bump_pmuNext (s : State) (c : Ctr) (i : Nat) : (s.bump c i).pmuNext = s.pmuNext := rfl
@[simp] theorem State.bump_pmuDue (s : State) (c : Ctr) (i : Nat) : (s.bump c i).pmuDue = s.pmuDue := rfl
@[simp] theorem State.bump_pmuChg (s : State) (c : Ctr) (i : Nat) : (s.bump c i).pmuChg = s.pmuChg := rfl
@[simp] theorem State.bump_pmuSrv (s : State) (c : Ctr) (i : Nat) : (s.bump c i).pmuSrv = s.pmuSrv := rfl
@[simp] theorem State.bump_pmuConn (s : State) (c : Ctr) (i : Nat) : (s.bump c i).pmuConn = s.pmuConn := rfl
@[simp] theorem State.bump_pmuTx (s : State) (c : Ctr) (i : Nat) : (s.bump c i).pmuTx = s.pmuTx := rfl
@[simp] theorem State.bump_subs (s : State) (c : Ctr) (i : Nat) : (s.bump c i).subs = s.subs := rfl
@[simp] theorem State.bump_conds (s : State) (c : Ctr) (i : Nat) : (s.bump c i).conds = s.conds := rfl
@[simp] theorem State.bump_acts (s : State) (c : Ctr) (i : Nat) : (s.bump c i).acts = s.acts := rfl
@[simp] theorem State.bump_gpub (s : State) (c : Ctr) (i : Nat) : (s.bump c i).gpub = s.gpub := rfl
@[simp] theorem State.bump_evtQ (s : State) (c : Ctr) (i : Nat) : (s.bump c i).evtQ = s.evtQ := rfl
@[simp] theorem State.bump_evtLog (s : State) (c : Ctr) (i : Nat) : (s.bump c i).evtLog = s.evtLog := rfl
@[simp] theorem State.bump_fswQ (s : State) (c : Ctr) (i : Nat) : (s.bump c i).fswQ = s.fswQ := rfl
@[simp] theorem State.bump_links (s : State) (c : Ctr) (i : Nat) : (s.bump c i).links = s.links := rfl
@[simp] theorem State.bump_voq (s : State) (c : Ctr) (i : Nat) : (s.bump c i).voq = s.voq := rfl
@[simp] theorem State.bump_cgReq (s : State) (c : Ctr) (i : Nat) : (s.bump c i).cgReq = s.cgReq := rfl
@[simp] theorem State.bump_cgNext (s : State) (c : Ctr) (i : Nat) : (s.bump c i).cgNext = s.cgNext := rfl
@[simp] theorem State.bump_cgAt (s : State) (c : Ctr) (i : Nat) : (s.bump c i).cgAt = s.cgAt := rfl
@[simp] theorem State.bump_batch (s : State) (c : Ctr) (i : Nat) : (s.bump c i).batch = s.batch := rfl
@[simp] theorem State.bump_peers (s : State) (c : Ctr) (i : Nat) : (s.bump c i).peers = s.peers := rfl
@[simp] theorem State.bump_fdbTime (s : State) (c : Ctr) (i : Nat) : (s.bump c i).fdbTime = s.fdbTime := rfl
@[simp] theorem State.bump_dramCh (s : State) (c : Ctr) (i : Nat) : (s.bump c i).dramCh = s.dramCh := rfl
@[simp] theorem State.bump_pairs (s : State) (c : Ctr) (i : Nat) : (s.bump c i).pairs = s.pairs := rfl
@[simp] theorem State.bump_pairBad (s : State) (c : Ctr) (i : Nat) : (s.bump c i).pairBad = s.pairBad := rfl

/-! ## stage changes cmt alone -/

@[simp] theorem State.stage_pending (s : State) (r : Reg) (i k m v : Nat) : (s.stage r i k m v).pending = s.pending := rfl
@[simp] theorem State.stage_free (s : State) (r : Reg) (i k m v : Nat) : (s.stage r i k m v).free = s.free := rfl
@[simp] theorem State.stage_undef (s : State) (r : Reg) (i k m v : Nat) : (s.stage r i k m v).undef = s.undef := rfl
@[simp] theorem State.stage_rd (s : State) (r : Reg) (i k m v : Nat) : (s.stage r i k m v).rd = s.rd := rfl
@[simp] theorem State.stage_now (s : State) (r : Reg) (i k m v : Nat) : (s.stage r i k m v).now = s.now := rfl
@[simp] theorem State.stage_regs (s : State) (r : Reg) (i k m v : Nat) : (s.stage r i k m v).regs = s.regs := rfl
@[simp] theorem State.stage_ctrs (s : State) (r : Reg) (i k m v : Nat) : (s.stage r i k m v).ctrs = s.ctrs := rfl
@[simp] theorem State.stage_ver (s : State) (r : Reg) (i k m v : Nat) : (s.stage r i k m v).ver = s.ver := rfl
@[simp] theorem State.stage_ports (s : State) (r : Reg) (i k m v : Nat) : (s.stage r i k m v).ports = s.ports := rfl
@[simp] theorem State.stage_pfcPause (s : State) (r : Reg) (i k m v : Nat) : (s.stage r i k m v).pfcPause = s.pfcPause := rfl
@[simp] theorem State.stage_pfcSent (s : State) (r : Reg) (i k m v : Nat) : (s.stage r i k m v).pfcSent = s.pfcSent := rfl
@[simp] theorem State.stage_frames (s : State) (r : Reg) (i k m v : Nat) : (s.stage r i k m v).frames = s.frames := rfl
@[simp] theorem State.stage_tails (s : State) (r : Reg) (i k m v : Nat) : (s.stage r i k m v).tails = s.tails := rfl
@[simp] theorem State.stage_nextFrame (s : State) (r : Reg) (i k m v : Nat) : (s.stage r i k m v).nextFrame = s.nextFrame := rfl
@[simp] theorem State.stage_nextHead (s : State) (r : Reg) (i k m v : Nat) : (s.stage r i k m v).nextHead = s.nextHead := rfl
@[simp] theorem State.stage_nextDisp (s : State) (r : Reg) (i k m v : Nat) : (s.stage r i k m v).nextDisp = s.nextDisp := rfl
@[simp] theorem State.stage_engines (s : State) (r : Reg) (i k m v : Nat) : (s.stage r i k m v).engines = s.engines := rfl
@[simp] theorem State.stage_codeLen (s : State) (r : Reg) (i k m v : Nat) : (s.stage r i k m v).codeLen = s.codeLen := rfl
@[simp] theorem State.stage_bankObj (s : State) (r : Reg) (i k m v : Nat) : (s.stage r i k m v).bankObj = s.bankObj := rfl
@[simp] theorem State.stage_codeMap (s : State) (r : Reg) (i k m v : Nat) : (s.stage r i k m v).codeMap = s.codeMap := rfl
@[simp] theorem State.stage_load (s : State) (r : Reg) (i k m v : Nat) : (s.stage r i k m v).load = s.load := rfl
@[simp] theorem State.stage_copyWin (s : State) (r : Reg) (i k m v : Nat) : (s.stage r i k m v).copyWin = s.copyWin := rfl
@[simp] theorem State.stage_sideQ (s : State) (r : Reg) (i k m v : Nat) : (s.stage r i k m v).sideQ = s.sideQ := rfl
@[simp] theorem State.stage_sideRate (s : State) (r : Reg) (i k m v : Nat) : (s.stage r i k m v).sideRate = s.sideRate := rfl
@[simp] theorem State.stage_exm (s : State) (r : Reg) (i k m v : Nat) : (s.stage r i k m v).exm = s.exm := rfl
@[simp] theorem State.stage_oldS (s : State) (r : Reg) (i k m v : Nat) : (s.stage r i k m v).oldS = s.oldS := rfl
@[simp] theorem State.stage_exmSw (s : State) (r : Reg) (i k m v : Nat) : (s.stage r i k m v).exmSw = s.exmSw := rfl
@[simp] theorem State.stage_cur (s : State) (r : Reg) (i k m v : Nat) : (s.stage r i k m v).cur = s.cur := rfl
@[simp] theorem State.stage_learnQ (s : State) (r : Reg) (i k m v : Nat) : (s.stage r i k m v).learnQ = s.learnQ := rfl
@[simp] theorem State.stage_flushQ (s : State) (r : Reg) (i k m v : Nat) : (s.stage r i k m v).flushQ = s.flushQ := rfl
@[simp] theorem State.stage_ageAt (s : State) (r : Reg) (i k m v : Nat) : (s.stage r i k m v).ageAt = s.ageAt := rfl
@[simp] theorem State.stage_rehash (s : State) (r : Reg) (i k m v : Nat) : (s.stage r i k m v).rehash = s.rehash := rfl
@[simp] theorem State.stage_lpm (s : State) (r : Reg) (i k m v : Nat) : (s.stage r i k m v).lpm = s.lpm := rfl
@[simp] theorem State.stage_tcam (s : State) (r : Reg) (i k m v : Nat) : (s.stage r i k m v).tcam = s.tcam := rfl
@[simp] theorem State.stage_tcamWin (s : State) (r : Reg) (i k m v : Nat) : (s.stage r i k m v).tcamWin = s.tcamWin := rfl
@[simp] theorem State.stage_fhLog (s : State) (r : Reg) (i k m v : Nat) : (s.stage r i k m v).fhLog = s.fhLog := rfl
@[simp] theorem State.stage_pol (s : State) (r : Reg) (i k m v : Nat) : (s.stage r i k m v).pol = s.pol := rfl
@[simp] theorem State.stage_bufs (s : State) (r : Reg) (i k m v : Nat) : (s.stage r i k m v).bufs = s.bufs := rfl
@[simp] theorem State.stage_quar (s : State) (r : Reg) (i k m v : Nat) : (s.stage r i k m v).quar = s.quar := rfl
@[simp] theorem State.stage_crcs (s : State) (r : Reg) (i k m v : Nat) : (s.stage r i k m v).crcs = s.crcs := rfl
@[simp] theorem State.stage_poolPtr (s : State) (r : Reg) (i k m v : Nat) : (s.stage r i k m v).poolPtr = s.poolPtr := rfl
@[simp] theorem State.stage_poolLow (s : State) (r : Reg) (i k m v : Nat) : (s.stage r i k m v).poolLow = s.poolLow := rfl
@[simp] theorem State.stage_capCnt (s : State) (r : Reg) (i k m v : Nat) : (s.stage r i k m v).capCnt = s.capCnt := rfl
@[simp] theorem State.stage_lookQ (s : State) (r : Reg) (i k m v : Nat) : (s.stage r i k m v).lookQ = s.lookQ := rfl
@[simp] theorem State.stage_queues (s : State) (r : Reg) (i k m v : Nat) : (s.stage r i k m v).queues = s.queues := rfl
@[simp] theorem State.stage_tx (s : State) (r : Reg) (i k m v : Nat) : (s.stage r i k m v).tx = s.tx := rfl
@[simp] theorem State.stage_sent (s : State) (r : Reg) (i k m v : Nat) : (s.stage r i k m v).sent = s.sent := rfl
@[simp] theorem State.stage_shapers (s : State) (r : Reg) (i k m v : Nat) : (s.stage r i k m v).shapers = s.shapers := rfl
@[simp] theorem State.stage_drr (s : State) (r : Reg) (i k m v : Nat) : (s.stage r i k m v).drr = s.drr := rfl
@[simp] theorem State.stage_rounds (s : State) (r : Reg) (i k m v : Nat) : (s.stage r i k m v).rounds = s.rounds := rfl
@[simp] theorem State.stage_gates (s : State) (r : Reg) (i k m v : Nat) : (s.stage r i k m v).gates = s.gates := rfl
@[simp] theorem State.stage_qtelCnt (s : State) (r : Reg) (i k m v : Nat) : (s.stage r i k m v).qtelCnt = s.qtelCnt := rfl
@[simp] theorem State.stage_txSa (s : State) (r : Reg) (i k m v : Nat) : (s.stage r i k m v).txSa = s.txSa := rfl
@[simp] theorem State.stage_rxSa (s : State) (r : Reg) (i k m v : Nat) : (s.stage r i k m v).rxSa = s.rxSa := rfl
@[simp] theorem State.stage_authBusy (s : State) (r : Reg) (i k m v : Nat) : (s.stage r i k m v).authBusy = s.authBusy := rfl
@[simp] theorem State.stage_dd (s : State) (r : Reg) (i k m v : Nat) : (s.stage r i k m v).dd = s.dd := rfl
@[simp] theorem State.stage_cmp (s : State) (r : Reg) (i k m v : Nat) : (s.stage r i k m v).cmp = s.cmp := rfl
@[simp] theorem State.stage_rcvy (s : State) (r : Reg) (i k m v : Nat) : (s.stage r i k m v).rcvy = s.rcvy := rfl
@[simp] theorem State.stage_bypAt (s : State) (r : Reg) (i k m v : Nat) : (s.stage r i k m v).bypAt = s.bypAt := rfl
@[simp] theorem State.stage_supAt (s : State) (r : Reg) (i k m v : Nat) : (s.stage r i k m v).supAt = s.supAt := rfl
@[simp] theorem State.stage_nodes (s : State) (r : Reg) (i k m v : Nat) : (s.stage r i k m v).nodes = s.nodes := rfl
@[simp] theorem State.stage_mbx (s : State) (r : Reg) (i k m v : Nat) : (s.stage r i k m v).mbx = s.mbx := rfl
@[simp] theorem State.stage_cpls (s : State) (r : Reg) (i k m v : Nat) : (s.stage r i k m v).cpls = s.cpls := rfl
@[simp] theorem State.stage_txn (s : State) (r : Reg) (i k m v : Nat) : (s.stage r i k m v).txn = s.txn := rfl
@[simp] theorem State.stage_lastTxn (s : State) (r : Reg) (i k m v : Nat) : (s.stage r i k m v).lastTxn = s.lastTxn := rfl
@[simp] theorem State.stage_lapsed (s : State) (r : Reg) (i k m v : Nat) : (s.stage r i k m v).lapsed = s.lapsed := rfl
@[simp] theorem State.stage_sec (s : State) (r : Reg) (i k m v : Nat) : (s.stage r i k m v).sec = s.sec := rfl
@[simp] theorem State.stage_pci (s : State) (r : Reg) (i k m v : Nat) : (s.stage r i k m v).pci = s.pci := rfl
@[simp] theorem State.stage_rings (s : State) (r : Reg) (i k m v : Nat) : (s.stage r i k m v).rings = s.rings := rfl
@[simp] theorem State.stage_rrRing (s : State) (r : Reg) (i k m v : Nat) : (s.stage r i k m v).rrRing = s.rrRing := rfl
@[simp] theorem State.stage_hostRx (s : State) (r : Reg) (i k m v : Nat) : (s.stage r i k m v).hostRx = s.hostRx := rfl
@[simp] theorem State.stage_p43 (s : State) (r : Reg) (i k m v : Nat) : (s.stage r i k m v).p43 = s.p43 := rfl
@[simp] theorem State.stage_i2cPtr (s : State) (r : Reg) (i k m v : Nat) : (s.stage r i k m v).i2cPtr = s.i2cPtr := rfl
@[simp] theorem State.stage_i2cAddr (s : State) (r : Reg) (i k m v : Nat) : (s.stage r i k m v).i2cAddr = s.i2cAddr := rfl
@[simp] theorem State.stage_i2cLatch (s : State) (r : Reg) (i k m v : Nat) : (s.stage r i k m v).i2cLatch = s.i2cLatch := rfl
@[simp] theorem State.stage_uart (s : State) (r : Reg) (i k m v : Nat) : (s.stage r i k m v).uart = s.uart := rfl
@[simp] theorem State.stage_dram (s : State) (r : Reg) (i k m v : Nat) : (s.stage r i k m v).dram = s.dram := rfl
@[simp] theorem State.stage_sram (s : State) (r : Reg) (i k m v : Nat) : (s.stage r i k m v).sram = s.sram := rfl
@[simp] theorem State.stage_rawW (s : State) (r : Reg) (i k m v : Nat) : (s.stage r i k m v).rawW = s.rawW := rfl
@[simp] theorem State.stage_wild (s : State) (r : Reg) (i k m v : Nat) : (s.stage r i k m v).wild = s.wild := rfl
@[simp] theorem State.stage_dramSide (s : State) (r : Reg) (i k m v : Nat) : (s.stage r i k m v).dramSide = s.dramSide := rfl
@[simp] theorem State.stage_perfSkid (s : State) (r : Reg) (i k m v : Nat) : (s.stage r i k m v).perfSkid = s.perfSkid := rfl
@[simp] theorem State.stage_pwr (s : State) (r : Reg) (i k m v : Nat) : (s.stage r i k m v).pwr = s.pwr := rfl
@[simp] theorem State.stage_pins (s : State) (r : Reg) (i k m v : Nat) : (s.stage r i k m v).pins = s.pins := rfl
@[simp] theorem State.stage_startCfg (s : State) (r : Reg) (i k m v : Nat) : (s.stage r i k m v).startCfg = s.startCfg := rfl
@[simp] theorem State.stage_tries (s : State) (r : Reg) (i k m v : Nat) : (s.stage r i k m v).tries = s.tries := rfl
@[simp] theorem State.stage_proofAt (s : State) (r : Reg) (i k m v : Nat) : (s.stage r i k m v).proofAt = s.proofAt := rfl
@[simp] theorem State.stage_flt (s : State) (r : Reg) (i k m v : Nat) : (s.stage r i k m v).flt = s.flt := rfl
@[simp] theorem State.stage_journal (s : State) (r : Reg) (i k m v : Nat) : (s.stage r i k m v).journal = s.journal := rfl
@[simp] theorem State.stage_irq (s : State) (r : Reg) (i k m v : Nat) : (s.stage r i k m v).irq = s.irq := rfl
@[simp] theorem State.stage_clock (s : State) (r : Reg) (i k m v : Nat) : (s.stage r i k m v).clock = s.clock := rfl
@[simp] theorem State.stage_gpio (s : State) (r : Reg) (i k m v : Nat) : (s.stage r i k m v).gpio = s.gpio := rfl
@[simp] theorem State.stage_phxWild (s : State) (r : Reg) (i k m v : Nat) : (s.stage r i k m v).phxWild = s.phxWild := rfl
@[simp] theorem State.stage_streams (s : State) (r : Reg) (i k m v : Nat) : (s.stage r i k m v).streams = s.streams := rfl
@[simp] theorem State.stage_harmAt (s : State) (r : Reg) (i k m v : Nat) : (s.stage r i k m v).harmAt = s.harmAt := rfl
@[simp] theorem State.stage_recs (s : State) (r : Reg) (i k m v : Nat) : (s.stage r i k m v).recs = s.recs := rfl
@[simp] theorem State.stage_recRows (s : State) (r : Reg) (i k m v : Nat) : (s.stage r i k m v).recRows = s.recRows := rfl
@[simp] theorem State.stage_pmuNext (s : State) (r : Reg) (i k m v : Nat) : (s.stage r i k m v).pmuNext = s.pmuNext := rfl
@[simp] theorem State.stage_pmuDue (s : State) (r : Reg) (i k m v : Nat) : (s.stage r i k m v).pmuDue = s.pmuDue := rfl
@[simp] theorem State.stage_pmuChg (s : State) (r : Reg) (i k m v : Nat) : (s.stage r i k m v).pmuChg = s.pmuChg := rfl
@[simp] theorem State.stage_pmuSrv (s : State) (r : Reg) (i k m v : Nat) : (s.stage r i k m v).pmuSrv = s.pmuSrv := rfl
@[simp] theorem State.stage_pmuConn (s : State) (r : Reg) (i k m v : Nat) : (s.stage r i k m v).pmuConn = s.pmuConn := rfl
@[simp] theorem State.stage_pmuTx (s : State) (r : Reg) (i k m v : Nat) : (s.stage r i k m v).pmuTx = s.pmuTx := rfl
@[simp] theorem State.stage_subs (s : State) (r : Reg) (i k m v : Nat) : (s.stage r i k m v).subs = s.subs := rfl
@[simp] theorem State.stage_conds (s : State) (r : Reg) (i k m v : Nat) : (s.stage r i k m v).conds = s.conds := rfl
@[simp] theorem State.stage_acts (s : State) (r : Reg) (i k m v : Nat) : (s.stage r i k m v).acts = s.acts := rfl
@[simp] theorem State.stage_gpub (s : State) (r : Reg) (i k m v : Nat) : (s.stage r i k m v).gpub = s.gpub := rfl
@[simp] theorem State.stage_evtQ (s : State) (r : Reg) (i k m v : Nat) : (s.stage r i k m v).evtQ = s.evtQ := rfl
@[simp] theorem State.stage_evtLog (s : State) (r : Reg) (i k m v : Nat) : (s.stage r i k m v).evtLog = s.evtLog := rfl
@[simp] theorem State.stage_fswQ (s : State) (r : Reg) (i k m v : Nat) : (s.stage r i k m v).fswQ = s.fswQ := rfl
@[simp] theorem State.stage_links (s : State) (r : Reg) (i k m v : Nat) : (s.stage r i k m v).links = s.links := rfl
@[simp] theorem State.stage_voq (s : State) (r : Reg) (i k m v : Nat) : (s.stage r i k m v).voq = s.voq := rfl
@[simp] theorem State.stage_cgReq (s : State) (r : Reg) (i k m v : Nat) : (s.stage r i k m v).cgReq = s.cgReq := rfl
@[simp] theorem State.stage_cgNext (s : State) (r : Reg) (i k m v : Nat) : (s.stage r i k m v).cgNext = s.cgNext := rfl
@[simp] theorem State.stage_cgAt (s : State) (r : Reg) (i k m v : Nat) : (s.stage r i k m v).cgAt = s.cgAt := rfl
@[simp] theorem State.stage_batch (s : State) (r : Reg) (i k m v : Nat) : (s.stage r i k m v).batch = s.batch := rfl
@[simp] theorem State.stage_peers (s : State) (r : Reg) (i k m v : Nat) : (s.stage r i k m v).peers = s.peers := rfl
@[simp] theorem State.stage_fdbTime (s : State) (r : Reg) (i k m v : Nat) : (s.stage r i k m v).fdbTime = s.fdbTime := rfl
@[simp] theorem State.stage_dramCh (s : State) (r : Reg) (i k m v : Nat) : (s.stage r i k m v).dramCh = s.dramCh := rfl
@[simp] theorem State.stage_pairs (s : State) (r : Reg) (i k m v : Nat) : (s.stage r i k m v).pairs = s.pairs := rfl
@[simp] theorem State.stage_pairBad (s : State) (r : Reg) (i k m v : Nat) : (s.stage r i k m v).pairBad = s.pairBad := rfl

/-! ## raise changes flt alone -/

@[simp] theorem State.raise_pending (s : State) (i : Nat) : (s.raise i).pending = s.pending := rfl
@[simp] theorem State.raise_free (s : State) (i : Nat) : (s.raise i).free = s.free := rfl
@[simp] theorem State.raise_undef (s : State) (i : Nat) : (s.raise i).undef = s.undef := rfl
@[simp] theorem State.raise_rd (s : State) (i : Nat) : (s.raise i).rd = s.rd := rfl
@[simp] theorem State.raise_now (s : State) (i : Nat) : (s.raise i).now = s.now := rfl
@[simp] theorem State.raise_regs (s : State) (i : Nat) : (s.raise i).regs = s.regs := rfl
@[simp] theorem State.raise_cmt (s : State) (i : Nat) : (s.raise i).cmt = s.cmt := rfl
@[simp] theorem State.raise_ctrs (s : State) (i : Nat) : (s.raise i).ctrs = s.ctrs := rfl
@[simp] theorem State.raise_ver (s : State) (i : Nat) : (s.raise i).ver = s.ver := rfl
@[simp] theorem State.raise_ports (s : State) (i : Nat) : (s.raise i).ports = s.ports := rfl
@[simp] theorem State.raise_pfcPause (s : State) (i : Nat) : (s.raise i).pfcPause = s.pfcPause := rfl
@[simp] theorem State.raise_pfcSent (s : State) (i : Nat) : (s.raise i).pfcSent = s.pfcSent := rfl
@[simp] theorem State.raise_frames (s : State) (i : Nat) : (s.raise i).frames = s.frames := rfl
@[simp] theorem State.raise_tails (s : State) (i : Nat) : (s.raise i).tails = s.tails := rfl
@[simp] theorem State.raise_nextFrame (s : State) (i : Nat) : (s.raise i).nextFrame = s.nextFrame := rfl
@[simp] theorem State.raise_nextHead (s : State) (i : Nat) : (s.raise i).nextHead = s.nextHead := rfl
@[simp] theorem State.raise_nextDisp (s : State) (i : Nat) : (s.raise i).nextDisp = s.nextDisp := rfl
@[simp] theorem State.raise_engines (s : State) (i : Nat) : (s.raise i).engines = s.engines := rfl
@[simp] theorem State.raise_codeLen (s : State) (i : Nat) : (s.raise i).codeLen = s.codeLen := rfl
@[simp] theorem State.raise_bankObj (s : State) (i : Nat) : (s.raise i).bankObj = s.bankObj := rfl
@[simp] theorem State.raise_codeMap (s : State) (i : Nat) : (s.raise i).codeMap = s.codeMap := rfl
@[simp] theorem State.raise_load (s : State) (i : Nat) : (s.raise i).load = s.load := rfl
@[simp] theorem State.raise_copyWin (s : State) (i : Nat) : (s.raise i).copyWin = s.copyWin := rfl
@[simp] theorem State.raise_sideQ (s : State) (i : Nat) : (s.raise i).sideQ = s.sideQ := rfl
@[simp] theorem State.raise_sideRate (s : State) (i : Nat) : (s.raise i).sideRate = s.sideRate := rfl
@[simp] theorem State.raise_exm (s : State) (i : Nat) : (s.raise i).exm = s.exm := rfl
@[simp] theorem State.raise_oldS (s : State) (i : Nat) : (s.raise i).oldS = s.oldS := rfl
@[simp] theorem State.raise_exmSw (s : State) (i : Nat) : (s.raise i).exmSw = s.exmSw := rfl
@[simp] theorem State.raise_cur (s : State) (i : Nat) : (s.raise i).cur = s.cur := rfl
@[simp] theorem State.raise_learnQ (s : State) (i : Nat) : (s.raise i).learnQ = s.learnQ := rfl
@[simp] theorem State.raise_flushQ (s : State) (i : Nat) : (s.raise i).flushQ = s.flushQ := rfl
@[simp] theorem State.raise_ageAt (s : State) (i : Nat) : (s.raise i).ageAt = s.ageAt := rfl
@[simp] theorem State.raise_rehash (s : State) (i : Nat) : (s.raise i).rehash = s.rehash := rfl
@[simp] theorem State.raise_lpm (s : State) (i : Nat) : (s.raise i).lpm = s.lpm := rfl
@[simp] theorem State.raise_tcam (s : State) (i : Nat) : (s.raise i).tcam = s.tcam := rfl
@[simp] theorem State.raise_tcamWin (s : State) (i : Nat) : (s.raise i).tcamWin = s.tcamWin := rfl
@[simp] theorem State.raise_fhLog (s : State) (i : Nat) : (s.raise i).fhLog = s.fhLog := rfl
@[simp] theorem State.raise_pol (s : State) (i : Nat) : (s.raise i).pol = s.pol := rfl
@[simp] theorem State.raise_bufs (s : State) (i : Nat) : (s.raise i).bufs = s.bufs := rfl
@[simp] theorem State.raise_quar (s : State) (i : Nat) : (s.raise i).quar = s.quar := rfl
@[simp] theorem State.raise_crcs (s : State) (i : Nat) : (s.raise i).crcs = s.crcs := rfl
@[simp] theorem State.raise_poolPtr (s : State) (i : Nat) : (s.raise i).poolPtr = s.poolPtr := rfl
@[simp] theorem State.raise_poolLow (s : State) (i : Nat) : (s.raise i).poolLow = s.poolLow := rfl
@[simp] theorem State.raise_capCnt (s : State) (i : Nat) : (s.raise i).capCnt = s.capCnt := rfl
@[simp] theorem State.raise_lookQ (s : State) (i : Nat) : (s.raise i).lookQ = s.lookQ := rfl
@[simp] theorem State.raise_queues (s : State) (i : Nat) : (s.raise i).queues = s.queues := rfl
@[simp] theorem State.raise_tx (s : State) (i : Nat) : (s.raise i).tx = s.tx := rfl
@[simp] theorem State.raise_sent (s : State) (i : Nat) : (s.raise i).sent = s.sent := rfl
@[simp] theorem State.raise_shapers (s : State) (i : Nat) : (s.raise i).shapers = s.shapers := rfl
@[simp] theorem State.raise_drr (s : State) (i : Nat) : (s.raise i).drr = s.drr := rfl
@[simp] theorem State.raise_rounds (s : State) (i : Nat) : (s.raise i).rounds = s.rounds := rfl
@[simp] theorem State.raise_gates (s : State) (i : Nat) : (s.raise i).gates = s.gates := rfl
@[simp] theorem State.raise_qtelCnt (s : State) (i : Nat) : (s.raise i).qtelCnt = s.qtelCnt := rfl
@[simp] theorem State.raise_txSa (s : State) (i : Nat) : (s.raise i).txSa = s.txSa := rfl
@[simp] theorem State.raise_rxSa (s : State) (i : Nat) : (s.raise i).rxSa = s.rxSa := rfl
@[simp] theorem State.raise_authBusy (s : State) (i : Nat) : (s.raise i).authBusy = s.authBusy := rfl
@[simp] theorem State.raise_dd (s : State) (i : Nat) : (s.raise i).dd = s.dd := rfl
@[simp] theorem State.raise_cmp (s : State) (i : Nat) : (s.raise i).cmp = s.cmp := rfl
@[simp] theorem State.raise_rcvy (s : State) (i : Nat) : (s.raise i).rcvy = s.rcvy := rfl
@[simp] theorem State.raise_bypAt (s : State) (i : Nat) : (s.raise i).bypAt = s.bypAt := rfl
@[simp] theorem State.raise_supAt (s : State) (i : Nat) : (s.raise i).supAt = s.supAt := rfl
@[simp] theorem State.raise_nodes (s : State) (i : Nat) : (s.raise i).nodes = s.nodes := rfl
@[simp] theorem State.raise_mbx (s : State) (i : Nat) : (s.raise i).mbx = s.mbx := rfl
@[simp] theorem State.raise_cpls (s : State) (i : Nat) : (s.raise i).cpls = s.cpls := rfl
@[simp] theorem State.raise_txn (s : State) (i : Nat) : (s.raise i).txn = s.txn := rfl
@[simp] theorem State.raise_lastTxn (s : State) (i : Nat) : (s.raise i).lastTxn = s.lastTxn := rfl
@[simp] theorem State.raise_lapsed (s : State) (i : Nat) : (s.raise i).lapsed = s.lapsed := rfl
@[simp] theorem State.raise_sec (s : State) (i : Nat) : (s.raise i).sec = s.sec := rfl
@[simp] theorem State.raise_pci (s : State) (i : Nat) : (s.raise i).pci = s.pci := rfl
@[simp] theorem State.raise_rings (s : State) (i : Nat) : (s.raise i).rings = s.rings := rfl
@[simp] theorem State.raise_rrRing (s : State) (i : Nat) : (s.raise i).rrRing = s.rrRing := rfl
@[simp] theorem State.raise_hostRx (s : State) (i : Nat) : (s.raise i).hostRx = s.hostRx := rfl
@[simp] theorem State.raise_p43 (s : State) (i : Nat) : (s.raise i).p43 = s.p43 := rfl
@[simp] theorem State.raise_i2cPtr (s : State) (i : Nat) : (s.raise i).i2cPtr = s.i2cPtr := rfl
@[simp] theorem State.raise_i2cAddr (s : State) (i : Nat) : (s.raise i).i2cAddr = s.i2cAddr := rfl
@[simp] theorem State.raise_i2cLatch (s : State) (i : Nat) : (s.raise i).i2cLatch = s.i2cLatch := rfl
@[simp] theorem State.raise_uart (s : State) (i : Nat) : (s.raise i).uart = s.uart := rfl
@[simp] theorem State.raise_dram (s : State) (i : Nat) : (s.raise i).dram = s.dram := rfl
@[simp] theorem State.raise_sram (s : State) (i : Nat) : (s.raise i).sram = s.sram := rfl
@[simp] theorem State.raise_rawW (s : State) (i : Nat) : (s.raise i).rawW = s.rawW := rfl
@[simp] theorem State.raise_wild (s : State) (i : Nat) : (s.raise i).wild = s.wild := rfl
@[simp] theorem State.raise_dramSide (s : State) (i : Nat) : (s.raise i).dramSide = s.dramSide := rfl
@[simp] theorem State.raise_perfSkid (s : State) (i : Nat) : (s.raise i).perfSkid = s.perfSkid := rfl
@[simp] theorem State.raise_pwr (s : State) (i : Nat) : (s.raise i).pwr = s.pwr := rfl
@[simp] theorem State.raise_pins (s : State) (i : Nat) : (s.raise i).pins = s.pins := rfl
@[simp] theorem State.raise_startCfg (s : State) (i : Nat) : (s.raise i).startCfg = s.startCfg := rfl
@[simp] theorem State.raise_tries (s : State) (i : Nat) : (s.raise i).tries = s.tries := rfl
@[simp] theorem State.raise_proofAt (s : State) (i : Nat) : (s.raise i).proofAt = s.proofAt := rfl
@[simp] theorem State.raise_journal (s : State) (i : Nat) : (s.raise i).journal = s.journal := rfl
@[simp] theorem State.raise_irq (s : State) (i : Nat) : (s.raise i).irq = s.irq := rfl
@[simp] theorem State.raise_clock (s : State) (i : Nat) : (s.raise i).clock = s.clock := rfl
@[simp] theorem State.raise_gpio (s : State) (i : Nat) : (s.raise i).gpio = s.gpio := rfl
@[simp] theorem State.raise_phxWild (s : State) (i : Nat) : (s.raise i).phxWild = s.phxWild := rfl
@[simp] theorem State.raise_streams (s : State) (i : Nat) : (s.raise i).streams = s.streams := rfl
@[simp] theorem State.raise_harmAt (s : State) (i : Nat) : (s.raise i).harmAt = s.harmAt := rfl
@[simp] theorem State.raise_recs (s : State) (i : Nat) : (s.raise i).recs = s.recs := rfl
@[simp] theorem State.raise_recRows (s : State) (i : Nat) : (s.raise i).recRows = s.recRows := rfl
@[simp] theorem State.raise_pmuNext (s : State) (i : Nat) : (s.raise i).pmuNext = s.pmuNext := rfl
@[simp] theorem State.raise_pmuDue (s : State) (i : Nat) : (s.raise i).pmuDue = s.pmuDue := rfl
@[simp] theorem State.raise_pmuChg (s : State) (i : Nat) : (s.raise i).pmuChg = s.pmuChg := rfl
@[simp] theorem State.raise_pmuSrv (s : State) (i : Nat) : (s.raise i).pmuSrv = s.pmuSrv := rfl
@[simp] theorem State.raise_pmuConn (s : State) (i : Nat) : (s.raise i).pmuConn = s.pmuConn := rfl
@[simp] theorem State.raise_pmuTx (s : State) (i : Nat) : (s.raise i).pmuTx = s.pmuTx := rfl
@[simp] theorem State.raise_subs (s : State) (i : Nat) : (s.raise i).subs = s.subs := rfl
@[simp] theorem State.raise_conds (s : State) (i : Nat) : (s.raise i).conds = s.conds := rfl
@[simp] theorem State.raise_acts (s : State) (i : Nat) : (s.raise i).acts = s.acts := rfl
@[simp] theorem State.raise_gpub (s : State) (i : Nat) : (s.raise i).gpub = s.gpub := rfl
@[simp] theorem State.raise_evtQ (s : State) (i : Nat) : (s.raise i).evtQ = s.evtQ := rfl
@[simp] theorem State.raise_evtLog (s : State) (i : Nat) : (s.raise i).evtLog = s.evtLog := rfl
@[simp] theorem State.raise_fswQ (s : State) (i : Nat) : (s.raise i).fswQ = s.fswQ := rfl
@[simp] theorem State.raise_links (s : State) (i : Nat) : (s.raise i).links = s.links := rfl
@[simp] theorem State.raise_voq (s : State) (i : Nat) : (s.raise i).voq = s.voq := rfl
@[simp] theorem State.raise_cgReq (s : State) (i : Nat) : (s.raise i).cgReq = s.cgReq := rfl
@[simp] theorem State.raise_cgNext (s : State) (i : Nat) : (s.raise i).cgNext = s.cgNext := rfl
@[simp] theorem State.raise_cgAt (s : State) (i : Nat) : (s.raise i).cgAt = s.cgAt := rfl
@[simp] theorem State.raise_batch (s : State) (i : Nat) : (s.raise i).batch = s.batch := rfl
@[simp] theorem State.raise_peers (s : State) (i : Nat) : (s.raise i).peers = s.peers := rfl
@[simp] theorem State.raise_fdbTime (s : State) (i : Nat) : (s.raise i).fdbTime = s.fdbTime := rfl
@[simp] theorem State.raise_dramCh (s : State) (i : Nat) : (s.raise i).dramCh = s.dramCh := rfl
@[simp] theorem State.raise_pairs (s : State) (i : Nat) : (s.raise i).pairs = s.pairs := rfl
@[simp] theorem State.raise_pairBad (s : State) (i : Nat) : (s.raise i).pairBad = s.pairBad := rfl

/-! ## Registers -/

/-- Reading the word just written. -/
theorem State.reg_setReg_self (s : State) (r : Reg) (i k v : Nat) :
    (s.setReg r i k v).reg r i k = v % 4294967296 := by
  simp only [State.reg, State.setReg]
  rw [sget_sput_self]
  simp [w32, BitVec.toNat_ofNat]

/-- A register write leaves every word kept elsewhere. -/
theorem State.reg_setReg_ne (s : State) (r q : Reg) (i j k l v : Nat) (hk : rkey q j l ≠ rkey r i k) :
    (s.setReg r i k v).reg q j l = s.reg q j l := by
  simp only [State.reg, State.setReg]
  rw [sget_sput_ne _ _ _ _ _ _ hk]

/-- A register write keeps the store of registers in order. -/
theorem State.setReg_wf (s : State) (r : Reg) (i k v : Nat) (h : sparseWf s.regs = true) : sparseWf (s.setReg r i k v).regs = true := by
  simp only [State.setReg, sput]
  split
  · exact risingFrom_sdel _ 0 _ h
  · exact risingFrom_sset _ 0 _ _ h (Nat.zero_le _)

/-- The counter just added to. -/
theorem State.ctr_add_self (s : State) (c : Ctr) (i n : Nat) :
    (s.add c i n).ctr c i = (s.ctr c i + n) % 18446744073709551616 := by
  simp only [State.ctr, State.add]
  rw [sget_sput_self]

/-- A counter leaves every other one. -/
theorem State.ctr_add_ne (s : State) (c d : Ctr) (i j n : Nat) (hk : ckey d j ≠ ckey c i) :
    (s.add c i n).ctr d j = s.ctr d j := by
  simp only [State.ctr, State.add]
  rw [sget_sput_ne _ _ _ _ _ _ hk]

end Sys2Proof.Machine
end

