-- ==== Sys2Proof/Laws/Steps.lean ====
section
/-! SUPPORT. What a step and a mailbox command can do, once: the lemmas proofs about single commands cite. -/
namespace Sys2Proof.Machine
open Safety

/-- A step with a command in front is the command's effect on the rest. -/
theorem step_cons (s : State) (c : Instr) (t : List Instr) (h : s.pending = c :: t) : step s = exec c { s with pending := t } := by
  simp [step, h]

/-- A step of an idle module changes nothing. -/
theorem step_nil (s : State) (h : s.pending = []) : step s = .next s := by
  simp [step, h]

/-- Every answer ends settled. -/
theorem finish_eq (s : State) : finish s = .next s.settle := rfl

/-- After a step no raised line waits. -/
theorem settle_latched (s : State) : Latched s.settle := rfl

/-- A command that is accepted answers what its own part does, from the state its execution begins in. -/
theorem runCmdThen_accepts (c : Cmd) (dt : Nat) (r : Req) (s : State) (body : State → Reply) (after : Nat → State → State)
    (h : Accepts c r (s.advance dt)) :
    runCmdThen c dt r s body after = (match body (begun c r (s.advance dt)) with
      | .done st t result out => .next (State.settle (after st (t.complete r ((fetched r (s.advance dt)).cplKey c r) st result out)))
      | .wait t w => .next (waiting r t w)) := by
  obtain ⟨h1, h2, h3, h4, h5, h6, h7, h8, h9, h10⟩ := h
  unfold runCmdThen
  simp only [h1, h10, Option.isSome_none, Bool.not_true, Bool.false_eq_true, if_false, if_neg h2]
  have e : (fetched r (s.advance dt)) = (s.advance dt).setFld F.MBX_RING.REQ_CI r.ch (((s.advance dt).reqCi r.ch + 1) % 65536) := rfl
  rw [← e]
  simp only [h3, h4, h5, Bool.not_true, Bool.false_eq_true, if_false]
  generalize hx : ((fetched r (s.advance dt)).acceptCmd c r).txnCheck r = x
  obtain ⟨a, b⟩ := x
  have hb : begun c r (s.advance dt) = b := by simp [begun, hx]
  rw [hx] at h6
  rw [hb] at h7 h9
  simp only at h6
  subst h6
  simp only [h7, h8, h9, Bool.not_true, Bool.false_eq_true, if_false, hb]
  cases body b <;> rfl

/-- The same of a command that nothing follows. -/
theorem runCmd_accepts (c : Cmd) (dt : Nat) (r : Req) (s : State) (body : State → Reply) (h : Accepts c r (s.advance dt)) :
    runCmd c dt r s body = (match body (begun c r (s.advance dt)) with
      | .done st t result out => .next (answer c r (s.advance dt) t st result out)
      | .wait t w => .next (waiting r t w)) :=
  runCmdThen_accepts c dt r s body (fun _ s => s) h

/-- A command whose own part completes at once. -/
theorem runCmd_done (c : Cmd) (dt : Nat) (r : Req) (s : State) (body : State → Reply) (st result : Nat) (t : State) (out : Bytes)
    (h : Accepts c r (s.advance dt)) (hb : body (begun c r (s.advance dt)) = .done st t result out) :
    runCmd c dt r s body = .next (answer c r (s.advance dt) t st result out) := by
  rw [runCmd_accepts c dt r s body h, hb]

/-- A command whose own part waits. -/
theorem runCmd_wait (c : Cmd) (dt : Nat) (r : Req) (s : State) (body : State → Reply) (t : State) (w : Wait)
    (h : Accepts c r (s.advance dt)) (hb : body (begun c r (s.advance dt)) = .wait t w) :
    runCmd c dt r s body = .next (waiting r t w) := by
  rw [runCmd_accepts c dt r s body h, hb]

/-- A command that stages, in a transaction or with none open: its body runs where its records go. -/
theorem staging_done (r : Req) (b : State) (body : State → Reply) (t : State) (result : Nat) (out : Bytes)
    (h : r.txn ≠ 0 ∨ b.txn = none) (hb : body (stageFrom r b) = .done 0 t result out) :
    staging r b true body = if r.txn = 0 then .wait t (.commitDone result out) else .done 0 t result out := by
  unfold staging
  unfold stageFrom at hb
  by_cases e : r.txn = 0
  · have h : b.txn = none := h.resolve_left fun x => x e
    rw [if_pos e] at hb
    unfold owned at hb
    rw [if_neg (by simp [e]), if_neg (by simp [h])]
    simp [e, hb]
  · rw [if_neg e] at hb
    simp [e, hb]

/-- One that fails changes nothing. -/
theorem staging_fail (r : Req) (b : State) (body : State → Reply) (st : Nat) (t : State) (result : Nat) (out : Bytes)
    (h : r.txn ≠ 0 ∨ b.txn = none) (hs : st ≠ 0) (hb : body (stageFrom r b) = .done st t result out) :
    staging r b true body = .done st b result out := by
  unfold staging
  unfold stageFrom at hb
  by_cases e : r.txn = 0
  · have h : b.txn = none := h.resolve_left fun x => x e
    rw [if_pos e] at hb
    unfold owned at hb
    rw [if_neg (by simp [e]), if_neg (by simp [h])]
    simp [e, hb, hs]
  · rw [if_neg e] at hb
    simp [e, hb, hs]

/-- One whose body waits. -/
theorem staging_wait (r : Req) (b : State) (body : State → Reply) (t : State) (w : Wait)
    (h : r.txn ≠ 0 ∨ b.txn = none) (hb : body (stageFrom r b) = .wait t w) : staging r b true body = .wait t w := by
  unfold staging
  unfold stageFrom at hb
  by_cases e : r.txn = 0
  · have h : b.txn = none := h.resolve_left fun x => x e
    rw [if_pos e] at hb
    unfold owned at hb
    rw [if_neg (by simp [e]), if_neg (by simp [h])]
    simp [e, hb]
  · rw [if_neg e] at hb
    simp [e, hb]

/-- A mailbox command always answers a settled next state. -/
theorem runCmdThen_next (c : Cmd) (dt : Nat) (r : Req) (s : State) (body : State → Reply) (after : Nat → State → State) :
    ∃ t : State, runCmdThen c dt r s body after = .next t.settle := by
  unfold runCmdThen finish
  dsimp only
  repeat' split
  all_goals exact ⟨_, rfl⟩

theorem runCmd_next (c : Cmd) (dt : Nat) (r : Req) (s : State) (body : State → Reply) :
    ∃ t : State, runCmd c dt r s body = .next t.settle :=
  runCmdThen_next c dt r s body _

/-- The bit that asks for readback is set in the argument CONFIG_READBACK sends. -/
theorem readback_bit (a : BitVec 32) : bit (a ||| 0x80000000).toNat 31 = true := by
  simp only [bit, BitVec.toNat_or, Nat.testBit_or, Bool.or_eq_true]
  exact .inr (by decide)

/-- A mailbox command is one body run on a request that passed every check, and at most one effect after its completion. -/
theorem mailboxRow_exec (i : Instr) (c : Cmd) (dt : Nat) (r : Req) (s : State) (h : mailboxRow i = some (c, dt, r)) :
    ∃ body after, exec i s = runCmdThen c dt r s body after := by
  unfold mailboxRow at h
  split at h
  all_goals first
    | (injection h with h; injection h with h1 h; injection h with h2 h3; subst h1 h2 h3
       simp only [exec, execConfigReadback, cfgRun, runCmd, readback_bit, execMbxNop, execGetInfo, execTxnBegin, execBatchTxnBegin, execTxnCommit, execTxnAbort, execSetLatencyBudget, execPwrStatus,
         execPortConfig, execPortCounters, execCounterRead, execLoadRecipe, execExmTableConfig, execExmWrite, execExmSearch, execTableNext,
         execFlushByPort, execLpmWrite, execLpmSearch, execTcamWrite, execTcamRead, execPolConfig, execQciConfig, execRwWrite,
         execMacsecConfig, execAdmConfig, execMcGroupWrite, execCapRingConfig, execBufUnquarantine, execSchedConfig, execGclWrite, execQtelConfig,
         execPredPairConfig, execPredRcvyConfig, execTimeConfig, execTimeStatusCmd, execPhxStreamConfig, execPhxHarmConfig, execPmuConfig, execPmuServer,
         execRecConfig, execRecTrigger, execRecRelease, execRecRead, execEvtConfig, execEvtResetLatch, execEvtLogRead, execFabConfig,
         execFabStatus, execFaultConfig, execForceSafe, execUnfence, execJournalRead, execSessionBegin, execSessionFinish, execSessionClose,
         execSecQuote, execSecCert, execSecExtend, execOperatorEnrol, execOperatorRemove, execProvision, execTransferOwner, execSecLifecycle,
         execSecDebugChallenge, execSecDebugUnlock, execFwUpdate, execFwTrial, execFwCommit, execMacsecCakInstall, execGkeyConfig, execSecPolicy,
         execSecPolicyRead, execRegRead, execRegWrite, execMemRead, execMemWrite, execExmWriteX, execExmTableConfigX, execTcamWriteX,
         execBufAlloc, execBufFree]
       exact ⟨_, _, rfl⟩)
    | exact absurd h (by simp)

end Sys2Proof.Machine
end

