-- ==== Sys2Proof/Laws/Frames.lean ====
section
/-! SUPPORT. What interrupt signals, memory writes and performance events leave unchanged, and how the sets and the claim choose. -/
namespace Sys2Proof.Machine
open Safety

theorem irqSettle_frame (s : State) : s.irqSettle = { s with irq := s.irqSettle.irq } := rfl
theorem irqEdge_frame (s : State) (i : Nat) : (s.irqEdge i).now = s.now ∧ (s.irqEdge i).clock = s.clock ∧ (s.irqEdge i).pending = s.pending ∧ (s.irqEdge i).mbx = s.mbx ∧ (s.irqEdge i).sec = s.sec ∧
    (s.irqEdge i).txn = s.txn ∧ (s.irqEdge i).frames = s.frames ∧ (s.irqEdge i).flt = s.flt ∧ (s.irqEdge i).regs = s.regs ∧ (s.irqEdge i).cpls = s.cpls := by
  unfold State.irqEdge State.irqRelease State.bump State.add
  dsimp only
  by_cases h : s.irq.pend.contains i = true
  · rw [if_pos h]; (repeat' split) <;> exact ⟨rfl, rfl, rfl, rfl, rfl, rfl, rfl, rfl, rfl, rfl⟩
  · rw [if_neg h]; (repeat' split) <;> exact ⟨rfl, rfl, rfl, rfl, rfl, rfl, rfl, rfl, rfl, rfl⟩
theorem irqSignal_frame (s : State) (i : Nat) (b : Bool) : (s.irqSignal i b).now = s.now ∧ (s.irqSignal i b).clock = s.clock ∧ (s.irqSignal i b).pending = s.pending ∧ (s.irqSignal i b).mbx = s.mbx ∧ (s.irqSignal i b).sec = s.sec ∧
    (s.irqSignal i b).txn = s.txn ∧ (s.irqSignal i b).frames = s.frames ∧ (s.irqSignal i b).flt = s.flt ∧ (s.irqSignal i b).regs = s.regs ∧ (s.irqSignal i b).cpls = s.cpls := by
  unfold State.irqSignal
  dsimp only
  split
  · exact ⟨rfl, rfl, rfl, rfl, rfl, rfl, rfl, rfl, rfl, rfl⟩
  · split
    · have := irqEdge_frame { s with irq := { s.irq with lvl := mark s.irq.lvl i b } } i
      rw [irqSettle_frame]; exact this
    · exact ⟨rfl, rfl, rfl, rfl, rfl, rfl, rfl, rfl, rfl, rfl⟩
theorem pulse_frame (s : State) (i : Nat) : (s.pulse i).now = s.now ∧ (s.pulse i).clock = s.clock ∧ (s.pulse i).pending = s.pending ∧ (s.pulse i).mbx = s.mbx ∧ (s.pulse i).sec = s.sec ∧
    (s.pulse i).txn = s.txn ∧ (s.pulse i).frames = s.frames ∧ (s.pulse i).flt = s.flt ∧ (s.pulse i).regs = s.regs ∧ (s.pulse i).cpls = s.cpls := by
  have a := irqSignal_frame s i true
  have b := irqSignal_frame (s.irqSignal i true) i false
  unfold State.pulse
  obtain ⟨a1,a2,a3,a4,a5,a6,a7,a8,a9,a0⟩ := a
  obtain ⟨b1,b2,b3,b4,b5,b6,b7,b8,b9,b0⟩ := b
  exact ⟨b1.trans a1, b2.trans a2, b3.trans a3, b4.trans a4, b5.trans a5, b6.trans a6, b7.trans a7, b8.trans a8, b9.trans a9, b0.trans a0⟩

/-- Counter pairs alone change when the policers' pairs are added to. -/
theorem countPairs_frame (n : Nat) : ∀ (l : List Nat) (s : State), s.countPairs l n = { s with pairs := (s.countPairs l n).pairs } := by
  intro l; induction l with
  | nil => intro s; rfl
  | cons a t ih =>
    intro s
    have h : s.pairAdd a n = { s with pairs := (s.pairAdd a n).pairs } := by unfold State.pairAdd; split <;> rfl
    simp only [State.countPairs, List.foldl_cons] at *
    rw [h, ih]

def Keep (s t : State) : Prop := t.now = s.now ∧ t.clock = s.clock ∧ t.pending = s.pending ∧ t.mbx = s.mbx ∧ t.sec = s.sec ∧ t.txn = s.txn ∧ t.frames = s.frames ∧ t.flt = s.flt ∧ t.irq = s.irq
theorem Keep.refl {s : State} : Keep s s := ⟨rfl, rfl, rfl, rfl, rfl, rfl, rfl, rfl, rfl⟩
theorem Keep.trans {a b c : State} (h : Keep a b) (k : Keep b c) : Keep a c := by
  obtain ⟨a1,a2,a3,a4,a5,a6,a7,a8,a9⟩ := h
  obtain ⟨b1,b2,b3,b4,b5,b6,b7,b8,b9⟩ := k
  exact ⟨b1.trans a1, b2.trans a2, b3.trans a3, b4.trans a4, b5.trans a5, b6.trans a6, b7.trans a7, b8.trans a8, b9.trans a9⟩
theorem keep_foldl {α : Type} (f : State → α → State) (h : ∀ s a, Keep s (f s a)) : ∀ (l : List α) (s : State), Keep s (l.foldl f s) := by
  intro l; induction l with
  | nil => intro s; exact Keep.refl
  | cons a t ih => intro s; exact (h s a).trans (ih _)
theorem keep_dramAsk (s : State) (c : Nat) (w : Bool) (a n : Nat) (o : Option Nat) : Keep s (s.dramAsk c w a n o) := ⟨rfl, rfl, rfl, rfl, rfl, rfl, rfl, rfl, rfl⟩
theorem keep_dramWrite (s : State) (c a : Nat) (b : Bytes) : Keep s (s.dramWrite c a b) := by
  unfold State.dramWrite
  dsimp only
  generalize memWriteBytes _ _ _ = d
  generalize sideBand _ _ _ = x
  generalize List.flatMap _ _ = v
  exact Keep.trans (b := { s with dram := d, dramSide := x, wild := v }) ⟨rfl, rfl, rfl, rfl, rfl, rfl, rfl, rfl, rfl⟩ (keep_dramAsk _ _ _ _ _ _)
theorem keep_setReg {s t : State} (h : Keep s t) (r : Reg) (i k v : Nat) : Keep s (t.setReg r i k v) := h
theorem keep_bump (s : State) (c : Ctr) (i : Nat) : Keep s (s.bump c i) := ⟨rfl, rfl, rfl, rfl, rfl, rfl, rfl, rfl, rfl⟩
theorem keep_ringRoom (s : State) (r : Reg) (i : Nat) (full : Bool) (n rdx : Nat) (o : Ctr) : Keep s (s.ringRoom r i full n rdx o) := by
  unfold State.ringRoom
  split
  · exact ⟨rfl, rfl, rfl, rfl, rfl, rfl, rfl, rfl, rfl⟩
  · exact Keep.refl
theorem keep_ringStore (s : State) (r : Reg) (i : Nat) (b : Bytes) (n wr : Nat) : Keep s (s.ringStore r i b n wr) :=
  keep_setReg (keep_dramWrite _ _ _ _) _ _ _ _
theorem keep_ite {c : Prop} [Decidable c] {s a b : State} (h : Keep s a) (k : Keep s b) : Keep s (if c then a else b) := by
  split
  · exact h
  · exact k
theorem keep_capCnt {s t : State} (x : Sparse (Nat × Nat × Nat)) (h : Keep s t) : Keep s { t with capCnt := x } := h
theorem keep_ringPut (s : State) (r : Reg) (i : Nat) (b : Bytes) (x : Bool) (d o : Ctr) (w tt tl : Nat) : Keep s (s.ringPut r i b x d o w tt tl) := by
  unfold State.ringPut
  dsimp only
  generalize sput (α := Nat × Nat × Nat) s.capCnt _ _ _ = m
  generalize sput (α := Nat × Nat × Nat) (sput (α := Nat × Nat × Nat) _ _ _ _) _ _ _ = m'
  have kb : Keep s ({ s with capCnt := m } : State) := keep_capCnt _ Keep.refl
  refine keep_ite Keep.refl (keep_ite (kb.trans (keep_bump _ _ _)) (keep_ite kb (keep_ite (kb.trans (keep_bump _ _ _)) (Keep.trans ?_ (keep_ringStore _ _ _ _ _ _)))))
  exact keep_capCnt _ (kb.trans (keep_ringRoom _ _ _ _ _ _ _))
theorem keep_perfPut (s : State) (b : Bytes) : Keep s (s.perfPut b) := keep_ringPut _ _ _ _ _ _ _ _ _ _
theorem keep_perfSkid {s t : State} (l : List PerfSkid) (h : Keep s t) : Keep s { t with perfSkid := l } := h
theorem keep_perfSample (s : State) (n : Nat) (e : PerfCtx) : Keep s (s.perfSample n e) := by
  unfold State.perfSample
  refine keep_ite (keep_perfPut _ _) ?_
  have k : Keep s s.fresh.2 := Keep.refl
  exact keep_ite (k.trans (keep_perfPut _ _)) (keep_perfSkid _ k)
theorem keep_perfSeen (s : State) (n k : Nat) (e : PerfCtx) : Keep s (s.perfSeen n k e) := by
  unfold State.perfSeen
  exact Keep.trans (keep_perfSkid _ Keep.refl) (keep_foldl _ (fun s x => keep_perfPut _ _) _ _)
theorem keep_perfStep (n : Nat) (e : PerfCtx) : ∀ (k v : Nat) (s : State), Keep s (State.perfStep n e k v s) := by
  intro k; induction k with
  | zero => intro v s; exact Keep.refl
  | succ k ih =>
    intro v s
    exact keep_ite Keep.refl (keep_ite Keep.refl ((Keep.trans (b := s.setPerf n _) Keep.refl (keep_perfSample _ _ _)).trans (ih _ _)))
theorem keep_perfCount (s : State) (n k : Nat) (e : PerfCtx) : Keep s (s.perfCount n k e) :=
  (keep_perfSeen _ _ _ _).trans (keep_perfStep _ _ _ _ _)
theorem keep_perfAdd (s : State) (n k : Nat) (e : PerfCtx) : Keep s (s.perfAdd n k e) :=
  keep_ite ((keep_perfCount _ _ _ _).trans (keep_perfCount _ _ _ _)) (keep_perfCount _ _ _ _)
theorem keep_perfEv (s : State) (n k a b c d e : Nat) : Keep s (s.perfEv n k a b c d e) := by
  unfold State.perfEv
  exact keep_foldl _ (fun s x => keep_perfAdd _ _ _ _) _ _
theorem keep_perfLate (s : State) : Keep { s with perfSkid := s.perfLate.perfSkid } s.perfLate := by
  unfold State.perfLate
  exact Keep.trans (b := { s with perfSkid := _ }) Keep.refl (keep_foldl _ (fun s x => keep_perfPut _ _) _ _)

theorem any_sset {α : Type} (m : Sparse α) (i : Nat) (x : α) (p : Nat × α → Bool) (h : p (i, x) = true) : (sset m i x).any p = true := by
  induction m with
  | nil => simp [sset, h]
  | cons e t ih =>
    obtain ⟨k, v⟩ := e
    simp only [sset]
    split
    · simp [h]
    · split
      · simp [h]
      · simp [ih]
theorem mem_ins (l : List Nat) (i j : Nat) : j ∈ ins l i ↔ j = i ∨ j ∈ l := by
  induction l with
  | nil => simp [ins]
  | cons k t ih =>
    simp only [ins]
    split
    · subst_vars; simp
    · split
      · simp
      · simp [ih]; grind
theorem mem_foldl_ins (l : List Nat) : ∀ (m : List Nat) (j : Nat), j ∈ l.foldl ins m ↔ j ∈ l ∨ j ∈ m := by
  induction l with
  | nil => simp
  | cons a t ih => intro m j; simp [ih, mem_ins]; grind
theorem best_spec (p : Nat → Nat) (l : List Nat) : ∀ b : Option Nat, ∃ o, l.foldl (fun b i => match b with
    | none => some i
    | some j => if p i > p j || (p i == p j && i < j) then some i else some j) b = o ∧
    (o = none → b = none ∧ l = []) ∧ (∀ i, o = some i → (i ∈ l ∨ b = some i) ∧ (∀ j, j ∈ l ∨ b = some j → p j < p i ∨ (p j = p i ∧ i ≤ j))) := by
  induction l with
  | nil => intro b; refine ⟨b, rfl, fun h => ⟨h, rfl⟩, ?_⟩; intro i hi; subst hi; simp
  | cons a t ih =>
    intro b
    simp only [List.foldl]
    cases b with
    | none =>
      obtain ⟨o, h1, h2, h3⟩ := ih (some a)
      refine ⟨o, h1, fun h => absurd (h2 h).1 (by simp), ?_⟩
      intro i hi
      have := h3 i hi
      simp only [Option.some.injEq, List.mem_cons] at this ⊢
      grind
    | some j =>
      dsimp only
      split
      · rename_i hc
        obtain ⟨o, h1, h2, h3⟩ := ih (some a)
        refine ⟨o, h1, fun h => absurd (h2 h).1 (by simp), ?_⟩
        intro i hi
        have := h3 i hi
        have hc' : p j < p a ∨ (p a = p j ∧ a < j) := by
          simp only [Bool.or_eq_true, decide_eq_true_eq, Bool.and_eq_true, beq_iff_eq] at hc; omega
        obtain ⟨q1, q2⟩ := this
        refine ⟨?_, ?_⟩
        · rcases q1 with q | q
          · exact .inl (List.mem_cons_of_mem _ q)
          · left; simp at q; simp [q]
        · intro x hx
          rcases hx with hx | hx
          · rcases List.mem_cons.mp hx with hx | hx
            · subst hx; exact q2 x (.inr rfl)
            · exact q2 x (.inl hx)
          · simp at hx; subst hx; have := q2 a (.inr rfl); omega
      · rename_i hc
        obtain ⟨o, h1, h2, h3⟩ := ih (some j)
        refine ⟨o, h1, fun h => absurd (h2 h).1 (by simp), ?_⟩
        intro i hi
        have := h3 i hi
        have hc' : p a < p j ∨ (p a = p j ∧ j ≤ a) := by
          simp only [Bool.or_eq_true, decide_eq_true_eq, Bool.and_eq_true, beq_iff_eq] at hc; omega
        obtain ⟨q1, q2⟩ := this
        refine ⟨?_, ?_⟩
        · rcases q1 with q | q
          · exact .inl (List.mem_cons_of_mem _ q)
          · exact .inr q
        · intro x hx
          rcases hx with hx | hx
          · rcases List.mem_cons.mp hx with hx | hx
            · subst hx; have := q2 j (.inr rfl); omega
            · exact q2 x (.inl hx)
          · exact q2 x (.inr hx)
theorem sfind_mem {α : Type} (m : Sparse α) (k : Nat) (v : α) (h : sfind m k = some v) : (k, v) ∈ m := by
  induction m with
  | nil => simp [sfind] at h
  | cons e t ih =>
    obtain ⟨a, b⟩ := e
    simp only [sfind] at h
    split at h
    · simp_all
    · exact List.mem_cons_of_mem _ (ih h)
theorem deliv_cand (u : State) (t j : Nat) (hj : j < 1024) (h : u.irqDeliverable t j = true) : j ∈ u.irqCands := by
  simp only [State.irqDeliverable, State.irqReadyFor, Bool.and_eq_true] at h
  obtain ⟨⟨⟨⟨⟨⟨⟨h1, h2⟩, h3⟩, h4⟩, h5⟩, h6⟩, h7⟩, h8⟩ := h
  unfold State.irqCands
  rw [mem_foldl_ins]
  left
  by_cases hw : j ∈ (u.written .IRQ_SRC).map (·.1)
  · exact List.mem_append_right _ hw
  · have hn : sfind u.regs (rkey .IRQ_SRC j 0) = none := by
      cases hx : sfind u.regs (rkey .IRQ_SRC j 0) with
      | none => rfl
      | some v =>
        exfalso; apply hw
        have hm := sfind_mem _ _ _ hx
        simp only [State.written, List.map_map, List.mem_map, List.mem_filter]
        refine ⟨_, ⟨hm, ?_⟩, ?_⟩
        · simp only [rkey, beq_iff_eq]; omega
        · simp only [rkey, Function.comp]; omega
    have hr : u.reg .IRQ_SRC j 0 = irqSrcReset j % 4294967296 := by
      simp only [State.reg, sget, hn, Reg.resetNat]; simp [w32]
    by_cases h32 : j < 32
    · apply List.mem_append_left; apply List.mem_append_left
      simp only [State.irqPending, State.irqSense, h32, if_true] at h1
      simpa using h1
    · exfalso
      simp only [State.flag, State.fld, F.IRQ_SRC.ENABLE, hr, irqSrcReset, h32] at h2
      revert h2
      simp only [if_false]
      split <;> (try split) <;> decide

end Sys2Proof.Machine
end

