-- ==== Sys2Proof/Laws/Recipe.lean ====
section
/-! SUPPORT. What one recipe row does, once: the lemmas proofs about single recipe operations cite. -/
namespace Sys2Proof.Machine
open Safety

/-- A row whose operation the engine's next word names, with its condition true: the boundary after the operation. -/
theorem recipeRow_carries (oper dt : Nat) (pl : Fin 4) (k : Fin 8) (s : State) (run : RCtx → Eff) (e : Engine) (f : Frame)
    (w : RWord) (d : Disp) (h : Fetches (s.advance dt) pl k e f w d) (hc : e.cond w.cond = some true) (ho : d.oper = oper)
    (hd : operDefined oper = true) : recipeRow oper dt pl k s run =
      .next (State.settle ((s.advance dt).boundary pl k e.frame e f (run ⟨s.advance dt, pl, e, f, w, d⟩))) := by
  obtain ⟨h1, h2, h3, h4, h5, h6, h7, h8⟩ := h
  subst h6 h7 ho
  simp only [recipeRow, h1, h2, h3, h4, h8, hd, hc, Bool.or_self, Bool.false_eq_true, if_false, ge_iff_le, Nat.not_le.mpr h5, finish,
    Bool.not_true, bne_self_eq_false, Bool.and_false]

/-- A row whose condition is false skips its operation. -/
theorem recipeRow_skips (oper dt : Nat) (pl : Fin 4) (k : Fin 8) (s : State) (run : RCtx → Eff) (e : Engine) (f : Frame)
    (w : RWord) (d : Disp) (h : Fetches (s.advance dt) pl k e f w d) (hc : e.cond w.cond = some false) (ho : d.oper = oper)
    (hd : operDefined oper = true) : recipeRow oper dt pl k s run =
      .next (State.settle ((s.advance dt).boundary pl k e.frame e f (.go e f 1 none false))) := by
  obtain ⟨h1, h2, h3, h4, h5, h6, h7, h8⟩ := h
  subst h6 h7 ho
  simp only [recipeRow, h1, h2, h3, h4, h8, hd, hc, Bool.or_self, Bool.false_eq_true, if_false, ge_iff_le, Nat.not_le.mpr h5, finish,
    Bool.not_true, bne_self_eq_false, Bool.and_false]

/-- Going on past an instruction, no abort waiting. -/
theorem boundary_go (u : State) (pl k : Nat) (e e' : Engine) (f f' : Frame) (slots : Nat) (pc : Option Nat)
    (ha : f.aborted = none) (ho : f.overrun = false) :
    u.boundary pl k e.frame e f (.go e' f' slots pc false) = went u pl k e f slots (pc.getD (e.pc + 1)) e' f' := by
  cases pc <;> simp [State.boundary, went, Frame.stopped, ha, ho]

/-- An exception, no abort waiting. -/
theorem boundary_exc (u : State) (pl k : Nat) (e : Engine) (f : Frame) (x : Nat) (ha : f.aborted = none) (ho : f.overrun = false) :
    u.boundary pl k e.frame e f (.exc x 1) = ended u pl k e f (excOutcome x) 0 x := by
  simp [State.boundary, ended, Frame.stopped, ha, ho]

/-- The end of a parse. -/
theorem boundary_fin (u : State) (pl k : Nat) (e : Engine) (f : Frame) (o r : Nat) :
    u.boundary pl k e.frame e f (.fin e f o r) = ended u pl k e f o r 0 := by
  simp [State.boundary, ended]

/-- The flags survive a register write. -/
theorem Engine.setReg_flags (e : Engine) (n v : Nat) :
    (e.setReg n v).z = e.z ∧ (e.setReg n v).n = e.n ∧ (e.setReg n v).c = e.c ∧ (e.setReg n v).o = e.o := by
  unfold Engine.setReg
  split <;> simp

/-- A row of the recipe engine is one operation run on the engine's context. -/
theorem recipeOf_exec (i : Instr) (oper dt : Nat) (pl : Fin 4) (k : Fin 8) (s : State) (h : recipeOf i = some (oper, dt, pl, k)) :
    operDefined oper = true ∧ ∃ run, exec i s = recipeRow oper dt pl k s run := by
  unfold recipeOf at h
  split at h
  all_goals first
    | (injection h with h; injection h with h1 h; injection h with h2 h; injection h with h3 h4; subst h1 h2 h3 h4
       refine ⟨rfl, ?_⟩
       simp only [exec, execRecipeNop, execLdf, execLdv, execMovi, execAluAdd, execAluSub, execAluAnd, execAluOr, execAluXor, execAluShl, execAluShr, execExtract, execCmp, execTst, execBr, execBrx, execCall, execRet, execAdv, execPush, execDecber, execChklen, execLds, execKeyWrite, execMetaWrite, execSideRec, execSvx, execPat, execEndParse]
       exact ⟨_, rfl⟩)
    | exact absurd h (by simp)

/-- A row of the recipe engine answers a settled state. -/
theorem recipeRow_next (oper dt : Nat) (pl : Fin 4) (k : Fin 8) (s : State) (run : RCtx → Eff) :
    ∃ t : State, recipeRow oper dt pl k s run = .next t.settle := by
  unfold recipeRow
  dsimp only [finish]
  (repeat' split) <;> exact ⟨_, rfl⟩

end Sys2Proof.Machine
end

