-- ==== Sys2Proof/Tests/Slice0.lean ====
section
/-! SUPPORT. Small tests, and for each statement with hypotheses a state and operands that meet them. -/
namespace Sys2Proof.Tests
open Sys2Proof.Machine Sys2Proof.Safety
set_option Elab.async false

/-! ## Helpers -/

/-- The state after reset with some READY bits set. -/
def up (l : List Nat) : State := l.foldl (fun s i => s.setReg .HOST_READY 0 0 (s.reg .HOST_READY 0 0 ||| 2 ^ i)) State.reset

/-- A state with some fields set. -/
def fs (s : State) (l : List (Fld × Nat × Nat)) : State := l.foldl (fun s x => s.setFld x.1 x.2.1 x.2.2) s

/-- A frame of n zero bytes at port 0. -/
def fr (n : Nat) : Frame := { port := 0, pl := 0, bytes := List.replicate n 0, phase := .parsing 0 }

/-- An engine that begins. -/
def en : Engine := { frame := 0, w := List.replicate 16 0, pc := 0 }

/-- Pipeline 0 runs frame f on engine e, about to fetch a word of opcode 1 with fields x, which names an operation. -/
def rs (oper : Nat) (x : Nat) (e : Engine) (f : Frame) : State :=
  let s := State.reset.setReg .PARSE_DISPATCH 1 0 (oper + 128)
  let w := 2 ^ 120 + x
  let s := (List.range 4).foldl (fun (s : State) k => s.setReg .PARSE_WCS e.pc k (w / 4294967296 ^ k % 4294967296)) s
  { s with codeLen := [(0, 64)], engines := [(0, e)], frames := [(0, f)] }

/-- The word that `rs` lays out. -/
def rw' (x : Nat) : RWord := rword (2 ^ 120 + x)

/-- The dispatch entry that `rs` lays out. -/
def rd' (oper : Nat) : Disp := { oper := oper, valid := true, sf := false, sx := false, le := false, na := false, abs := false }

/-! ## Witnesses: the recipe engine -/

/-- A state in which pipeline 0's engine 0 carries out operation oper with fields x. -/
abbrev W (oper x : Nat) (e : Engine) (f : Frame) : Prop := Carries (State.advance (rs oper x e f) 0) 0 0 e f (rw' x) (rd' oper)

/-- Meets the hypotheses of RecipeArithmeticWritesWdAndFlags. -/
theorem wit_recipe_carries : ∀ oper : Fin 30, W oper 0 en (fr 64) := by unfold W Carries Fetches; decide

/-- A long frame of which 509 bytes have arrived. -/
def fl : Frame := { fr 509 with long := true, tail := false, maxFrame := 1522 }

/-- Meets the hypotheses of RecipeLoadsAndWrites. -/
theorem wit_recipe_loads :
    (W 0x01 0 en (fr 64) ∧ (fr 64).load (rd' 1) 0 (rw' 0).width = .value 0 false) ∧
    (W 0x03 8 en (fr 64) ∧ (fr 64).load (rd' 3) 0 64 = .value 0 false ∧ min (en.opB (rw' 8) % 16) 8 = 8) ∧
    (W 0x03 0 en (fr 64) ∧ min (en.opB (rw' 0) % 16) 8 = 0) ∧
    (W 0x19 (63 * 2 ^ 64) en (fr 64) ∧ metaBits ((rw' (63 * 2 ^ 64)).tgt % 64) = 0) ∧ (W 0x19 0 en (fr 64) ∧ metaBits ((rw' 0).tgt % 64) ≠ 0) ∧
    (W 0x1A 0 en { fr 64 with sides := List.replicate 7 (.ev 0 0 0 0) } ∧ W 0x1A 0 en { fr 64 with sides := List.replicate 8 (.ev 0 0 0 0) }) ∧
    (W 0x01 0 { en with cur := 504 } fl ∧ fl.load (rd' 1) 4032 (rw' 0).width = .wait) ∧ (W 0x03 8 { en with cur := 504 } fl ∧ fl.load (rd' 3) 4032 64 = .wait) := by
  unfold W Carries Fetches; (repeat' apply And.intro) <;> first | decide +kernel | rfl

/-- Meets the hypotheses of RecipeWindowOperations. -/
theorem wit_recipe_window :
    (W 0x13 512 en (fr 64) ∧ en.cur + en.opB (rw' 512) % 2 ^ 24 ≤ 512) ∧
    (W 0x14 (512 * 65536) en (fr 64) ∧ en.cur + bits (rw' (512 * 65536)).imm 16 10 ≤ 512) ∧
    (W 0x15 0 en (fr 64) ∧ berHead (fr 64) en.cur = (0, 1, 2, 0, false) ∧ (fr 64).tail = true) ∧
    (W 0x1B 0 { en with cur := 448 } (fr 64) ∧ 448 + 8 * 8 ≤ 512) ∧
    (W 0x1C 64 en (fr 64) ∧ min (min (en.opB (rw' 64) % 512) 256) ((fr 64).flen - 0) = 64) ∧
    (W 0x1C 0 en (fr 64) ∧ en.opB (rw' 0) % 512 = 0) ∧ (W 0x1B 1 { en with cur := 504 } fl ∧ fl.waits 504 511 = true) ∧
    (W 0x15 0 { en with cur := 511 } fl ∧ fl.waits 511 511 = true) := by
  unfold W Carries Fetches; (repeat' apply And.intro) <;> first | decide +kernel | rfl

/-- Meets the hypotheses of RecipeControlAndEnd. -/
theorem wit_recipe_control :
    (W 0x11 0 { en with calls := [1, 2, 3] } (fr 64) ∧ W 0x12 0 { en with calls := [5] } (fr 64)) ∧
    (W 0x16 64 en (fr 64) ∧ (0 : Int) + (rw' 64).soff + (en.opB (rw' 64) % 2 ^ 24 : Nat) ≤ ((fr 64).flen : Nat) ∧ bit (rw' 64).imm 0 = false) ∧
    (W 0x16 65 en (fr 64) ∧ ((fr 64).flen : Int) < (0 : Int) + (rw' 65).soff + (en.opB (rw' 65) % 2 ^ 24 : Nat)) ∧
    (W 0x16 1 { en with cur := 63 } (fr 64) ∧ (63 : Int) + (rw' 1).soff + (en.opB (rw' 1) % 2 ^ 24 : Nat) = ((fr 64).flen : Nat) ∧ bit (rw' 1).imm 0 = true) ∧
    (W 0x16 3 en (fr 64) ∧ (0 : Int) + (rw' 3).soff + (en.opB (rw' 3) % 2 ^ 24 : Nat) < ((fr 64).flen : Nat) ∧ bit (rw' 3).imm 1 = true ∧ (fr 64).flen ≤ 64) ∧
    (W 0x16 1 en fl ∧ (0 : Int) + (rw' 1).soff + (en.opB (rw' 1) % 2 ^ 24 : Nat) < 509 ∧ bit (rw' 1).imm 1 = false) ∧
    (W 0x16 16381 en { fr 64 with tail := false } ∧ ((16384 - 4 : Nat) : Int) < (0 : Int) + (rw' 16381).soff + (en.opB (rw' 16381) % 2 ^ 24 : Nat)) := by
  unfold W Carries Fetches; (repeat' apply And.intro) <;> first | decide +kernel | rfl

/-- A state in which it fetches the word; no abort waits. -/
abbrev WF (oper x : Nat) (e : Engine) (f : Frame) : Prop :=
  Fetches (State.advance (rs oper x e f) 0) 0 0 e f (rw' x) (rd' oper) ∧ f.aborted = none ∧ f.overrun = false

/-- Meets the hypotheses of RecipeExceptionsEndTheParse. -/
theorem wit_recipe_exceptions :
    (WF 0x02 0 en (fr 64) ∧ operDefined 2 = false) ∧ (WF 0x00 (11 * 2 ^ 116) en (fr 64) ∧ en.cond (rw' (11 * 2 ^ 116)).cond = none) ∧
    WF 0x11 0 { en with calls := [1, 2, 3, 4] } (fr 64) ∧ WF 0x12 0 en (fr 64) ∧ WF 0x13 513 en (fr 64) ∧ WF 0x14 (513 * 65536) en (fr 64) ∧
    WF 0x14 (512 * 65536) en { fr 64 with hdrs := List.replicate 16 0 } ∧ en.cond (rw' 0).cond = some true ∧
    (WF 0x01 0 { en with cur := 512 } (fr 64) ∧ (fr 64).load (rd' 1) 4096 (rw' 0).width = .window) ∧ WF 0x15 0 { en with cur := 512 } (fr 64) ∧
    WF 0x1B 1 { en with cur := 505 } (fr 64) ∧
    (sfind (State.advance (rs 0 0 { en with pc := 64 } (fr 64)) 0).engines 0 = some { en with pc := 64 } ∧
      (State.advance (rs 0 0 { en with pc := 64 } (fr 64)) 0).codeOf (bankNo 0 0) = 64) := by
  unfold WF Fetches; (repeat' apply And.intro) <;> first | decide +kernel | rfl

/-- Meets the hypotheses of RecipeFalseConditionSkips. -/
theorem wit_recipe_skips : recipeOf (.aluAdd 0 0 0) = some (5, 0, 0, 0) ∧ WF 0x05 (15 * 2 ^ 116) en (fr 64) ∧ en.cond (rw' (15 * 2 ^ 116)).cond = some false := by
  unfold WF Fetches; (repeat' apply And.intro) <;> first | decide +kernel | rfl

/-! ## Witnesses: ports, buffers and dispatch -/

/-- Port 0 is up, its pipeline READY. -/
def sp : State := (fs (up [4]) [(F.PORT_QUAD_CFG.MODE, 0, 1), (F.PORT_CFG.ENABLE, 0, 1), (F.PORT_CFG.MAX_FRAME, 0, 1522), (F.PORT_STATUS.RATE, 0, 4)]).setReg .PORT_STATUS 0 0 129

/-- A frame of n bytes arrives at port 0. -/
def ar (n : Nat) : Arrival := { port := 0, bytes := List.replicate (n - 4) 0, len := n }

/-- The state once its PCS has counted, and once its MAC has. -/
def wp (s : State) (n : Nat) : State := (s.advance 0).pcsCount (ar n)
def vp (s : State) (n : Nat) : State := ((((wp s n).bump .RX_FRAMES 0).add .RX_OCTETS 0 n).macsecIn 0 none (ar n).bytes true).2

/-- The frame waits for a buffer of pool k. -/
def sb (k : Nat) : State := { sp with frames := [(0, { fr 64 with phase := .waitBuf k })] }

/-- Meets the hypotheses of FramesEnterAndAreDispatched. -/
theorem wit_frames_enter :
    (∀ n, n = 64 → (ar n).cut = false ∧ (ar n).long = false ∧ 64 ≤ (ar n).len ∧ (ar n).len ≤ (sp.advance 0).maxFrameAt 0 (sp.advance 0).now ∧ (ar n).fcsOk = true ∧ (ar n).fecBad = false ∧
      (wp sp n).rxAlive 0 = true ∧ beNat (ar n).bytes 0 6 ≠ 0x0180C2000001 ∧
      ((((wp sp n).bump .RX_FRAMES 0).add .RX_OCTETS 0 n).macsecIn 0 (ar n).secTag (ar n).bytes true) = (none, vp sp n) ∧
      (vp sp n).ready (4 + portPl 0) = true ∧ (vp sp n).plFenced 0 = false ∧ (vp sp n).pwr.gated.contains 0 = false ∧ (vp sp n).pendingOf 0 < 128) ∧
    (512 < (sp.advance 0).maxFrameAt 0 (sp.advance 0).now) ∧
    (((fs (sb 0) [(F.BUF_POOL_CFG.COUNT, 0, 1)]).advance 0).requests 0 = [(0, { fr 64 with phase := .waitBuf 0 })] ∧
      (∀ j : Fin 4, j ≠ 0 → ((fs (sb 0) [(F.BUF_POOL_CFG.COUNT, 0, 1)]).advance 0).requests j = []) ∧ 0 < ((fs (sb 0) [(F.BUF_POOL_CFG.COUNT, 0, 1)]).advance 0).poolFree 0) ∧
    (((fs (sb 2) [(F.BUF_POOL_CFG.COUNT, 2, 0), (F.BUF_REQ_CFG.SPILL, 0, 1)]).advance 0).requests 2 = [(0, { fr 64 with phase := .waitBuf 2 })] ∧
      (∀ j : Fin 4, j ≠ 2 → ((fs (sb 2) [(F.BUF_POOL_CFG.COUNT, 2, 0), (F.BUF_REQ_CFG.SPILL, 0, 1)]).advance 0).requests j = []) ∧
      ((fs (sb 2) [(F.BUF_POOL_CFG.COUNT, 2, 0), (F.BUF_REQ_CFG.SPILL, 0, 1)]).advance 0).poolFree 2 = 0 ∧
      ((fs (sb 2) [(F.BUF_POOL_CFG.COUNT, 2, 0), (F.BUF_REQ_CFG.SPILL, 0, 1)]).advance 0).flag F.BUF_REQ_CFG.SPILL 0 = true) ∧
    (((fs (sb 3) [(F.BUF_POOL_CFG.COUNT, 3, 0), (F.BUF_REQ_CFG.SPILL, 0, 0)]).advance 0).requests 3 = [(0, { fr 64 with phase := .waitBuf 3 })] ∧
      (∀ j : Fin 4, j ≠ 3 → ((fs (sb 3) [(F.BUF_POOL_CFG.COUNT, 3, 0), (F.BUF_REQ_CFG.SPILL, 0, 0)]).advance 0).requests j = []) ∧
      ((fs (sb 3) [(F.BUF_POOL_CFG.COUNT, 3, 0), (F.BUF_REQ_CFG.SPILL, 0, 0)]).advance 0).poolFree 3 = 0 ∧
      ((fs (sb 3) [(F.BUF_POOL_CFG.COUNT, 3, 0), (F.BUF_REQ_CFG.SPILL, 0, 0)]).advance 0).flag F.BUF_REQ_CFG.SPILL 0 = false) := by
  refine ⟨?_, ?_⟩
  · intro n h; subst h; (repeat' apply And.intro) <;> first | decide +kernel | rfl
  · (repeat' apply And.intro) <;> first | decide +kernel | rfl

/-- A frame waits for an engine of pipeline 0, whose recipe entry is set. -/
def sd : State := { sp.setReg .PARSE_ENTRY 0 0 (2 ^ 31) with now := 100, frames := [(0, { fr 64 with phase := .pending })] }

/-- Meets the hypotheses of FramesEnterAndAreDispatched. -/
theorem wit_dispatch : (sd.advance 0).ready 4 = true ∧ (sd.advance 0).plFenced 0 = false ∧ (sd.advance 0).pwr.gated.contains 0 = false ∧
    (sd.advance 0).freeEngine 0 = some 0 ∧ (sd.advance 0).nextHeadReady 0 = some (0, { fr 64 with phase := .pending }) ∧
    bit ((sd.advance 0).reg .PARSE_ENTRY (bankNo 0 ((sd.advance 0).fld F.PARSE_CTL.ACTIVE_BANK 0) * 44 + 0) 0) 31 = true ∧
    (sd.advance 0).pendingOf 43 < 128 ∧
    ({ sp with frames := (List.range 128).map fun i => (i, { fr 64 with port := 43, phase := .pending }) }.advance 0).pendingOf 43 = 128 := by
  (repeat' apply And.intro) <;> first | decide +kernel | rfl

/-- 128 frames of port 0 wait. -/
def sq128 : State := { sp with frames := (List.range 128).map fun i => (i, { fr 64 with phase := .pending }) }

/-- Meets the hypotheses of BadArrivalsAreCountedAndDiscarded. -/
theorem wit_bad_arrivals :
    ((wp sp 64).rxAlive 0 = true ∧ (wp State.reset 64).rxAlive 0 = false ∧ (sp.advance 0).maxFrameAt 0 (sp.advance 0).now = 1522 ∧
      ((fs sp [(F.PORT_CFG.MAX_FRAME, 0, 512)]).advance 0).maxFrameAt 0 0 ≤ 512) ∧
    ((ar 63).len < 64 ∧ ({ ar 64 with fcsOk := false }).fcsOk = false ∧ ({ ar 64 with len := 1523 }).len > 1522) ∧
    (vp (sp.setReg .HOST_READY 0 0 0) 64).ready (4 + portPl 0) = false ∧
    ((vp sq128 64).ready (4 + portPl 0) = true ∧ (vp sq128 64).plFenced 0 = false ∧ (vp sq128 64).pwr.gated.contains 0 = false ∧ 128 ≤ (vp sq128 64).pendingOf 0) := by
  (repeat' apply And.intro) <;> first | decide +kernel | rfl

/-- A long frame of n bytes in reception, in phase p. -/
def lf (n : Nat) (p : Phase) : Frame := { fr n with long := true, tail := false, buf := some 0, phase := p, maxFrame := 1522 }

/-- Meets the hypotheses of LongFramesInReception. -/
theorem wit_long_frames :
    (let s : State := { sp with frames := [(0, lf 256 .ended)] };
      sfind (s.advance 0).frames 0 = some (lf 256 .ended) ∧ (lf 256 .ended).tail = false) ∧
    (let s : State := { sp with frames := [(0, lf 256 (.parsing 0))], engines := [(0, en)] };
      sfind (s.advance 0).frames 0 = some (lf 256 (.parsing 0)) ∧ sfind (s.advance 0).engines ((lf 256 (.parsing 0)).pl * 8 + 0) = some en ∧ en.waitW = false) ∧
    ((lf 256 .ended).bytes.length + ([] : Bytes).length ≤ poolSize (0 / 262144) ∧ poolSize (0 / 262144) < (lf 256 .ended).bytes.length + ([0] : Bytes).length ∧
      516 ≤ (lf 515 (.parsing 0)).bytes.length + ([0] : Bytes).length ∧ (lf 514 (.parsing 0)).bytes.length + ([0] : Bytes).length < 516) ∧
    ((lf 256 .ended).aborted = none ∧ (lf 256 .ended).buf = some 0 ∧ (lf 256 .ended).stopped = false ∧ (lf 256 .ended).port < 40 ∧
      ({ lf 256 .ended with aborted := some .fcs }).aborted.isSome = true) := by
  (repeat' apply And.intro) <;> first | decide +kernel | rfl

/-- Port 0 is configured; its link is down. -/
def sl : State := fs sp [(F.PORT_STATUS.RATE, 0, 0)] |>.setReg .PORT_STATUS 0 0 0

/-- The state LINK_UP judges it in. -/
def vl : State := State.setReg { sl.advance 0 with ports := sset (sl.advance 0).ports 0 { peer := some { speed := 4 } } } .PORT_STATUS 0 0
  (putBits ((sl.advance 0).reg .PORT_STATUS 0 0) 2 1 0)

/-- Meets the hypotheses of LinkEventsSetPortStatus. -/
theorem wit_links :
    ((sl.advance 0).fecOk 0 = true ∧ vl.portExists 0 = true ∧ vl.flag F.PORT_CFG.ENABLE 0 = true ∧ vl.fecOk 0 = true ∧ (sget (sl.advance 0).ports {} 0).down = false ∧ vl.linkUp 0 = false ∧ vl.pwr.gated.contains (portPl 0) = false ∧
      vl.peerMatches 0 { speed := 4 } = true ∧ vl.peerMatches 0 { speed := 4, half := true } = true ∧ vl.peerMatches 0 { speed := 5 } = false ∧
      (sget (sl.advance 0).ports {} 0 : Port) = {}) ∧
    (((fs State.reset [(F.PORT_CFG.SERIAL_MODE, 32, 0)]).setReg .PORT_STATUS 32 0 1).advance 0).sgmii 32 = true ∧
    (((fs State.reset [(F.PORT_CFG.SERIAL_MODE, 32, 0)]).setReg .PORT_STATUS 32 0 1).advance 0).linkUp 32 = true := by
  (repeat' apply And.intro) <;> first | decide +kernel | rfl

/-- Port 0 has been idle for 8 µs and may enter low-power idle. -/
def si : State := { fs sp [(F.PORT_CFG.EEE_EN, 0, 1), (F.PWR_BUDGET.BUDGET_US, 0, 50), (F.PORT_CFG.PFC_PRI, 0, 128)] with now := 1000000, pfcPause := [(7, 1000000)] }

/-- Meets the hypotheses of FlowControlAndLowPowerIdle. -/
theorem wit_flow_control :
    ((si.advance 0).rxAlive 0 = true ∧ (State.reset.advance 0).rxAlive 0 = false) ∧ (bit ((si.advance 0).fld F.PORT_CFG.PFC_PRI 0) 7 = true ∧ (si.advance 0).rate 0 ≠ 0) ∧ (sfind (si.advance 0).pfcPause 7 = some 1000000 ∧ 1000000 ≤ (si.advance 0).now) ∧
    ((si.advance 0).lpiOk 0 = true ∧ (si.advance 0).flag F.PORT_STATUS.LPI_TX 0 = false ∧ sfind (si.advance 0).tx 0 = none ∧ (sget (si.advance 0).ports {} 0).txIdle + 8000 ≤ (si.advance 0).now) ∧
    (si.advance 0).flag F.PORT_CFG.EEE_EN 0 = true ∧ (sp.advance 0).flag F.PORT_CFG.EEE_EN 0 = false := by
  (repeat' apply And.intro) <;> first | decide +kernel | rfl

/-! ## Witnesses: release, lookup, verification -/

/-- A frame that has ended its parse with metadata word 0. -/
def fe (fwd : Bool) (m : Nat) : Frame := { fr 64 with phase := .ended, fwd := fwd, slow := 1, fields := [(0, m), (2, 1)] }
def sr (f : Frame) : State := { sp with frames := [(0, f)], lookQ := [0] }

/-- Two pairs on port 0. -/
def sbad (f : Frame) : State := fs (sr f) [(F.PRED_PAIR.ROLE, 0, 1), (F.PRED_PAIR.PORT_A, 0, 0), (F.PRED_PAIR.ROLE, 1, 1), (F.PRED_PAIR.PORT_A, 1, 0)]

/-- The state a release of port 0 acts in. -/
def vr (s : State) : State := (if (s.advance 0).pairBad1 0 then (s.advance 0).undefined .pair else s.advance 0).modFrame 0 fun f => { f with capBad := 0 }

/-- Meets the hypotheses of FramesAreReleasedInOrder. -/
theorem wit_release :
    (((sbad (fe true 0)).advance 0).nextRelease 0 = some (0, fe true 0) ∧ (fe true 0).pl < 4 ∧ ((sbad (fe true 0)).advance 0).pairBad1 0 = true ∧
      (vr (sbad (fe true 0))).nextRelease 0 = some (0, fe true 0)) ∧
    (((sr (fe false 0)).advance 0).nextRelease 0 = some (0, fe false 0) ∧ (vr (sr (fe false 0))).nextRelease 0 = some (0, fe false 0) ∧ (fe false 0).fwd = false ∧
      (fe false 0).aborted = none ∧ (fe false 0).overrun = false ∧ (fe false 0).lateBad = false) ∧
    (let f : Frame := { fe true 0 with lateBad := true }; ((sr f).advance 0).nextRelease 0 = some (0, f) ∧ (vr (sr f)).nextRelease 0 = some (0, f) ∧ f.lateBad = true ∧ searches f = 0) ∧
    (let s : State := { sr (fe true 32) with tcamWin := [(0, (0, 605))] }; (s.advance 0).nextRelease 0 = some (0, fe true 32) ∧ (vr s).nextRelease 0 = some (0, fe true 32) ∧
      0 < searches (fe true 32) ∧ (vr s).searchBudget ≤ (vr s).slotsUsed 0 ∧ (fe true 32).fwd = true) ∧
    (let s : State := { sr (fe true 32) with tcamWin := [(0, (0, 604))] }; (vr s).nextRelease 0 = some (0, fe true 32) ∧ (vr s).slotsUsed 0 < (vr s).searchBudget ∧
      (vr s).behind 0 0 (fe true 32).disp = false ∧ (s.advance 0).slotsUsed 0 < (s.advance 0).searchBudget ∧ (s.advance 0).lookQ = [0] ∧ (s.advance 0).waitingPort 0 = some 0) ∧
    (let s : State := { sp with frames := [(0, fe true 0), (1, { fe true 0 with port := 8, pl := 1 })] };
      ((s.advance 0).nextRelease 0).map (·.2.pl) = some 0 ∧ ((s.advance 0).nextRelease 8).map (·.2.pl) = some 1) := by
  (repeat' apply And.intro) <;> first | decide +kernel | rfl

/-- A frame under verification by algorithm alg whose request found the keys of algorithms k; overload: beyond the capacity. -/
def fv (alg : Nat) (k : List Nat) (overload : Bool) : Frame :=
  { fr 64 with phase := .verdict, res := some {}, fields := [(8, alg * 32)], auth := some { keys := (k.map fun a => GKey.mk a 0 10 []), overload := overload } }
def sv (x : Frame) : State := { sp with frames := [(0, x)] }

/-- Meets the hypotheses of VerdictsDecideAuthentication. -/
theorem wit_verdicts :
    (sfind ((sv (fv 4 [4] false)).advance 0).frames 0 = some (fv 4 [4] false) ∧ (fv 4 [4] false).tail = true ∧ 4 = bits (sget (fv 4 [4] false).fields 0 8) 5 3) ∧
    (let x : Frame := { fv 4 [4] false with fields := [(8, 31 + 4 * 32)], hdrs := [0x0D] }; ((fs (sv x) [(F.AUTH_VCFG.REQUIRE, 0, 1)]).advance 0).authNeed x = 2) ∧
    (((sv (fv 4 [] false)).advance 0).authNeed (fv 4 [] false) ≠ 2 ∧ ((fv 4 [] false).auth.map (·.keys)) = some []) ∧
    (((fv 4 [1] false).auth.map fun q => q.keys.filter fun k => k.alg == 4) = some [] ∧ macLen 4 ≠ 0 ∧ macLen 7 = 0) ∧
    (((fv 4 [4] true).auth.map (·.overload)) = some true ∧ (((fv 4 [4] true).auth.map fun q => (q.keys.filter fun k => k.alg == 4).isEmpty)) = some false ∧
      ((sv (fv 4 [4] true)).advance 0).flag F.AUTH_VCFG.OVERLOAD 0 = false ∧
      ((fs (sv (fv 4 [4] true)) [(F.AUTH_VCFG.OVERLOAD, 0, 1)]).advance 0).flag F.AUTH_VCFG.OVERLOAD 0 = true) ∧
    ({ fv 4 [4] false with fields := [(8, 4 * 32 + 1)], hdrs := [0x0D + 2 ^ 21, 0x10] }).authNamed = true ∧ (fv 4 [4] false).authNamed = false := by
  (repeat' apply And.intro) <;> first | decide +kernel | rfl

/-- Meets the hypotheses of TailsEndLongFrames. -/
theorem wit_tails :
    (let x := lf 252 .ended; sfind (State.advance { sp with frames := [(0, x)] } 0).frames 0 = some x ∧ x.tail = false ∧ x.buf = some 0 ∧ x.icv = none ∧ x.aborted = none ∧
      x.overrun = false ∧ x.port < 40 ∧ 4 ≤ (x.bytes ++ [0, 0, 0, 0]).length ∧ (x.bytes ++ [0, 0, 0, 0]).length + x.off ≤ x.maxFrame ∧
      (x.bytes ++ [0, 0, 0, 0]).length ≤ poolSize (0 / 262144)) ∧
    (let x := lf 252 .ended; (x.bytes ++ [0, 0, 0, 0, 0]).length + x.off ≤ x.maxFrame ∧ poolSize (0 / 262144) < (x.bytes ++ [0, 0, 0, 0, 0]).length) ∧
    ({ lf 252 .ended with maxFrame := 255 }).maxFrame < ((lf 252 .ended).bytes ++ [0, 0, 0, 0]).length ∧
    (let t : Tail := { port := 0, pl := 0, len := 600, off := 0, maxFrame := 1522 }; let s : State := { sp with tails := [(0, t)] }
      sfind (s.advance 0).frames 0 = none ∧ sfind (s.advance 0).tails 0 = some t) ∧
    (let f : Frame := { fr 60 with maxE := some (61, 7), phase := .admitted }; lateReason f.bytes.length f.maxE f.exactE = some 7 ∧ f.ended = true) ∧
    (let f : Frame := { fr 60 with exactE := some (59, 8), phase := .ended }; let x := (sp.overBudget f).authStart f
      lateReason f.bytes.length x.1.maxE x.1.exactE = some 8 ∧ x.1.phase = .ended ∧ x.1.bytes = f.bytes) ∧
    (let t : Tail := { port := 0, pl := 0, len := 600, off := 0, maxFrame := 1522, parsed := true, maxE := some (700, 7) };
      t.len + 4 + t.off ≤ t.maxFrame ∧ t.port < 40 ∧ t.icnt ≤ budget 604 ∧ t.parsed = true ∧ lateReason (t.len + 4 - 4) t.maxE t.exactE = some 7) := by
  (repeat' apply And.intro) <;> first | decide +kernel | rfl

/-- A record of the comparator of pipeline 0, made at 0, and its second copy's digest. -/
def sc (d : Option Nat) (us : Nat) : State := { fs sp [(F.PRED_PAIR.CMP_WAIT_US, 0, us)] with now := 1000, cmp := [(0, [{ pair := 0, dd := 0, seq := 0, lane := 0, digest := 5, at_ := 0, second := d }])] }

/-- Meets the hypotheses of TailsEndLongFrames. -/
theorem wit_comparator :
    (((sget ((sc none 1).advance 0).cmp [] 0)[0]?).map (·.second)) = some none ∧ 0 + 1000 * max 1 (((sc none 1).advance 0).fld F.PRED_PAIR.CMP_WAIT_US 0) ≤ ((sc none 1).advance 0).now ∧
    (((sget ((sc (some 5) 1).advance 0).cmp [] 0)[0]?).map (·.second)) = some (some 5) ∧
    (((sget ((sc (some 6) 1).advance 0).cmp [] 0)[0]?).map (·.frame2)) = some none := by
  (repeat' apply And.intro) <;> first | decide +kernel | rfl

/-! ## Witnesses: tables, scheduler, gates, redundancy, generations -/

/-- Table 0 is an FDB table. -/
def st : State := fs sp [(F.EXM_LTBL_CTL.KIND, 0, 1)]
def lr : Learn := { table := 0, key := 5, gport := 3, port := 3, ts := 0 }
def ent : Entry := { key := 5, from_ := 0, table := 0, learned := true }

/-- Meets the hypotheses of LearningAndFlushing. -/
theorem wit_learning :
    (let s : State := { st with learnQ := [lr], flushQ := [{ table := 0, gport := 3, staged := false, static_ := false }] };
      (s.advance 0).learnQ = [lr] ∧ (s.advance 0).flushQ.any (fun f => f.gport == lr.gport) = true ∧ (s.advance 0).flag F.EXM_LTBL_CTL.REHASH_BUSY 0 = false ∧ lr.drop = false ∧ (s.advance 0).kindOf 0 = 1 ∧
      (s.advance 0).hostPending 0 5 = false) ∧
    (let s : State := { st with learnQ := [lr], exm := [(0, { ent with learned := false })] }; (s.advance 0).learnQ = [lr] ∧ (s.advance 0).flushQ = [] ∧
      ((State.advance s 0).add .LEARN_FLUSH_DISCARD 0 0).hostPending 0 5 = true ∧ lr.notice = false) ∧
    (let s : State := { st with learnQ := [lr] }; (s.advance 0).hostPending 0 5 = false ∧ lr.drop = false) ∧
    (let s : State := { fs st [(F.EXM_LTBL_CTL.REHASH_BUSY, 0, 1)] with learnQ := [lr] }; (s.advance 0).learnQ = [lr] ∧ (s.advance 0).flag F.EXM_LTBL_CTL.REHASH_BUSY 0 = true) ∧
    (let s : State := { st with flushQ := [{ table := 0, gport := 3, staged := false, static_ := false }] }; (s.advance 0).flushQ.length = 1 ∧
      (s.advance 0).flushQ.all (fun f => !f.staged && !f.tell && f.ch.isNone) = true) := by
  (repeat' apply And.intro) <;> first | decide +kernel | rfl

/-- Meets the hypotheses of AgeingAndMaintenance. -/
theorem wit_ageing :
    (let s : State := { fs st [(F.EXM_LTBL_CTL.AGE_TIME, 0, 3)] with now := 1000000000 }; (s.advance 0).fld F.EXM_LTBL_CTL.AGE_TIME 0 ≠ 0 ∧ (s.advance 0).flag F.EXM_LTBL_CTL.REHASH_BUSY 0 = false ∧
      (s.advance 0).fld F.EXM_LTBL_CTL.AGE_TIME 0 * 1000000000 ≤ 3 * ((s.advance 0).now - sget (s.advance 0).ageAt 0 0)) ∧
    (sp.advance 0).rehash = [] ∧
    (ent.desc = sp.descAt 0 sp.cur ∧ ent.static_ = false ∧ ent.pinned = false ∧ ent.vis sp.cur = true ∧ sp.kindOf 0 ≠ 1) ∧
    ({ ent with hit := true, learned := false }.hit = true ∧ { ent with age := 1 }.age < 2 ∧ 2 ≤ { ent with age := 2 }.age) := by
  (repeat' apply And.intro) <;> first | decide +kernel | rfl

/-- A row that differs from its shadow. -/
def row : Row := { key := 1, mask := 1, prio := 0, shKey := 0, shMask := 1, shPrio := 0, from_ := 0, action := 0 }

/-- Meets the hypotheses of TcamScrubThrottleAndPolicers. -/
theorem wit_scrub_throttle :
    (let s : State := { sp with tcam := [(8191, row)] }; (s.advance 0).tcam = [(8191, row)] ∧ 8191 / 8192 = 0 ∧ row.shBad = false ∧ row.fixed ≠ row) ∧
    (sp.advance 0).fld F.TCAM_THR_STAT.LEVEL 0 < throttleEntry (105 * 256) ∧
    ((fs sp [(F.TCAM_THR_STAT.LEVEL, 0, 1)]).advance 0).fld F.TCAM_THR_STAT.LEVEL 0 = 1 ∧ (92 * 256 : Int) ≤ 92 * 256 ∧
    ((fs sp [(F.TCAM_THR_STAT.LEVEL, 0, 2)]).advance 0).fld F.TCAM_THR_STAT.LEVEL 0 = 2 ∧
    (State.advance { sp with pol := [(3, {})] } 0).pol = [(3, {})] ∧ (State.advance { sp with pol := [(3, {})] } 0).written .POL_CFG = [] := by
  (repeat' apply And.intro) <;> first | decide +kernel | rfl

/-- Queue q of port 0 holds a copy of frame f; queues 0 and 1 are strict children of one group. -/
def sk (qs : List Nat) (port : Nat) (f : Frame) : State :=
  let s := fs sp [(F.SCHED_LINK.SLOT, 2097152, 0), (F.SCHED_LINK.PARENT, 2097152, 0), (F.SCHED_LINK.SLOT, 2097153, 0), (F.SCHED_LINK.PARENT, 2097153, 0),
    (F.SCHED_LINK.SLOT, 1048576, 0), (F.SCHED_LINK.PARENT, 1048576, 0), (F.SCHED_LINK.SLOT, 0, 0)]
  { s with frames := [(0, f)], queues := qs.map fun q => (q, [{ frame := 0, port := port, cls := 0 }]) }

/-- The state the decision is taken in. -/
def wk (s : State) : State :=
  let v := (s.advance 0).settleQueues.refill 0 0
  let l := v.active 0
  l.foldl (fun x a => x.refill 3 a.q) (((l.map (·.g)).foldl ins []).foldl (fun x g => x.refill 2 g) (((l.map (·.c)).foldl ins []).foldl (fun x c => x.refill 1 c) v))

/-- Meets the hypotheses of CopiesAreScheduledAndSent. -/
theorem wit_scheduler :
    (let s : State := { sk [0] 0 (fr 64) with flt := { State.reset.flt with safe := true } }; (s.advance 0).settleQueues.flt.safe = true) ∧
    (let v := (sp.advance 0).settleQueues; v.flt.safe = false ∧ v.active 0 = []) ∧
    (let v := ((sk [0] 1 (fr 64)).advance 0).settleQueues; v.active 0 ≠ [] ∧ v.nodeReady 0 = true ∧ v.strays 0 (v.active 0) = true) ∧
    (let v := ((sk [0] 0 (fr 64)).advance 0).settleQueues; v.active 0 = [Act.mk 0 0 0] ∧ v.strays 0 (v.active 0) = false ∧ v.nodeReady 0 = true ∧
      (wk (sk [0] 0 (fr 64))).tokensOk 0 0 = true ∧
      (match (wk (sk [0] 0 (fr 64))).pick 0 (v.active 0) with | (some (a, _), _) => a == Act.mk 0 0 0 | _ => false) = true) ∧
    (wk (fs (sk [0] 0 (fr 64)) [(F.SCHED_SHAPE.EN, 0, 1)])).tokensOk 0 0 = false ∧
    (let f := { fr 64 with tail := false }; (match (wk (sk [0] 0 f)).pick 0 [Act.mk 0 0 0] with | (none, _) => true | _ => false) = true) ∧
    (let t : Tx := { copy := { frame := 0, port := 0, cls := 0 }, q := 0, bytes := [], len := 64, start := 0, dur := 67 }; let s : State := { sp with tx := [(0, t)], now := 67 };
      sfind (s.advance 0).tx 0 = some t ∧ t.fail = none ∧ t.ct = false ∧ t.start + t.dur ≤ (s.advance 0).now ∧
      ({ t with fail := some 0 }).fail = some 0 ∧ 0 < (s.advance 0).txBegun { t with fail := some 0 }) ∧
    ((sk [5] 0 (fr 64)).advance 0).queues = [(5, [{ frame := 0, port := 0, cls := 0 }])] := by
  (repeat' apply And.intro) <;> first | decide +kernel | rfl

/-- Meets the hypotheses of ShapersAndGatesFollowTime. -/
theorem wit_shapers_gates :
    (let s : State := { up [3] with shapers := [(nkey 1 0, { wake := some 0 })] }; (sget (s.advance 0).shapers {} (nkey 1 0)).wake = some 0 ∧ 0 ≤ (s.advance 0).frc ∧
      (s.advance 0).shapedNodes = [(1, 0)]) ∧
    (((up [3]).advance 0).ready 3 = true ∧ (sget ((up [3]).advance 0).gates {} 0).pend = none ∧ (sget ((up [3]).advance 0).gates {} 0).cyc.cfg.enable = false) ∧
    (let g : Gate := { cyc := { cfg := { enable := true, grid := true } } }; let s : State := { up [3] with gates := [(0, g)] };
      sget (s.advance 0).gates {} 0 = g ∧ g.cyc.began = false ∧ g.first ≤ (s.advance 0).gridNow) ∧
    (let g : Gate := { cyc := { cfg := { enable := true, grid := true }, began := true } }; let s : State := { up [3] with gates := [(0, g)] };
      sget (s.advance 0).gates {} 0 = g ∧ g.cyc.start + g.cyc.tc ≤ (s.advance 0).frc) ∧
    (let s := State.reset.advance 0; (sget s.gates {} 0).prev.cfg.enable = false ∧ s.cycAt 0 (sget s.gates {} 0).cyc s.ptp s.frc = none) := by
  (repeat' apply And.intro) <;> first | decide +kernel | rfl

/-- Pair 0 is an HSR pair with bypass driver 0. -/
def sh : State := fs (up [0, 4, 8]) [(F.PRED_PAIR.ROLE, 0, 2), (F.PRED_PAIR.BYP, 0, 1)]
def sdd : State := { fs sp [(F.EXM_LTBL_CTL.KIND, 0, 3)] with exm := [(0, ent)] }

/-- Meets the hypotheses of RedundancyTimersAct. -/
theorem wit_redundancy :
    ((sp.advance 0).ddEntries = [] ∧ (sp.advance 0).dd = []) ∧ ((sdd.advance 0).ddEntries = [(0, ent)] ∧ (sdd.advance 0).ddStale ent = true) ∧
    (let s : State := { fs sp [(F.PRED_RCVY.RESET_MS, 0, 1)] with rcvy := [(0, { takeAny := false })], now := 1000000 };
      (sget (s.advance 0).rcvy {} 0).takeAny = false ∧ 0 + 1000000 * max 1 ((s.advance 0).fld F.PRED_RCVY.RESET_MS 0) ≤ (s.advance 0).now) ∧
    (let s : State := { sh with now := 2000000000 }; (s.advance 0).pairRole 0 ≠ 0 ∧ (s.advance 0).ready 0 = true ∧ sget (s.advance 0).supAt 0 0 + 2000000000 ≤ (s.advance 0).now ∧ (s.advance 0).exm = []) ∧
    (let s : State := { sh with now := 10000000, bypAt := [(0, 0)] }; sfind (s.advance 0).bypAt 0 = some 0 ∧ (s.advance 0).bypCond 0 = true ∧ 0 + 10000000 ≤ (s.advance 0).now) ∧
    State.reset.bypCond 1 = false := by
  (repeat' apply And.intro) <;> first | decide +kernel | rfl

/-- A transaction waits for its commit. -/
def tx1 : Txn := { id := 1, ch := 0, sid := 0, batch := false, commit := true, last := 0 }

/-- Meets the hypotheses of CommitsTakeEffect. -/
theorem wit_commits :
    (let r : Req := { ch := 0, arg := 0 }; let s : State := { up [] with txn := some tx1, mbx := [(0, { busy := some (r, .commit false) })] };
      (s.advance 0).txn = some tx1 ∧ tx1.commit = true ∧ tx1.batch = false ∧ (s.advance 0).commitFree = true ∧
      ((s.advance 0).commitGen.chan 0).busy = some (r, .commit false)) ∧
    ({ tx1 with commit := false }.commit = false) ∧
    (let r : Req := { ch := 0, arg := 0 }; let l : Load := { plMask := 3, next := 64, data := [] };
      let s : State := { up [] with mbx := [(0, { busy := some (r, .bank 3) })], load := some l };
      (s.advance 0).mbx = [(0, { busy := some (r, .bank 3) })] ∧ bit 3 0 = true ∧ (s.advance 0).load = some l ∧
      (s.advance 0).bankBusy 0 (1 - (s.advance 0).fld F.PARSE_CTL.ACTIVE_BANK 0) = false ∧ 3 - 2 ^ 0 ≠ 0) ∧
    (let r : Req := { ch := 0, arg := 0 }; let s : State := { up [] with mbx := [(0, { busy := some (r, .rw [(.RW_ENCAP, 0, 0, [])]) })] };
      ((s.advance 0).chan 0).busy = some (r, .rw [(.RW_ENCAP, 0, 0, [])]) ∧ (s.advance 0).verFree .RW_ENCAP 0 = true) := by
  (repeat' apply And.intro) <;> first | decide +kernel | rfl

/-! ## Witnesses: time and the grid angle -/

/-- TIME is READY, its state v. -/
def tm (v : Nat) : State := fs (up [3, 9, 10]) [(F.TIME_STATUS.STATE, 0, v)]

/-- Meets the hypotheses of DeviceClockStepsAndHoldsOver. -/
theorem wit_device_clock :
    (let s := State.reset.advance 0; s.fld F.TIME_STATUS.STATE 0 ≠ 3 ∧ (s.setFld F.TIME_STATUS.STEP_COUNT 0 1).ready 3 = false) ∧
    ((tm 3).advance 0).fld F.TIME_STATUS.STATE 0 = 3 ∧
    (let s := (tm 2).advance 0; s.fld F.TIME_STATUS.STATE 0 ≠ 3 ∧ (s.setFld F.TIME_STATUS.STEP_COUNT 0 1).ready 3 = true) ∧
    (let s := (fs (tm 2) [(F.TIME_CTL.SRC, 0, 1)]).advance 0; s.fld F.TIME_CTL.SRC 0 = 1 ∧ s.fld F.TIME_STATUS.STATE 0 = 2) ∧
    (let t : State := fs (tm 2) [(F.TIME_CTL.SRC, 0, 2)]; let s := State.advance { t with now := 2000000000, clock := { t.clock with ppsLast := some 0 } } 0;
      s.fld F.TIME_CTL.SRC 0 = 2 ∧ s.fld F.TIME_STATUS.STATE 0 = 2 ∧ s.clock.ppsLast = some 0 ∧ 0 + 2000000000 ≤ s.now ∧ (s.setFld F.TIME_STATUS.PPS_MISS 0 1).fld F.TIME_STATUS.STATE 0 = 2) ∧
    (let t : State := fs (tm 3) [(F.TIME_CTL.HOLD_S, 0, 1), (F.TIME_STATUS.TRACEABLE, 0, 1)]; let s := State.advance { t with now := 1000000000, clock := { t.clock with holdAt := some 0 } } 0;
      s.clock.holdAt = some 0 ∧ 0 + 1000000000 * s.fld F.TIME_CTL.HOLD_S 0 ≤ s.now ∧ s.flag F.TIME_STATUS.TRACEABLE 0 = true) ∧
    ((fs (tm 2) [(F.TIME_CTL.REF25, 0, 1)]).advance 0).flag F.TIME_CTL.REF25 0 = true ∧
    (let t : State := tm 2; ((State.advance { t with irq := { t.irq with lvl := [50] } } 0).setFld F.TIME_STATUS.REF25_LOST 0 0).irq.lvl.contains 50 = true) := by
  (repeat' apply And.intro) <;> first | decide +kernel | rfl

/-- Meets the hypotheses of TimeReadsLatchOneInstant. -/
theorem wit_time_reads :
    (let t : State := tm 2; let e : TxTs := { seqId := 1, msgType := 0, dom := 0, egress := 5, residence := 3 }; let s := State.advance { t with clock := { t.clock with txts := [(39, [e])] } } 0;
      sget s.clock.txts [] 39 = [e]) := by
  (repeat' apply And.intro) <;> first | decide +kernel | rfl

/-- Meets the hypotheses of PulsesAndIrigFrames. -/
theorem wit_pulses :
    (let s := (fs (tm 2) [(F.TIME_PPS_CFG.IN_EN, 0, 1), (F.TIME_IRIG_CFG.IN_EN, 0, 1)]).advance 0; s.flag F.TIME_PPS_CFG.IN_EN 0 = true ∧ (1000 ≤ 1000 ∧ 1000 < 1001) ∧
      s.flag F.TIME_IRIG_CFG.IN_EN 0 = true ∧ (let w : State := { s.onTime 1000 with clock := { (s.onTime 1000).clock with irigLast := some s.now } }; w.fld F.TIME_CTL.SRC 0 < 2)) ∧
    (let s := (fs (tm 2) [(F.TIME_CTL.SRC, 0, 3), (F.TIME_IRIG_CFG.IN_EN, 0, 1), (F.TIME_IRIG_CFG.EXT1344, 0, 1)]).advance 0; let v := s.onTime 1000;
      let w : State := { v with clock := { v.clock with irigLast := some s.now } }; 2 ≤ w.fld F.TIME_CTL.SRC 0 ∧ w.fld F.TIME_STATUS.STATE 0 = 2) ∧
    ((fs (tm 2) [(F.TIME_IRIG_CFG.OUT_EN, 0, 1)]).advance 0).flag F.TIME_IRIG_CFG.OUT_EN 0 = true ∧
    (let t := fs (tm 2) [(F.TIME_PPS_CFG.OUT_EN, 0, 1)]; let s := State.advance { t with clock := { t.clock with ptp := 1000000000 * (ptpUnit : Nat) } } 0;
      (((s.ptp : Int) - sgn (s.reg .TIME_PPS_OFS 0 0) 32) / 1000000000).toNat = 1 ∧ 1 ≠ s.clock.ppsOut ∧ s.ready 3 = true ∧ s.flag F.TIME_PPS_CFG.OUT_EN 0 = true ∧
      s.flag F.TIME_IRIG_CFG.OUT_EN 0 = false ∧ s.flt.safe = false ∧ ({ s with flt := { s.flt with safe := true } }).flt.safe = true) := by
  (repeat' apply And.intro) <;> first | decide +kernel | rfl

/-- Pin 0 in state g, DEBOUNCE 1 µs. -/
def gp (g : Gpio) (n : Nat) : State := { fs (tm 2) [(F.GPIO_IN_CFG.DEBOUNCE, 0, 1), (F.GPIO_IN_CFG.TS_EN, 0, 1), (F.GPIO_IN_CFG.EDGE, 0, 2), (F.GPIO_OUT_CFG.OUT_EN, 0, 0)] with gpio := [(0, g)], now := n }

/-- Meets the hypotheses of GpioPinsDebounceAndPulse. -/
theorem wit_gpio :
    (((gp {} 0).advance 0).flag F.GPIO_OUT_CFG.OUT_EN 0 = false ∧ (((gp {} 0).advance 0).pin 0).cand = none ∧ true ≠ (((gp {} 0).advance 0).pin 0).level) ∧
    (let g : Gpio := { cand := some (true, 0, 0, 0) }; ((gp g 999).advance 0).pin 0 = g ∧ ((gp g 999).advance 0).now < 0 + ((gp g 999).advance 0).debounce 0 ∧ false ≠ true) ∧
    (let g : Gpio := { cand := some (true, 0, 0, 0) }; let s := (gp g 1000).advance 0; s.pin 0 = g ∧ 0 + s.debounce 0 ≤ s.now ∧
      (let v := (s.setPin 0 { g with level := true, cand := none }).evtIn { src := .gpio 0, value := 1, frc := 0, ptp := 0, grid := some 0 };
        v.flag F.GPIO_IN_CFG.TS_EN 0 = true ∧ 2 ≤ v.fld F.GPIO_IN_CFG.EDGE 0 ∧ v.clock.gpioTs.length < 256) ∧
      (((fs (gp g 1000) [(F.GPIO_IN_CFG.TS_EN, 0, 0)]).advance 0).evtIn { src := .gpio 0, value := 1, frc := 0, ptp := 0, grid := some 0 }).flag F.GPIO_IN_CFG.TS_EN 0 = false) ∧
    (let g : Gpio := { out := true, pulse := some 5 }; let s := (gp g 5).advance 0; s.pin 0 = g ∧ 5 ≤ s.now ∧ s.flt.safe = false) := by
  (repeat' apply And.intro) <;> first | decide +kernel | rfl

/-- The grid timebase is on in state v, its last valid estimate at 0. -/
def gr (v n : Nat) : State :=
  let t := (fs (tm 2) [(F.TIME_GRID_CFG.EN, 0, 1)]).setReg .TIME_GRID_NOW 0 3 v
  { t with now := n, clock := { t.clock with gridLast := some (0, 0, 52428800) } }
def ge : GridEst := { angle := 0, freq := 52428800, magPct := 100, age := 0, good := true, sync := true }

/-- Meets the hypotheses of GridTimebaseFollowsEstimates. -/
theorem wit_grid :
    (let s := (gr 0 0).advance 0; s.flag F.TIME_GRID_CFG.EN 0 = true ∧ s.ready 9 = true ∧ s.estValid { ge with freq := 47185919 } = false) ∧
    (let s := (gr 0 499999).advance 0; s.estValid ge = true ∧ s.gridState = 0 ∧ s.clock.gridLast = some (0, 0, 52428800) ∧ s.now < 0 + 500000 ∧ ge.rocofHigh = false) ∧
    (let s := (gr 0 500000).advance 0; s.gridState = 0 ∧ 0 + 500000 ≤ s.now) ∧
    (let s := (gr 1 200000000).advance 0; s.clock.gridLast = some (0, 0, 52428800) ∧ s.gridState = 1 ∧ 10 * 1000000000 * 1048576 ≤ (s.now - 0) * 52428800) := by
  (repeat' apply And.intro) <;> first | decide +kernel | rfl

/-! ## Witnesses: measurement, recorder, events -/

/-- Stream 5 is enabled at 4,000 samples a second. -/
def ms : State := fs (tm 2) [(F.PHX_STREAM.EN, 5, 1), (F.PHX_STREAM.SMP_RATE, 5, 4000), (F.PHX_STREAM.LOSS_US, 5, 1)]
/-- A delivered sample record of key k. -/
def dl (k : Nat) : Delivered := { side := .sv k 0 0 0 [], port := 0, ts := 0, tsPtp := 0, gen := 0 }
def mq (k : Nat) (off : List Nat) : State := { ms with sideQ := [dl k], pwr := { ms.pwr with banksOff := off } }

/-- Meets the hypotheses of SamplesReachTheirStreams. -/
theorem wit_samples :
    (let s := (mq 9 []).advance 0; readySv s.sideQ [] = some (dl 9) ∧ s.phxRuns = true ∧ (s.streamsOn.find? fun i => s.streamKey i == 9) = none) ∧
    (let s := (mq 0 [0]).advance 0; (s.streamsOn.find? fun i => s.streamKey i == 0) = some 5 ∧ s.phxFenced 5 = false ∧ s.pwr.banksOff.contains (5 / 1024) = true) ∧
    ((mq 0 []).advance 0).pwr.banksOff.contains (5 / 1024) = false ∧ ((mq 0 []).advance 0).phxWild = false ∧
    (let t : State := { ms with streams := [(5, { seen := true, state := 2 })], now := 1000 }; let s := t.advance 0; (s.stream 5).seen = true ∧ (s.stream 5).state ≠ 3 ∧
      s.flag F.PHX_STREAM.EN 5 = true ∧ s.phxRuns = true ∧ (s.stream 5).last + 1000 * max 1 (s.fld F.PHX_STREAM.LOSS_US 5) ≤ s.now) ∧
    (let s := ms.advance 0; s.ready 3 = true ∧ s.streamsOn = [5] ∧ s.smpRate 5 ≠ 0 ∧ s.power < 3 ∧ (s.streamsOn.any fun i => i / 1024 == 0) = true ∧ s.smpRate 5 ≤ 4000) := by
  (repeat' apply And.intro) <;> first | decide +kernel | rfl

def mh : State := { fs ms [(F.PHX_HARM.EN, 7, 1), (F.PHX_HARM.STREAM, 7, 5)] with now := 1000000000, clock := { ms.clock with ptp := 1000000000 * (ptpUnit : Nat) } }

/-- Meets the hypotheses of HarmonicsAndPhasorReports. -/
theorem wit_harmonics :
    (let s := mh.advance 0; s.fld F.PHX_HARM.STREAM 7 = 5 ∧ s.nomF 5 = 50 ∧ s.flag F.PHX_HARM.EN 7 = true ∧ s.phxRuns = true ∧ s.shed 2 = false ∧ s.phxFenced 5 = false ∧
      s.flag F.PHX_STREAM.EN 5 = true ∧ s.smpRate 5 ≠ 0 ∧ (s.harmEnd 5).1 = s.ptp ∧
      (let x := (s.harmEnd 5).2; sget x.harmAt 0 7 + 10 * 1000000000 / (x.nomF 5 + 15) ≤ s.ptp ∧ (x.harmWindow 7 5 10 s.ptp).2 = false)) ∧
    (let t := fs ms [(F.PHX_PMU.EN, 3, 1), (F.PHX_PMU.RATE, 3, 50)]; let s := t.advance 0; s.flag F.PHX_PMU.EN 3 = true ∧ s.phxRuns = true ∧ s.pmuAt 3 = some 0 ∧ 0 ≤ s.ptp ∧
      s.pmuReady 3 0 = true ∧ s.flag F.TIME_STATUS.TRACEABLE 0 = false) := by
  (repeat' apply And.intro) <;> first | decide +kernel | rfl

def rec0 : Record := { trig := 0, start := 0, stop := 0, first := 0, reason := 1 }

/-- Meets the hypotheses of RecordsPointsAndClientsEnd. -/
theorem wit_records :
    (let t : State := { tm 2 with recs := [(9, [rec0])] }; let s := State.advance { t with clock := { t.clock with ptp := 10000000 * (ptpUnit : Nat) } } 0;
      s.records 9 = [rec0] ∧ rec0.isOpen = true ∧ rec0.grid = false ∧ rec0.stop + 10000000 ≤ s.ptp) ∧
    (let p : Point := { grid := false, at_ := 0, kind := .goose 0 }; let t := tm 2; let s := State.advance { t with clock := { t.clock with points := [p] } } 0;
      s.clock.points[0]? = some p ∧ p.late = false ∧ p.reachedAt (p.clock s) = true ∧ p.period = 0) ∧
    (let p : Point := { grid := false, at_ := 0, kind := .goose 0, late := true }; let t := tm 2; let s := State.advance { t with clock := { t.clock with points := [p] } } 0;
      s.clock.points[0]? = some p ∧ p.late = true) ∧
    (let s := State.advance { tm 2 with pmuConn := [(15, { at_ := 0, key := 0 })], now := 5000000000 } 0; sfind s.pmuConn 15 = some { at_ := 0, key := 0 } ∧ 0 + 5000000000 ≤ s.now) := by
  (repeat' apply And.intro) <;> first | decide +kernel | rfl

/-- Meets the hypotheses of EventPassesRun. -/
theorem wit_events :
    (let e : EvIn := { src := .gpio 0, value := 1 }; let s := State.advance { tm 2 with evtQ := [e] } 0; s.evtQ = [e] ∧ s.ready 10 = true) ∧
    (let s := State.advance { tm 2 with conds := [(3, { timer := some 7 })], now := 7 } 0; (s.cond 3).timer = some 7 ∧ 7 ≤ s.now ∧ s.ready 10 = true) ∧
    (let s := State.advance { fs (tm 2) [(F.EVT_SUB.HOLD_MS, 4, 1)] with subs := [(4, { state := 1 })], now := 1000000 } 0;
      (sget s.subs {} 4).state = 1 ∧ (sget s.subs {} 4).last + 1000000 * max 1 (s.fld F.EVT_SUB.HOLD_MS 4) ≤ s.now) ∧
    (let s := State.advance { tm 2 with fswQ := [(1, false)] } 0; s.fswQ = [(1, false)] ∧ s.flag F.EVT_FSW_STAT.ON 1 = false) ∧
    (let s := State.advance { tm 2 with fswQ := [(1, true)] } 0; s.flag F.EVT_FSW_STAT.ON 1 ≠ true ∧ (s.txn.isSome && s.stagedAny) = false ∧ s.commitFree = true ∧
      ((s.fswMissed 1 true).fswStage 1 true).isSome = true) := by
  (repeat' apply And.intro) <;> first | decide +kernel | rfl

/-- A rung of an exact-match action set that fenced line 12 keeps from being staged. -/
def f1 : State := { fs (State.reset.setReg .EVT_FSW 0 5 256) [(F.EXM_LTBL_CTL.KIND, 0, 1)] with exm := [(0, { key := 0, from_ := 0, table := 0 })], flt := { fenced := [12] } }

/-- GOOSE publisher 0 and PMU 3 are on, with room in the buffers and a template in RW_ENCAP[0]. -/
def g0 : State := fs (State.reset.setReg .ADM_EGR 0 0 1000) [(F.PORT_QUAD_CFG.MODE, 0, 1), (F.EVT_GPUB.EN, 0, 1), (F.EVT_GPUB.LEN, 0, 64), (F.BUF_POOL_CFG.COUNT, 0, 10),
  (F.EVT_GPUB.SQNUM_OFF, 0, 8), (F.EVT_GPUB.TAL_OFF, 0, 16), (F.EVT_GPUB.T_OFF, 0, 24)]

/-- Meets the hypotheses of EventPassesRun. -/
theorem wit_switch_fails : (let s := State.advance { f1 with fswQ := [(0, true)] } 0; s.flag F.EVT_FSW_STAT.ON 0 ≠ true ∧ (s.txn.isSome && s.stagedAny) = false ∧ s.commitFree = true ∧ ((s.fswMissed 0 true).fswStage 0 true).isNone = true) := by
  (repeat' apply And.intro) <;> first | decide +kernel | rfl

/-- Meets the hypotheses of GooseFramesFollowTheirSchedule. -/
theorem wit_goose :
    (let g : Gpub := { due := some 0 }; let u := State.advance { g0 with gpub := [(0, g)] } 0; let v := (u.gooseBytes 0 0).2; let hs := u.gooseHdrs 0;
      u.tmpl 0 = g ∧ u.flag F.EVT_GPUB.EN 0 = true ∧ u.flt.safe = false ∧ u.pwr.closing = false ∧ bit (u.gw 0 2) 0 = false ∧
      (match v.publish (u.gooseBytes 0 0).1 hs [(4, 16), (6, hdrIdx hs [6, 7] + 256 * hdrIdx hs [9, 10] + 65536 * hdrIdx hs [13, 14, 15]), (8, hdrIdx hs [16])]
        (u.fld F.EVT_GPUB.DEST 0) (u.flag F.EVT_GPUB.GROUP 0) (u.fld F.EVT_GPUB.QUEUE 0) (u.fld F.EVT_GPUB.CLASS 0) none with | some (true, _) => true | _ => false) = true) ∧
    (let g : Gpub := { next := some 7 }; let u := State.advance { g0 with gpub := [(0, g)], now := 7 } 0; u.tmpl 0 = g ∧ 7 ≤ u.frc) := by
  (repeat' apply And.intro) <;> first | decide +kernel | rfl
def m0 : State := { fs (g0.setReg .HOST_READY 0 0 512) [(F.TIME_STATUS.TRACEABLE, 0, 1), (F.PHX_PMU.EN, 3, 1), (F.PHX_PMU.RATE, 3, 50)] with
  ver := sset [] (VTab.RW_ENCAP.code * 4294967296) [{ from_ := 0, words := List.replicate 16 0 ++ [14, 0, 0, 0], settled := true }] }

/-- Meets the hypotheses of HarmonicsAndPhasorReports. -/
theorem wit_pmu :
    (let u := m0.advance 0; let x := (rwStart u { port := 42, pl := 0, bytes := u.pmuFrame 3 0, gen := u.cur } 0 42).encap (u.fld F.PHX_PMU.ENCAP 3) (tmplOf (u.verAt .RW_ENCAP (u.fld F.PHX_PMU.ENCAP 3) u.cur)) 0;
      u.flag F.PHX_PMU.EN 3 = true ∧ u.phxRuns = true ∧ u.pmuAt 3 = some 0 ∧ 0 ≤ u.ptp ∧ u.pmuReady 3 0 = true ∧ u.flag F.TIME_STATUS.TRACEABLE 0 = true ∧
      x.dead = false ∧ x.bad = false ∧ (x.s.publish x.b [] [(4, 16), (6, 0x1F1F1F), (8, 31)] (u.fld F.PHX_PMU.DEST 3) (u.flag F.PHX_PMU.GROUP 3) (u.fld F.PHX_PMU.QUEUE 3)
          (u.pubClass (u.fld F.PHX_PMU.QUEUE 3)) none).isSome = true) := by
  (repeat' apply And.intro) <;> first | decide +kernel | rfl

/-! ## Witnesses: batch and DRAM -/

/-- Link 0 may come up and is in state v. -/
def lk (v : Nat) : State := fs (tm 2) [(F.PORT_QUAD_CFG.MODE, 7, 5), (F.FAB_CTL.EN, 0, 1), (F.FAB_LINK_CFG.EN, 0, 1), (F.FAB_LINK_STAT.STATE, 0, v)]
def lkw (v : Nat) (k : Link) : State := { lk v with links := [(0, k)], now := 2000000 }

/-- A block of kind k (0 DATA) and SEQ n whose payload is padding, with its CRC plus x. -/
def blk (k n x : Nat) : Bytes := let b : Bytes := toBE n 2 ++ [0, 0, BitVec.ofNat 8 (64 * k)] ++ List.replicate 247 0; b ++ toBE (crc32c 0 b + x) 4

/-- Meets the hypotheses of BlocksAreAcceptedInOrder. -/
theorem wit_blocks :
    (let s := (lk 3).advance 0; 2 ≤ s.linkState 0 ∧ (blk 0 0 1).length = 256 ∧ crc32c 0 ((blk 0 0 1).take 252) ≠ beNat (blk 0 0 1) 252 4 ∧ byteAt (blk 0 0 1) 4 < 64 ∧
      crc32c 0 ((blk 1 0 1).take 252) ≠ beNat (blk 1 0 1) 252 4 ∧ 64 ≤ byteAt (blk 1 0 1) 4 ∧
      crc32c 0 ((blk 1 0 0).take 252) = beNat (blk 1 0 0) 252 4 ∧ 64 ≤ byteAt (blk 1 0 0) 4 ∧
      crc32c 0 ((blk 0 7 0).take 252) = beNat (blk 0 7 0) 252 4 ∧ byteAt (blk 0 7 0) 4 < 64 ∧ beNat (blk 0 7 0) 0 2 ≠ (sget (s.modLink 0 fun k => k.release 0 s.now).links {} 0).expect ∧
      beNat (blk 0 0 0) 0 2 = (sget (s.modLink 0 fun k => k.release 0 s.now).links {} 0).expect) ∧
    (let s := (lkw 3 { retry := 1, resends := 15, nakOut := true }).advance 0; (sget s.links {} 0).retry ≠ 0 ∧ (sget s.links {} 0).retryAt + 2000000 ≤ s.now ∧
      15 ≤ (sget s.links {} 0).resends ∧ (sget s.links {} 0).nakOut = true) ∧
    (sget ((lkw 3 { retry := 1, resends := 14 }).advance 0).links {} 0).resends < 15 := by
  (repeat' apply And.intro) <;> first | decide +kernel | rfl

/-- A HELLO of member 3 that passes, and one of this member itself. -/
def hel (m : Nat) : Hello := {
   member := m, link := 0, vers := { fw := 0, fwCompat := 0, recipes := [] }, epoch := 0, digest := [], certOk := true, sigOk := true, nonceOk := true, lifecycle := 1, debug := 0, ownerMatch := true }
def lks (v : Nat) : State := { lk v with sec := { lifecycle := 1 } }

/-- Meets the hypotheses of LinksComeUpAndMembersLeave. -/
theorem wit_niben_links :
    (let s := (lkw 1 { lockAt := some 0 }).advance 0; s.linkAllowed 0 = true ∧ s.linkState 0 ≤ 1 ∧ (sget s.links {} 0).lockAt = some 0 ∧ 0 + 1000000 ≤ s.now) ∧
    (let s := (lks 2).advance 0; s.linkState 0 = 2 ∧ s.helloRefusal (hel 0) = some 1 ∧ s.helloRefusal { hel 3 with certOk := false } = some 2 ∧ s.helloRefusal (hel 3) = none) ∧
    (let s := (lk 3).advance 0; (0 = s.member ∨ ((sget s.peers {} 0).links = [] ∧ (sget s.peers {} 0).ports = [])) ∧ 5 ≠ s.member ∧ ((sget s.peers {} 5).links ≠ [] ∨ (sget s.peers {} 5).ports ≠ [1])) ∧
    (let s := State.advance { lk 3 with peers := [(511, { unreachAt := some 0 })], now := 50000000 } 0; (sget s.peers {} 511).unreachAt = some 0 ∧ 0 + 50000000 ≤ s.now) := by
  (repeat' apply And.intro) <;> first | decide +kernel | rfl

/-- A FRAME message with h hops for global port d, to a group's member m where g is set. -/
def fmsg (h d m : Nat) (g : Bool) : FrameMsg := {
   src := 1, hops := h, dest := d, group := g, member := m, cls := 0, colour := 0, markDei := false, hdrs := [], rewrite := none, suspect := false, untrace := false, bytes := List.replicate 60 0, tsNs := 0, tsSec := 0, srcGport := 64, age := 0, hdrIndex := 0, pcp := 0 }

/-- Member 5 asks for credit at port 0 (25 Gb/s), class 0. -/
def cgs : State := { (fs (lk 3) [(F.FAB_CG.THRESH, 0, 100)]).setReg .PORT_STATUS 0 0 160 with cgReq := [(0, [5])], cgAt := [(0, 0)], now := 1000000 }

/-- Meets the hypotheses of FabricMessagesAct. -/
theorem wit_fabric :
    (let s := (lk 3).advance 0; s.linkState 0 = 3 ∧ 15 ≤ (fmsg 15 0 0 false).hops ∧ (fmsg 14 0 0 true).hops < 15 ∧ (fmsg 14 0 0 true).member = s.member ∧ (fmsg 0 63 0 false).dest / 64 = s.member ∧
      (fmsg 0 0 1 true).member ≠ s.member ∧ (fmsg 0 64 0 false).dest / 64 ≠ s.member) ∧
    (let s := cgs.advance 0; sget s.cgReq [] 0 = [5] ∧ s.flag F.FAB_CTL.EN 0 = true ∧ s.rate 0 ≠ 0 ∧ s.occ 0 0 < s.fld F.FAB_CG.THRESH 0 ∧
      ([5].find? fun m => decide (m ≥ sget s.cgNext 0 0)) = some 5 ∧ (sfind s.cgAt 0).isSome = true ∧
      sget s.cgAt 0 0 * (17 * s.rate 0) + 2 ^ (10 + min 6 (s.fld F.FAB_CTL.CREDIT_SZ 0)) * 128000 ≤ s.now * (17 * s.rate 0)) := by
  (repeat' apply And.intro) <;> first | decide +kernel | rfl

def bt (b : Batch) (n : Nat) : State := let s := lk 3; { s with batch := b, now := n }
def txn0 : Txn := { id := 1, ch := 0, sid := 0 }

/-- Meets the hypotheses of BatchCommitRunsItsSteps. -/
theorem wit_batch :
    (let b : Batch := { epoch := 4, segs := [1] }; let s := (bt b 0).advance 0; s.batch.leading = none ∧ ([7] : List Word) ≠ [] ∧ 1 ≠ 0 ∧ 1 ≠ 65535 ∧ s.batch.epoch = 4 ∧ s.batch.whole = false) ∧
    (let s := (bt { leading := some 0 } 0).advance 0; (s.digestReport 4 9 []).batch.leading.isSome = true ∧ s.now < 0 + 100000000) ∧
    (let s := State.advance { bt { cfgAt := some 0 } 90000000 with txn := some txn0 } 0; s.batch.cfgAt = some 0 ∧ s.batch.staged = none ∧ s.txn.isSome = true ∧ 0 + 90000000 ≤ s.now) ∧
    (let s := (bt { leading := some 0 } 100000000).advance 0; s.batch.leading = some 0 ∧ 0 + 100000000 ≤ s.now) ∧
    (let s := (bt { leading := some 0, commitAt := some 0 } 0).advance 0; s.batch.commitAt = some 0 ∧ 0 ≤ s.ptp ∧ s.commitFree = true ∧ s.cfgFree (cfgOf (s.batch.staged.getD [])) = true ∧
      s.batch.leading.isSome = true) ∧
    (let s := (bt { commitAt := some 0 } 0).advance 0; s.batch.leading = none ∧ (s.batch.leading.isSome || (s.batch.staged.isSome && s.batch.own == some s.batch.digest)) = false) ∧
    (let s := (bt { commitAt := some 0, staged := some [], own := some [1], digest := [1] } 0).advance 0; (s.batch.leading.isSome || (s.batch.staged.isSome && s.batch.own == some s.batch.digest)) = true ∧
      s.commitFree = true ∧ s.cfgFree (cfgOf (s.batch.staged.getD [])) = true) ∧
    (let s := (bt {} 1000000000).advance 0; s.isLeader = true ∧ s.batch.resendAt + 1000000000 ≤ s.now) := by
  (repeat' apply And.intro) <;> first | decide +kernel | rfl

/-- Meets the hypotheses of BatchCommitRunsItsSteps. -/
theorem wit_time_messages :
    (let s := State.advance { tm 2 with now := 125000000 } 0; s.batch.timeAt + 125000000 ≤ s.now ∧ ∀ l, l < 8 → s.linkState l ≠ 3) ∧
    ((tm 2).advance 0).now < ((tm 2).advance 0).batch.timeAt + 125000000 ∧
    (let s := (lkw 3 { txTime := 5 }).advance 0; s.linkState 0 = 3 ∧ 7 ≠ 0 ∧ (sget s.links {} 0).txTime ≠ 0 ∧ s.disagreement 0 = some 0) ∧
    (let s := fs ((lkw 3 { txTime := 5 }).advance 0) [(F.FAB_STATE.MEMBER_ID, 0, 5)]; s.linkState 0 = 3 ∧ (sget s.links {} 0).txTime ≠ 0 ∧ s.disagreement 0 = none) := by
  (repeat' apply And.intro) <;> first | decide +kernel | rfl

/-- Stack 0 is trained and holds one read of a class. -/
def dreq : DramReq := { cls := 1, addr := 64, write := false, at_ := 0 }
def dr (rows : Sparse Nat) : State := { fs (tm 2) [(F.DRAM_STAT.TRAINED, 0, 1)] with dramCh := [(0, { reqs := [dreq], rows := rows })], now := 1000000000 }

/-- Meets the hypotheses of DramServesAndRests. -/
theorem wit_dram :
    (let s := (((dr []).advance 0).coreReqs 0 []).dramPromote 0; bit (s.reg .DRAM_STAT 0 0) 0 = true ∧ bit (s.reg .DRAM_STAT 0 0) 1 = false ∧ (sget s.dramCh {} 0).calEnd ≤ s.now ∧
      (sget s.dramCh {} 0).choose = some 0 ∧ (sget s.dramCh {} 0).reqs.length = 1) ∧
    (let s := (dr []).advance 0; (sget s.dramCh {} 0).calAt + 1000000000 ≤ s.now) ∧
    (let s := (dr [(9, 5)]).advance 0; sfind (sget s.dramCh {} 0).rows 9 = some 5 ∧ 5 + 1000 ≤ s.now) := by
  (repeat' apply And.intro) <;> first | decide +kernel | rfl

/-- Meets the hypotheses of DramServesAndRests. -/
theorem wit_dram_row : DramCh.hit { reqs := [dreq] } dreq = false ∧ DramCh.hit { reqs := [dreq], rows := [(Config.dramRow 64, 0)] } dreq = true := by
  simp [DramCh.hit, sfind, dreq]

/-! ## Witnesses: faults, journal, interrupts -/

/-- Line 36 is set in FAULT_WORD. -/
def fw : State := (tm 2).setReg .FAULT_WORD 0 1 16

/-- Meets the hypotheses of FaultLinesLatchAndEscalate. -/
theorem wit_fault_lines :
    ((tm 2).advance 0).pwr.on = true ∧ ownLine 36 = false ∧ ownLine 0 = false ∧ ((tm 2).advance 0).reg .FAULT_WORD 0 1 &&& 4294967295 = 0 ∧
    (let s := fw.advance 0; (List.range 32).filter (bit (s.reg .FAULT_WORD 0 1 &&& 16)) = [4] ∧
      (((s.setReg .FAULT_WORD 0 1 0).irqSignal 100 false).evtLine 68 false).flt.cond.contains 36 = false) ∧
    (let s := State.advance { fw with flt := { cond := [36] } } 0; (((s.setReg .FAULT_WORD 0 1 0).irqSignal 100 false).evtLine 68 false).flt.cond.contains 36 = true) ∧
    (let s := State.advance { fw with flt := { watch := [(36, 5)] }, now := 5 } 0; sfind s.flt.watch 36 = some 5 ∧ 5 ≤ s.now ∧ bit s.faultWord 36 = true ∧ s.flt.safe = false ∧ s.flt.copyOk = true) ∧
    (let s := State.advance { tm 2 with flt := { watch := [(36, 5)] }, now := 5 } 0; bit s.faultWord 36 = false) ∧
    (let s := State.advance { fs (tm 2) [(F.FLT_ESC.STAGE, 0, 1)] with now := 60000000000 } 0; s.escStage ≠ 0 ∧ sget s.flt.lastAt 0 s.escLine + 60000000000 ≤ s.now) ∧
    (SafeCause.force ≠ .escalation ∧ SafeCause.force ≠ .thermal) := by
  (repeat' apply And.intro) <;> first | decide +kernel | rfl

/-- The watchdog was last kicked at 0 and has a period of 30 s; n resets in a row have happened. -/
def wd (t n : Nat) : State := { fs (tm 2) [(F.FLT_ESC.WDOG_RESETS, 0, n)] with flt := { wdogAt := some 0, wdogTop := true }, now := t }

/-- Meets the hypotheses of WatchdogWarnsAndResets. -/
theorem wit_watchdog :
    (0x4B48#16 ≠ 0x4B49#16) ∧ (let s := (wd 15000000000 0).advance 0; s.flt.wdogAt = some 0 ∧ s.flt.warned = false ∧ 0 + s.wdogNs / 2 ≤ s.now) ∧
    (let s := (wd 30000000000 1).advance 0; 0 + s.wdogNs ≤ s.now ∧ ((s.wdogRestart s.flt.wdogTop).latch 40).fld F.FLT_ESC.WDOG_RESETS 0 < 2) ∧
    (let s := (wd 30000000000 2).advance 0; 2 ≤ ((s.wdogRestart s.flt.wdogTop).latch 40).fld F.FLT_ESC.WDOG_RESETS 0) := by
  (repeat' apply And.intro) <;> first | decide +kernel | rfl

/-- Source 40 is pending for management core 0 at priority 3. -/
def ir : State := { fs (tm 2) [(F.IRQ_SRC.ENABLE, 40, 1), (F.IRQ_SRC.PRIO, 40, 3), (F.IRQ_SRC.TARGET, 40, 0)] with irq := { pend := [40] } }

/-- Meets the hypotheses of JournalAndInterruptsAct. -/
theorem wit_journal_interrupts :
    (let s := State.advance { tm 2 with journal := { fresh := true }, now := 60000000000 } 0; s.journal.fresh = true ∧ s.journal.signAt + 60000000000 ≤ s.now) ∧
    ((tm 2).advance 0).journal.queue = [] ∧
    (let s := State.advance { tm 2 with journal := { queue := [(1, 2, 3, 4)] } } 0; s.journal.queue = [(1, 2, 3, 4)] ∧ (State.jWrite { s with journal := { s.journal with queue := [] } } 1 2 3 4).journal.dropped = 0) ∧ irqUsed 40 = true ∧ irqUsed 6 = false ∧
    ((ir.advance 0).irqBest 0 = some 40 ∧ ((tm 2).advance 0).irqBest 0 = none) ∧
    (let s := State.advance { ir with irq := { stack := [(0, [(40, 3)])] } } 0; (sget s.irq.stack [] 0).any (fun a => a.1 == 40) = true ∧ (sget s.irq.stack [] 0).any (fun a => a.1 == 41) = false) ∧
    (let s := State.advance { fs (tm 2) [(F.IRQ_GROUP.TIME_US, 2, 3)] with irq := { first := [(2, 0)] }, now := 3000 } 0; sfind s.irq.first 2 = some 0 ∧
      0 + 1000 * max 1 (s.fld F.IRQ_GROUP.TIME_US 2) ≤ s.now) ∧
    (let s := State.advance { fs ir [(F.IRQ_TGT.STALE_MS, 0, 1)] with irq := { pend := [40], asleep := [0], stale := [(40, 0)] }, now := 1000000 } 0; s.irqTarget0 40 = 0 ∧ sfind s.irq.stale 40 = some 0 ∧
      s.fld F.IRQ_TGT.STALE_MS 0 ≠ 0 ∧ s.irq.asleep.contains 0 = true ∧ 0 + 1000000 * s.fld F.IRQ_TGT.STALE_MS 0 ≤ s.now) := by
  (repeat' apply And.intro) <;> first | decide +kernel | rfl

/-- Source 0 is pending for management core 0 at the highest priority. -/
def ir0 : State := { fs (tm 2) [(F.IRQ_SRC.ENABLE, 0, 1), (F.IRQ_SRC.PRIO, 0, 15), (F.IRQ_SRC.TARGET, 0, 0)] with irq := { pend := [0] } }
def irs : State := { ir with irq := { asleep := [0] } }

/-- Meets the hypotheses of ClaimTakesTheHighestPriority. -/
theorem wit_claim : (∀ j, (irs.advance 0).irqDeliverable 0 j = false) ∧ ((ir0.advance 0).irqDeliverable 0 0 = true ∧
    ∀ j, (ir0.advance 0).irqDeliverable 0 j = true → (ir0.advance 0).irqPrio j < (ir0.advance 0).irqPrio 0 ∨ ((ir0.advance 0).irqPrio j = (ir0.advance 0).irqPrio 0 ∧ 0 ≤ j)) := by
  refine ⟨fun j => ?_, by decide +kernel, fun j _ => ?_⟩
  · have h : (irs.advance 0).irq.asleep.contains 0 = true := by decide +kernel
    unfold State.irqDeliverable
    rw [h, Bool.not_true, Bool.and_false]
  · have h : (ir0.advance 0).irqPrio 0 = 15 := by decide +kernel
    have hb : (ir0.advance 0).irqPrio j < 16 := Nat.mod_lt _ (by decide)
    rw [h]; omega

/-! ## Witnesses: supply, starts, registers, pins -/

/-- The supply is p; MGMT, SEC, TIME and DRAM are READY. -/
def pw (p : Pwr) (n : Nat) : State := { up [0, 1, 2, 3, 4, 10] with pwr := p, now := n }
def img0 : Image := { fieldsOk := true, version := 1, compat := 1, svn := 0, keyIndex := 0, revoke := 0, header := [], sig := [], digest := [], body := [] }

/-- Meets the hypotheses of SupplyEventsTakeTheirStates. -/
theorem wit_supply :
    (let s := (pw {} 0).advance 0; s.pwr.on = true ∧ s.pwr.onStore = false ∧
      (let v := State.setStore { s with pwr := { s.pwr with onStore := true, chargeAt := none } } 43999; v.flt.safe = false ∧ 43999 < 44000)) ∧
    (let s := State.advance { pw {} 0 with flt := { safe := true } } 0; s.pwr.on = true ∧ s.pwr.onStore = false ∧
      (State.setStore { s with pwr := { s.pwr with onStore := true, chargeAt := none } } 44000).flt.safe = true) ∧
    (State.advance (State.setPower (pw {} 0) 3) 0).power = 3 ∧
    (let s := (pw { onStore := true } 0).advance 0; s.pwr.on = true ∧ s.pwr.onStore = true ∧
      (let v : State := State.warnRelease { s with pwr := { s.pwr with onStore := false, chargeAt := some s.now, undoAt := none } }; v.flt.safe = false ∧ v.ready 0 = true) ∧
      39999 ≤ 40000) ∧
    (let s := State.advance { pw { onStore := true } 0 with flt := { safe := true } } 0; s.pwr.onStore = true ∧
      (State.warnRelease { s with pwr := { s.pwr with onStore := false, chargeAt := some s.now, undoAt := none } }).flt.safe = true) ∧
    (let s := State.advance { State.reset with pwr := { onStore := true } } 0;
      ({ s with pwr := { s.pwr with onStore := false, chargeAt := some s.now, undoAt := none } } : State).warnRelease.ready 0 = false) ∧
    (let s := (pw { undoAt := some 0, shedDone := 2 } 1000000).advance 0; s.pwr.undoAt = some 0 ∧ s.pwr.onStore = false ∧ s.pwr.shedDone = 1 + 1 ∧ 0 + 1000000 ≤ s.now) ∧
    (let s := (pw { high := true } 0).advance 0; s.pwr.high = true ∧ s.pwr.onStore = false ∧ 16500 ≤ 17999 ∧ 17999 < 18000) ∧
    (let s := (fs (pw {} 0) [(F.PWR_STAT.VIN_LOW, 0, 1)]).advance 0; s.flag F.PWR_STAT.VIN_LOW 0 = true ∧ s.pwr.onStore = false) ∧
    (let s := (pw { chargeAt := some 0 } 25000000000).advance 0; (State.setStore { s with pwr := { s.pwr with cap := 900000 } } 79999).chargeLate 79999 = true ∧
      (State.setStore { s with pwr := { s.pwr with cap := 900000 } } 80000).chargeLate 80000 = false ∧
      (State.setStore { s with pwr := { s.pwr with cap := 900000 } } 79999).pwr.chargeAt = some 0) ∧
    ((115 * 256 : Int) ≤ 115 * 256 ∨ (135 * 256 : Int) ≤ 0) := by
  (repeat' apply And.intro) <;> first | decide +kernel | (left; decide) | rfl

/-- Meets the hypotheses of StartsResetsAndProofs. -/
theorem wit_starts :
    (let s := (pw { on := false } 0).advance 0; s.pwr.on = false ∧ s.pwr.thermal = false ∧ (if true then 19500 else 36000) ≤ 19500 ∧ (if false then 19500 else 36000) ≤ 36000) ∧
    (let s := (pw { on := false, thermal := true } 0).advance 0; s.pwr.on = false ∧ s.pwr.thermal = true ∧ (90 * 256 : Int) ≤ 90 * 256 ∧ s.startMv ≤ 36000) ∧
    (let s := State.reset.advance 0; s.pwr.on = true ∧ s.pwr.onStore = false ∧ s.sec.running = none ∧ s.fld F.HOST_READY.STAGE 0 = 0 ∧ s.sec.udsKill = false) ∧
    (let s := State.advance { State.reset with sec := { running := some img0 } } 0; s.mayProof .sec = true ∧ s.ready Fn.sec.bit = false ∧ s.proofLines .sec = [] ∧ sget s.tries 0 Fn.sec.code < 2 ∧
      sget s.tries 0 Fn.sec.code = 0) ∧
    (let s := State.advance { up [0] with sec := { running := some img0 }, now := 19999999 } 0; s.mayProof .time = true ∧ s.ready Fn.time.bit = false ∧ s.proofLines .time = [] ∧ s.proofLate .time = false) ∧
    (State.advance { up [0] with sec := { running := some img0 }, now := 20000000 } 0).proofLate .time = true ∧
    (let s := State.advance { State.reset with sec := { running := some img0 }, tries := [(Fn.sec.code, 1)] } 0; sget s.tries 0 Fn.sec.code = 1) ∧
    (let s := (fs (pw { okAt := [(Measure.code (.bankOff 0), 0)] } 25000000) [(F.PWR_BUDGET.BUDGET_US, 1, 20000)]).advance 0; s.measureOk (.bankOff 0) = true) ∧
    ((pw {} 0).advance 0).measureOk .quiesce = false ∧
    (let s := (pw { gated := [0] } 0).advance 0; s.pwr.gated.contains 0 = true ∧ s.power < 3 ∧ s.wakes 0 .signalDetect = true ∧
      (let v := State.quiesceEnd { s with pwr := { s.pwr with gated := del s.pwr.gated 0 } }; v.plFenced 0 = false ∧ v.sec.lifecycle ≠ 3)) ∧
    (let s := State.advance { pw { gated := [0] } 0 with flt := { fenced := [0] } } 0; (State.quiesceEnd { s with pwr := { s.pwr with gated := del s.pwr.gated 0 } }).plFenced 0 = true) := by
  (repeat' apply And.intro) <;> first | decide +kernel | rfl

/-- Channel 2 is enabled; its request ring has 16 slots. -/
def mb (c : Chan) : State := { fs (up [0, 1, 10, 11, 13]) [(F.MBX_RING.EN, 2, 1), (F.HDMA_TX.EN, 7, 1), (F.HDMA_RX.EN, 7, 1)] with mbx := [(2, c)] }

/-- Meets the hypotheses of RegistersAndDoorbellsAct and DoorbellsTooFarSetError. -/
theorem wit_doorbells :
    (let s := (mb {}).advance 0; s.mbxEn 2 = true ∧ serial (s.reqCi 2) 16 16 ≤ 2 ^ s.reqLog 2 ∧ 2 ^ s.reqLog 2 < serial (s.reqCi 2) 17 16 ∧
      serial (s.chan 2).cplCi 0 16 ≤ serial (s.chan 2).cplCi (s.cplPi 2) 16 ∧ serial (s.chan 2).cplCi (s.cplPi 2) 16 < serial (s.chan 2).cplCi 1 16 ∧
      s.flag F.HDMA_TX.EN 7 = true ∧ s.flag F.HDMA_RX.EN 7 = true) ∧
    (let a : RegAddr := { reg := .MBX_RING, idx := 15, word := 0 }; a.wf = true) ∧
    (let s := State.advance { mb {} with txn := some txn0, now := 10000000000 } 0; s.txn = some txn0 ∧ txn0.own = false ∧ txn0.commit = false ∧ txn0.last + 10000000000 ≤ s.now) ∧
    (let s := State.advance { mb {} with rings := [(7, { pi := 1 })] } 0; s.ready 13 = true ∧ s.txTurn = some 7 ∧
      (s.inject 40 0 (fit 60 (List.replicate 60 0))).isSome = true ∧ (s.ring 7).held = none ∧ ({ s with frames := [] } : State).ready 13 = true) := by
  (repeat' apply And.intro) <;> first | decide +kernel | rfl

/-- A debugger at level d. -/
def jt (d : Nat) : State := { up [0, 1] with sec := { debug := d, running := some img0 } }

/-- Meets the hypotheses of PinsAndSecurityEventsAct. -/
theorem wit_pins :
    (let s := (jt 0).advance 0; s.pwr.on = true ∧ s.sec.running = some img0 ∧ s.sec.debug ≠ 1 ∧ s.sec.debug = 0) ∧
    (let a : RegAddr := { reg := .PORT_CFG, idx := 0, word := 0 }; ((jt 2).advance 0).sec.debug = 2 ∧ a.outsideSec = true ∧ ((jt 2).advance 0).clockStopped a.reg a.idx = false ∧ ((jt 1).advance 0).sec.debug = 1) ∧
    (let s := State.advance { up [1] with sec := { caks := [(0, ([], []))] } } 0; (s.sakOf 0 none).isSome = true ∧ s.sec.debug ≠ 1 ∧ s.ready 1 = true) ∧
    (let o : Opening := { sid := 1, op := 0, t1 := [], sd := [], xd := [], xh := [], at_ := 0 }; let s := State.advance { up [1] with sec := { opening := [(3, o)] }, now := 10000000000 } 0;
      sfind s.sec.opening 3 = some o ∧ o.at_ + 10000000000 ≤ s.now) ∧
    (let x : Session := { sid := 1, op := 0, key := [] }; let s := State.advance { up [1] with sec := { sessions := [(3, x)] }, now := 900000000000 } 0;
      s.session 3 = some x ∧ x.last + s.idleNs ≤ s.now) := by
  (repeat' apply And.intro) <;> first | decide +kernel | rfl

/-! ## Witnesses: mailbox commands -/

/-- Channel 0 has one request waiting, every function is READY, and the expert level is enabled; lifecycle BLANK. -/
def cf (s : State) : State := { fs s [(F.MBX_RING.EN, 0, 1)] with mbx := [(0, { pi := 1 })], sec := { s.sec with policy := 66436 } }
def all : State := up (List.range 16)
def rq (arg : Word) (n : Nat) (p : List Word) : Req := { ch := 0, arg := arg, inLen := n, payload := p }
def openTx (s : State) : State := { s with txn := some { id := 5, ch := 0, sid := 0 } }
def inTx (r : Req) : Req := { r with txn := 5 }

/-- A configuration record of one word. -/
def rec1 (code i v : Nat) : List Word := [w32 code, w32 i, w32 v]
/-- The records of a request. -/
def recs (r : Req) (op : Nat) : List CfgRec := match r.cfgRecs op false with | .ok l => l | .error _ => []
/-- What applying them to w leaves, and that none is refused. -/
def after (k : CfgCmd) (w : State) (l : List CfgRec) : State := match w.cfgApply (k.cmd.op == 0x8011) l with | .ok t => t | .error _ => w
def fits (k : CfgCmd) (r : Req) (b w : State) (l : List CfgRec) : Bool :=
  (match w.cfgApply (k.cmd.op == 0x8011) l with | .ok _ => true | .error _ => false) &&
  (let t := after k w l; (l.findSome? fun e => (cfgRefuse (b.levelOk { k.cmd with expert := true, role := some 2 } r) b (t.verWrite (cfgVers l)) (t.verWrite (cfgVers l)).preview e).map
    fun st => (st, e.off)).isNone)

def cfu : State := (cf all).advance 0
def cft : State := (cf (openTx all)).advance 0
def rPort : Req := rq 0 12 (rec1 0x002 0 1)
def rRw : Req := rq 0 12 (rec1 0x030 0 15)
def rPair : Req := rq 0 12 (rec1 0x062 0 1)
def rExm : Req := inTx (rq 0 12 (rec1 0x014 0 (19 * 262144 + 32 * 8388608)))

/-- Meets the hypotheses of ConfigurationCommandsApply. -/
theorem wit_config_accepts : Accepts CfgCmd.port.cmd rPort cfu ∧ Accepts CfgCmd.rw.cmd rRw cfu ∧ Accepts CfgCmd.predPair.cmd rPair cfu ∧ Accepts CfgCmd.exmTable.cmd rExm cft ∧
    Accepts CfgCmd.port.cmd (inTx rPort) cft ∧ Accepts CfgCmd.fault.cmd (rq 1 0 []) cfu ∧ Accepts CfgCmd.port.cmd (rq 0 4 [2]) cfu ∧ Accepts CfgCmd.port.cmd rPort cft := by
  (repeat' apply And.intro) <;> first | decide +kernel | rfl

/-- Meets the hypotheses of ConfigurationCommandsApply. -/
theorem wit_config :
    (match (rq 0 4 [2]).cfgRecs 0x30 false with | .error off => off == 0 | .ok _ => false) = true ∧ bit rPort.arg.toNat 31 = false ∧
    (match rExm.cfgRecs 0x50 false with | .ok l => (match (begun CfgCmd.exmTable.cmd rExm cft).cfgApply false l with | .error (0, 0x104) => true | _ => false) | .error _ => false) = true ∧
    (let b := begun CfgCmd.port.cmd (inTx rPort) cft; let l := recs rPort 0x30; (match rPort.cfgRecs 0x30 false with | .ok m => m == l | .error _ => false) = true ∧ (inTx rPort).txn ≠ 0 ∧
      fits .port (inTx rPort) b b l = true ∧ cfgVers l = [] ∧ l.any CfgRec.stages = true) ∧
    (let b := begun CfgCmd.predPair.cmd rPair cfu; let l := recs rPair 0xA0; l.any CfgRec.stages = false ∧ fits .predPair rPair b b l = true ∧ l.length = 1) ∧
    (begun CfgCmd.port.cmd rPort cft).txn ≠ none ∧
    (let b := begun CfgCmd.port.cmd rPort cfu; b.txn = none ∧ fits .port rPort b (owned rPort b) (recs rPort 0x30) = true) ∧
    (let b := begun CfgCmd.rw.cmd rRw cfu; let l := recs rRw 0x70; l.any CfgRec.stages = true ∧ b.txn = none ∧ cfgVers l ≠ [] ∧ fits .rw rRw b (owned rRw b) l = true ∧
      (cfgVers l).all (fun x => (after .rw (owned rRw b) l).verFree x.1 x.2.1) = true) := by
  (repeat' apply And.intro) <;> first | decide +kernel | rfl

/-- Line 12 is fenced; its unit is reset under UNFENCE. -/
def fen : State := State.advance { cf all with flt := { fenced := [12] } } 0
def cmdBudget : Cmd := { op := 0x20, role := some 1 }

/-- Meets the hypotheses of FaultReadbackAndBudgetForms. -/
theorem wit_fault_forms :
    (let r := rq 1 0 []; Accepts CfgCmd.fault.cmd r cfu ∧ bit r.arg.toNat 31 = false ∧ bit r.arg.toNat 0 = true ∧ bit r.arg.toNat 1 = false ∧ (match r.cfgRecs 0xF0 false with | .ok [] => true | _ => false) = true) ∧
    (let r := rq (2 + 12 * 256) 0 []; Accepts CfgCmd.fault.cmd r fen ∧ bits r.arg.toNat 8 6 = 12 ∧ bit r.arg.toNat 0 = false ∧ bit r.arg.toNat 1 = true ∧
      (begun CfgCmd.fault.cmd r fen).flt.fenced.contains (unitOf (bits r.arg.toNat 8 6)) = true ∧ ((begun CfgCmd.fault.cmd r fen).blockReset 12).isSome = true) ∧
    (let q : Req := { rPort with arg := rPort.arg ||| 0x80000000 }; Accepts { CfgCmd.port.cmd with read := true } q cfu ∧ (match q.cfgRecs 0x30 true with | .ok _ => true | .error _ => false) = true) ∧
    (let r := rq 0x30000000 0 []; Accepts cmdBudget r cfu ∧ 2 < bits r.arg.toNat 28 4) ∧
    (let r := inTx (rq 0x20000064 0 []); Accepts cmdBudget r cft ∧ bits r.arg.toNat 28 4 ≤ 2 ∧ (match r.cfgRecs 0x20 false with | .ok [] => true | _ => false) = true ∧ r.txn ≠ 0 ∧
      (match (begun cmdBudget r cft).cfgApply false [] with | .ok _ => true | .error _ => false) = true) := by
  (repeat' apply And.intro) <;> first | decide +kernel | rfl

/-! ## Witnesses: status, table, security and expert commands -/

def cmdB (op : Nat) : Cmd := { op := op, role := some 1 }
def cmdR (op : Nat) : Cmd := { op := op, role := some 0, read := true }

/-- Requests accepted in state u. -/
def accN : State := (cf { all with recs := [(0, [{ rec0 with isOpen := false }])], journal := { newest := [{ typ := 1, code := 0, seq := 0, frc := 0, ptp := 0, unt := false, data := [] }] } }).advance 0

/-- Meets the hypotheses of ChannelAndStatusCommandsAnswer. -/
theorem wit_status_commands :
    Accepts { op := 0, role := none } (rq 0 0 []) cfu ∧ Accepts { op := 1, role := none } (rq 0 0 []) cfu ∧ Accepts (cmdB 0x10) (rq 0 0 []) cfu ∧ Accepts (cmdB 0x10) (rq 0 0 []) cft ∧
    (begun (cmdB 0x10) (rq 0 0 []) cfu).txn = none ∧ (begun (cmdB 0x10) (rq 0 0 []) cfu).batch.staged = none ∧ (begun (cmdB 0x10) (rq 0 0 []) cft).txn.isSome = true ∧
    (begun (cmdB 0x10) (rq 0 0 []) cfu).fld F.FAB_STATE.STATE 0 ≠ 3 ∧ (begun (cmdB 0x10) (rq 0 0 []) cfu).isLeader = true ∧
    (let s := fs cfu [(F.FAB_STATE.LEADER, 0, 3)]; Accepts (cmdB 0x10) (rq 0 0 []) s ∧ (begun (cmdB 0x10) (rq 0 0 []) s).isLeader = false) ∧
    (let r := inTx (rq 0 0 []); Accepts (cmdB 0x11) r cft ∧ Accepts (cmdB 0x12) r cft ∧ r.txn ≠ 0 ∧ ((begun (cmdB 0x11) r cft).txn.map (·.batch)) = some false) ∧
    Accepts (cmdR 0x21) (rq 0 0 []) cfu ∧ Accepts (cmdR 0xB1) (rq 0 0 []) cfu ∧ Accepts (cmdR 0xE1) (rq 0 0 []) cfu ∧ Accepts (cmdR 0x31) (rq 39 0 []) cfu ∧
    (let r := rq (1048575 + 2147483648) 4 [1]; Accepts (cmdR 0x32) r cfu ∧ bits r.arg.toNat 0 20 + 1 ≤ 1048576 ∧ r.w 0 = 1 ∧ 4 ≤ r.inLen) ∧
    (let r := rq 0 4 [1]; Accepts (cmdB 0xC3) r cfu ∧ bit (r.w 0) 0 = true) ∧ Accepts (cmdB 0xC5) (rq 0 0 []) cfu ∧
    (Accepts (cmdB 0xC6) (rq 0 0 []) accN ∧ (match (begun (cmdB 0xC6) (rq 0 0 []) accN).records 0 with | x :: _ => !x.isOpen | [] => false) = true) ∧
    Accepts { cmdR 0xC7 with fn := some 11 } (rq 0 0 []) accN ∧ Accepts { cmdB 0xD1 with fn := some 10 } (rq 2047 0 []) cfu ∧ Accepts (cmdR 0xD2) (rq 0 0 []) cfu ∧
    (let r := rq 0 0 []; Accepts (cmdR 0xF1) r accN ∧ ((begun (cmdR 0xF1) r accN).journal.newest.filter fun e => decide (e.seq ≥ r.w 0 + 4294967296 * r.w 1)).reverse ≠ []) := by
  (repeat' apply And.intro) <;> first | decide +kernel | rfl

/-- Table 1 has a descriptor of 16-bit keys; a transaction is open; entry 7 is there. -/
def tb : State := (cf { openTx (fs all [(F.EXM_LTBL_CTL.KIND, 1, 2)]) with
  regs := (State.setReg (fs all [(F.EXM_LTBL_CTL.KIND, 1, 2), (F.MBX_RING.EN, 0, 1)]) .EXM_LTBL 2 0 (4 * 262144 + 16 * 8388608)).regs }).advance 0
def exw (op m : Nat) : Req := inTx (rq 0 32 [w32 (1 + 256 * op + m), 5, 0, 7, 0, 0, 0, 0])
def cmdX (op : Nat) : Cmd := { op := op, role := some 2, expert := true }
/-- The state after an entry of key 7 is written: it holds in the next generation. -/
def tb7 : State := let b := begun (cmdB 0x51) (exw 0 0) tb; match b.exmWrite 1 (b.descAt 1 b.curNext) 0 false false 7 5 with | .ok _ x => { x with mbx := [(0, { pi := 1 })], regs := tb.regs } | _ => b

/-- Meets the hypotheses of TableCommandsAnswer. -/
theorem wit_exact_match :
    (let r := exw 0 0; let b := begun (cmdB 0x51) r tb; Accepts (cmdB 0x51) r tb ∧ r.txn ≠ 0 ∧ r.w 0 % 256 = 1 ∧ bits (r.w 0) 8 2 = 0 ∧ 32 ≤ r.inLen ∧ bit (r.w 0) 10 = false ∧ bits (r.w 0) 13 19 = 0 ∧
      r.w 2 < 256 ∧ tableKind (b.next .EXM_LTBL_CTL 1 0) ≠ 0 ∧ b.keyW 1 (b.descAt 1 b.curNext) ≠ 0 ∧ r.exmKey 3 < 2 ^ b.keyW 1 (b.descAt 1 b.curNext) ∧
      (match b.exmWrite 1 (b.descAt 1 b.curNext) 0 false (bit (r.w 0) 11) (r.exmKey 3) (r.w 1 + 4294967296 * (r.w 2 % 256)) with | .ok _ _ => true | _ => false) = true) ∧
    (let r := exw 0 1024; let b := begun (cmdX 0x8010) r tb; Accepts (cmdX 0x8010) r tb ∧ bit (r.w 0) 10 = true ∧ bits (r.w 0) 12 1 = 0 ∧ b.keyW 1 0 ≠ 0 ∧ r.exmKey 3 < 2 ^ b.keyW 1 0 ∧
      (match b.exmWrite 1 0 0 true (bit (r.w 0) 11) (r.exmKey 3) (r.w 1 + 4294967296 * (r.w 2 % 256)) with | .ok _ _ => true | _ => false) = true) ∧
    (let r := rq 0 24 [257, 7]; let b := begun (cmdR 0x52) r tb7; Accepts (cmdR 0x52) r tb7 ∧ r.w 0 % 256 = 1 ∧ bit (r.w 0) 8 = true ∧ 24 ≤ r.inLen ∧ r.w 0 < 512 ∧ b.keyW 1 (b.descAt 1 b.curNext) ≠ 0 ∧
      (b.exmHits 1 (b.descAt 1 b.curNext) (r.exmKey 1) b.curNext).length = 1) ∧
    (let r := rq 0 24 [1, 7]; let b := begun (cmdR 0x52) r tb7; Accepts (cmdR 0x52) r tb7 ∧ (b.keyW 1 (b.descAt 1 b.cur) = 0 ∨ b.exmHits 1 (b.descAt 1 b.cur) (r.exmKey 1) b.cur = [])) := by
  (repeat' apply And.intro) <;> first | decide +kernel | rfl

/-- Meets the hypotheses of TableCommandsAnswer. -/
theorem wit_tables :
    (let r := rq 0 12 [0, 2147483648, 1]; Accepts (cmdR 0x53) r cfu ∧ 12 ≤ r.inLen ∧ 1 ≤ r.w 2 ∧ r.w 2 ≤ 128 ∧ bits (r.w 0) 29 3 = 0 ∧ bits (r.w 1) 16 15 = 0 ∧ bit (r.w 1) 31 = true) ∧
    (let r := rq 0 12 [0, 1, 128]; let b := begun (cmdR 0x53) r cfu; Accepts (cmdR 0x53) r cfu ∧ bit (r.w 1) 31 = false ∧ bits (r.w 1) 0 16 ≠ b.fld F.EXM_LTBL_STAT.SWITCH_COUNT (bits (r.w 0) 21 8)) ∧
    (let r := rq 0 8 [256, 32767]; Accepts (cmdB 0x54) r cfu ∧ 8 ≤ r.inLen ∧ r.w 0 < 1024 ∧ r.w 1 < 32768 ∧ bit (r.w 0) 8 = true) ∧
    (let r := inTx (rq 0 8 [255, 1]); Accepts (cmdB 0x54) r cft ∧ r.w 0 < 1024 ∧ bit (r.w 0) 8 = false ∧ r.txn ≠ 0) ∧
    (let r := inTx (rq 0 24 [24 * 65536, 0x0A000000, 0, 0, 0, 9]); let b := begun (cmdB 0x55) r cft; Accepts (cmdB 0x55) r cft ∧ r.txn ≠ 0 ∧ bit (r.w 0) 24 = false ∧ bits (r.w 0) 16 8 = 24 ∧ 24 ≤ r.inLen ∧
      r.w 0 < 134217728 ∧ bits (r.w 0) 25 2 ≠ 3 ∧ 24 ≤ famBits false ∧ r.lpmAddr % 2 ^ (famBits false - 24) = 0 ∧
      (match b.lpmWrite 0 { pfx := r.lpmAddr, len := 24, v6 := false, vrf := 0, from_ := 0, result := r.w 5 } with | .ok _ => true | .error _ => false) = true) ∧
    (let r := rq 0 20 [0, 5]; Accepts (cmdR 0x56) r cfu ∧ 20 ≤ r.inLen ∧ r.w 0 < 67108864 ∧ bits (r.w 0) 16 8 = 0 ∧ ((begun (cmdR 0x56) r cfu).lpmLookup 0 false r.lpmAddr (begun (cmdR 0x56) r cfu).cur).isNone = true) ∧
    (let s : State := { cfu with lpm := [(0, { pfx := 0, len := 0, v6 := false, vrf := 0, from_ := 0, settled := true, result := 3 })] }; let r := rq 0 20 [0, 5];
      ((begun (cmdR 0x56) r s).lpmLookup 0 false r.lpmAddr (begun (cmdR 0x56) r s).cur).isSome = true) ∧
    (let r := rq 0 4 [0]; Accepts (cmdR 0x61) r cfu ∧ 4 ≤ r.inLen ∧ bits (r.w 0) 2 6 = 0 ∧ bits (r.w 0) 22 10 = 0 ∧ ((begun (cmdR 0x61) r cfu).rowAt 0 0 (begun (cmdR 0x61) r cfu).cur).isNone = true) ∧
    (let s : State := { cfu with tcam := [(0, { row with settled := true })] }; let r := rq 0 4 [0]; ((begun (cmdR 0x61) r s).rowAt 0 0 (begun (cmdR 0x61) r s).cur).isSome = true) ∧
    (let r := rq 15 4096 (List.replicate 1024 0); Accepts (cmdB 0x40) r cfu ∧ r.arg.toNat / 65536 = 0 ∧ r.arg.toNat % 16 ≠ 0 ∧ bits r.arg.toNat 5 11 = 0 ∧ bit r.arg.toNat 4 = false ∧ r.inLen = 4096) ∧
    (let r := rq 31 4 [7]; Accepts (cmdB 0x40) r cfu ∧ r.arg.toNat / 65536 = 0 ∧ r.arg.toNat % 16 ≠ 0 ∧ bit r.arg.toNat 4 = true ∧ r.inLen ≠ 0 ∧ objOk r.payload = false) := by
  (repeat' apply And.intro) <;> first | decide +kernel | rfl

/-- A TCAM_WRITE of row 0 of pipeline 0. -/
def rTcam : Req := inTx (rq 0 188 (16 :: List.replicate 46 0))

/-- Meets the hypotheses of TableCommandsAnswer. -/
theorem wit_tcam_write : ∀ x : Bool, let c : Cmd := { op := if x then 0x8020 else 0x60, role := some (if x then 2 else 1), expert := x }; let b := begun c rTcam cft;
    Accepts c rTcam cft ∧ rTcam.rowOk = true ∧ rTcam.txn ≠ 0 ∧
    (match b.tcamWrite (bits (rTcam.w 0) 0 2) (maskPls (bits (rTcam.w 0) 4 4)) (bits (rTcam.w 0) 8 13) x (rowOf rTcam.payload 1 b.curNext) with | .ok _ => true | .error _ => false) = true := by
  intro x; cases x <;> (repeat' apply And.intro) <;> first | decide +kernel | rfl

/-! ## Witnesses: security and expert commands -/

def cmdS (op : Nat) : Cmd := { op := op, role := none, fn := some 1 }
def cmdA (op : Nat) : Cmd := { op := op, role := some 2, fn := some 1 }
/-- Words enough for every field of a payload, w first. -/
def pay (w : Nat) (n : Nat) : List Word := w32 w :: List.replicate (n - 1) 0
def rp (w n : Nat) : Req := rq 0 (4 * n) (pay w n)
/-- The state in which a request's checks have passed, from security domain x (its policy the one above) and the supply p. -/
def secS (x : Sec) (p : Pwr) (n : Nat) : State := { (cf all).advance 0 with sec := { x with policy := 66436 }, pwr := p, now := n }
def vin : Pwr := { vin := 33000 }
def adm : Operator := { key := [], role := 2 }
def opn : Opening := { sid := 1, op := 0, t1 := [], sd := [], xd := [], xh := [], at_ := 0 }

/-- Meets the hypotheses of SecurityCommandsAct. -/
theorem wit_sessions :
    (let s := secS { lifecycle := 3 } {} 0; Accepts (cmdS 0x100) (rp 0 23) s ∧ (begun (cmdS 0x100) (rp 0 23) s).sec.lifecycle = 3) ∧
    (let s := secS { operators := [(15, adm)], lockout := [(15, 9)] } {} 8; let b := begun (cmdS 0x100) (rp 15 23) s; Accepts (cmdS 0x100) (rp 15 23) s ∧ b.power ≠ 3 ∧ b.sec.lifecycle ≠ 3 ∧
      (rp 15 23).w 0 ≤ 15 ∧ 92 ≤ (rp 15 23).inLen ∧ (sfind b.sec.operators ((rp 15 23).w 0)).isSome = true ∧ b.now < sget b.sec.lockout 0 ((rp 15 23).w 0)) ∧
    (let s := secS { operators := [(15, adm)], lockout := [(15, 9)] } {} 9; let b := begun (cmdS 0x100) (rp 15 23) s; sget b.sec.lockout 0 ((rp 15 23).w 0) ≤ b.now ∧ b.sec.rngFail = false) ∧
    (let s := secS { operators := [(0, adm)], opening := [(0, opn)] } {} 9999999999; let r := rp 1 30; let b := begun (cmdS 0x101) r s; Accepts (cmdS 0x101) r s ∧ sfind b.sec.opening 0 = some opn ∧
      opn.sid = r.w 0 ∧ b.now < opn.at_ + 10000000000 ∧ sfind b.sec.operators opn.op = some adm) ∧
    (let s := secS { sessions := [(0, { sid := 1, op := 0, key := [] })] } {} 0; let c : Cmd := { cmdR 0x102 with fn := some 1 }; Accepts c (rq 0 0 []) s ∧ ((begun c (rq 0 0 []) s).session 0).isSome = true) := by
  (repeat' apply And.intro) <;> first | decide +kernel | (right; decide +kernel) | rfl

/-- Meets the hypotheses of SecurityCommandsAct. -/
theorem wit_security :
    (let r : Req := { rp 0 9 with payload := List.replicate 8 0 ++ [65535] }; Accepts (cmdS 0x103) r cfu ∧ (begun (cmdS 0x103) r cfu).sec.lifecycle ≠ 3 ∧ 36 ≤ r.inLen ∧ r.w 8 < 65536) ∧
    Accepts (cmdS 0x104) (rq 0 0 []) cfu ∧ (let r := rp 15 18; Accepts (cmdA 0x105) r cfu ∧ 8 ≤ r.w 0 ∧ r.w 0 ≤ 15 ∧ 72 ≤ r.inLen) ∧
    (let r := rp 2 16; Accepts (cmdA 0x106) r cfu ∧ ((List.range 16).find? fun i => (sfind (begun (cmdA 0x106) r cfu).sec.operators i).isNone) = some 0 ∧ r.w 0 ≤ 2 ∧ 64 ≤ r.inLen) ∧
    (let s := secS { operators := [(0, adm), (1, { adm with role := 1 })] } {} 0; Accepts (cmdA 0x107) (rp 0 1) s ∧ Accepts (cmdA 0x107) (rp 1 1) s ∧ sfind (begun (cmdA 0x107) (rp 0 1) s).sec.operators 0 = some adm ∧
      ((begun (cmdA 0x107) (rp 0 1) s).sec.operators.filter fun e => e.2.role == 2).length ≤ 1 ∧ (sfind (begun (cmdA 0x107) (rp 1 1) s).sec.operators 1).map (·.role) = some 1) ∧
    (let s := secS {} vin 0; let r := rp 0 30; Accepts (cmdA 0x108) r s ∧ (begun (cmdA 0x108) r s).fuseOk = true ∧ (begun (cmdA 0x108) r s).sec.lifecycle = 0 ∧ 120 ≤ r.inLen ∧
      Accepts (cmdA 0x10A) (rp 3 1) s ∧ (begun (cmdA 0x10A) (rp 3 1) s).fuseOk = true ∧ (rp 3 1).w 0 = 3 ∧ (begun (cmdA 0x10A) (rp 3 1) s).sec.lifecycle ≠ 3) ∧
    (Accepts (cmdS 0x10B) (rp 2 1) cfu ∧ ((rp 2 1).w 0 = 1 ∨ (rp 2 1).w 0 = 2) ∧ (begun (cmdS 0x10B) (rp 2 1) cfu).sec.rngFail = false) ∧
    Accepts (cmdS 0x10C) (rp 0 58) cfu ∧ Accepts (cmdA 0x10D) (rq 0 0 []) cfu ∧ ((begun (cmdA 0x10D) (rq 0 0 []) cfu).updateB (rq 0 0 [])).1 ≠ 0 ∧
    (let s := fs (secS { slotB := some img0 } vin 0) [(F.SEC_BOOT.BOOTED, 0, 1)]; let b := begun (cmdA 0x10E) (rq 0 0 []) s; Accepts (cmdA 0x10E) (rq 0 0 []) s ∧ b.fld F.SEC_BOOT.BOOTED 0 = 1 ∧ b.fuseOk = true ∧
      b.sec.slotB = some img0) ∧
    (let r := rp 63 17; Accepts (cmdA 0x10F) r cfu ∧ (begun (cmdA 0x10F) r cfu).sec.debug ≠ 1 ∧ r.w 0 ≤ 63 ∧ 68 ≤ r.inLen) ∧
    (let r : Req := rq 0 56 ([255, 5] ++ List.replicate 12 0); Accepts (cmdA 0x110) r cfu ∧ r.w 0 ≤ 255 ∧ 1 ≤ r.w 1 ∧ r.w 1 ≤ 5 ∧ 56 ≤ r.inLen) ∧
    (let r := rp 262143 1; Accepts (cmdA 0x111) r cfu ∧ 4 ≤ r.inLen ∧ r.w 0 < 262144) ∧ Accepts { cmdR 0x111 with fn := some 1 } (rq 0 0 []) cfu := by
  (repeat' apply And.intro) <;> first | decide +kernel | (right; decide +kernel) | rfl

/-- Outside BLANK an ADMIN session carries the command: its tag is the one the session's key gives. -/
def ses (lc : Nat) : State := secS { lifecycle := lc, operators := [(0, adm)], sessions := [(0, { sid := 1, op := 0, key := [] })] } vin 0
def sg (op : Nat) (r : Req) : Req := let q : Req := { r with prot := true, sid := 1, counter := 1 }; { q with tag := cmdTag [] q op }

theorem session_ok (v : State) (c : Cmd) (r : Req) (x : Session) (h1 : v.needsSession c = true) (h2 : v.session r.ch = some x) (h3 : v.sec.lifecycle ≠ 3) (h4 : r.prot = true)
    (h5 : x.sid = r.sid) (h6 : ¬ v.roleOf x < c.role.getD 0) (h7 : r.tag = cmdTag x.key r c.op) (h8 : ¬ r.counter ≤ x.counter) : v.sessionCheck c r = none := by
  simp only [State.sessionCheck, h1, h2, h4, h5, ← h7]
  simp [h3, h6, h8]

theorem tag_ok (op : Nat) (r : Req) : (sg op r).tag = cmdTag [] (sg op r) op := rfl

/-- Meets the hypotheses of SecurityCommandsAct. -/
theorem wit_owner_accepts :
    Accepts (cmdA 0x109) (sg 0x109 (rp 0 59)) (ses 2) ∧ Accepts (cmdA 0x108) (sg 0x108 (rp 0 30)) (ses 2) ∧ Accepts (cmdA 0x10A) (sg 0x10A (rp 2 1)) (ses 1) := by
  refine ⟨⟨?_, ?_, ?_, session_ok _ _ _ { sid := 1, op := 0, key := [] } ?_ ?_ ?_ ?_ ?_ ?_ (tag_ok _ _) ?_, ?_, ?_, ?_, ?_, ?_⟩,
    ⟨?_, ?_, ?_, session_ok _ _ _ { sid := 1, op := 0, key := [] } ?_ ?_ ?_ ?_ ?_ ?_ (tag_ok _ _) ?_, ?_, ?_, ?_, ?_, ?_⟩,
    ⟨?_, ?_, ?_, session_ok _ _ _ { sid := 1, op := 0, key := [] } ?_ ?_ ?_ ?_ ?_ ?_ (tag_ok _ _) ?_, ?_, ?_, ?_, ?_, ?_⟩⟩ <;> decide +kernel

/-- Meets the hypotheses of SecurityCommandsAct. -/
theorem wit_owner_state :
    (let b := begun (cmdA 0x109) (sg 0x109 (rp 0 59)) (ses 2); b.sec.lifecycle = 2 ∧ b.fuseOk = true) ∧ 1 < (begun (cmdA 0x108) (sg 0x108 (rp 0 30)) (ses 2)).sec.lifecycle ∧
    (let b := begun (cmdA 0x10A) (sg 0x10A (rp 2 1)) (ses 1); b.fuseOk = true ∧ b.sec.lifecycle = 1 ∧ (sg 0x10A (rp 2 1)).w 0 = 2) := by
  (repeat' apply And.intro) <;> decide +kernel

def cmdXR (op : Nat) : Cmd := { op := op, role := some 2, read := true, expert := true }

/-- Meets the hypotheses of ExpertAccessesAct. -/
theorem wit_expert :
    (let r := rp 2 1; let a : RegAddr := { reg := .PORT_CFG, idx := 0, word := 0 }; let l := RegAddr.run (r.w 0) a; Accepts (cmdXR 0x8000) r cfu ∧ 1 ≤ r.w 0 ∧ r.w 0 ≤ 1024 ∧ 4 ≤ r.inLen ∧ l.all RegAddr.isOpen = true ∧
      (l.find? (begun (cmdXR 0x8000) r cfu).addrStopped).isNone = true) ∧
    (let a : RegAddr := { reg := .SEC_STATE, idx := 0, word := 0 }; (RegAddr.run 1 a).all RegAddr.isOpen = false) ∧
    (let r := rq 0 4 [1]; let a : RegAddr := { reg := .PORT_CFG, idx := 0, word := 0 }; let l := RegAddr.run r.payload.length a; let b := begun (cmdX 0x8001) r cfu; a.isReset r.payload.length = false ∧ Accepts (cmdX 0x8001) r cfu ∧ b.txn = none ∧
      r.payload.length = 1 ∧ l.all RegAddr.isOpen = true ∧ (l.any fun a => a.held.isNone && (a.reg.masks a.word).cmt != 0) = true ∧ (l.find? b.addrStopped).isNone = true) ∧
    (let r := inTx (rq 0 4 [1]); let a : RegAddr := { reg := .PORT_CFG, idx := 0, word := 0 }; let b := begun (cmdX 0x8001) r cft; Accepts (cmdX 0x8001) r cft ∧ r.txn ≠ 0 ∧
      ((RegAddr.run r.payload.length a).find? b.addrStopped).isNone = true) ∧
    (let r := rq 0 12 [1073741824, 0, 64]; let b := begun (cmdXR 0x8002) r cfu; Accepts (cmdXR 0x8002) r cfu ∧ 12 ≤ r.inLen ∧ memArgs 1073741824 64 = true ∧ b.memDenied 1073741824 64 = none ∧ b.memStopped 1073741824 64 none = none ∧ r.w 0 + 4294967296 * r.w 1 = 1073741824) ∧
    (let r := rq 0 12 [0, 8, 4]; let b := begun (cmdXR 0x8002) r cfu; Accepts (cmdXR 0x8002) r cfu ∧ r.w 0 + 4294967296 * r.w 1 = dramSize ∧ memArgs dramSize 4 = true ∧ b.memDenied dramSize 4 = none ∧ b.memStopped dramSize 4 none = none) ∧
    (let r := rq 0 16 [1073741824, 0, 4, 7]; let b := begun (cmdX 0x8003) r cfu; Accepts (cmdX 0x8003) r cfu ∧ 12 + 4 ≤ r.inLen ∧ memArgs 1073741824 4 = true ∧ b.memDenied 1073741824 4 = none ∧ b.memStopped 1073741824 4 none = none) ∧
    (let r := rq 0 16 [0, 8, 4, 7]; Accepts (cmdX 0x8003) r cfu ∧ (begun (cmdX 0x8003) r cfu).memDenied dramSize 4 = none ∧ Memory.wf (begun (cmdX 0x8003) r cfu).dram = true) ∧
    (let r := rq 3 0 []; Accepts (cmdX 0x8030) r cfu ∧ r.arg.toNat < 4) ∧ ((begun (cmdX 0x8030) (rq 3 0 []) (fs cfu [(F.BUF_POOL_CFG.COUNT, 3, 0)])).allocFor 45 5 3).isNone = true ∧
    ((begun (cmdX 0x8030) (rq 0 0 []) (fs cfu [(F.BUF_POOL_CFG.COUNT, 0, 10)])).allocFor 45 5 0).isSome = true ∧
    (let s := fs cfu [(F.BUF_POOL_CFG.COUNT, 0, 10), (F.BUF_CTL.OWNER_CHECK, 0, 1)]; let r := rq 9 0 []; let b := begun (cmdX 0x8031) r s; Accepts (cmdX 0x8031) r s ∧ 9 % 262144 < b.poolCount 0 ∧
      b.flag F.BUF_CTL.OWNER_CHECK 0 = true) ∧
    (let s : State := { fs cfu [(F.BUF_POOL_CFG.COUNT, 0, 10), (F.BUF_CTL.OWNER_CHECK, 0, 0)] with bufs := [(9, (4, true))] }; let r := rq 9 0 []; let b := begun (cmdX 0x8031) r s; Accepts (cmdX 0x8031) r s ∧ b.flag F.BUF_CTL.OWNER_CHECK 0 = false ∧
      (sfind b.bufs 9).map (·.1) = some 4) ∧
    (let s : State := { cfu with quar := [9] }; let r := rq 9 0 []; Accepts (cmdB 0x83) r s ∧ (begun (cmdB 0x83) r s).quar.contains 9 = true) := by
  (repeat' apply And.intro) <;> first | decide +kernel | rfl

/-! ## Tests: the spec's worked examples and tables -/

/-- CRC-32C of the nine ASCII digits 1 to 9 (the check value of the polynomial R162 names). -/
theorem test_crc32c : crc32c 0 (toBE 0x313233343536373839 9) = 0xE3069283 := by decide +kernel

/-- budget(L) of R27 and chapter 03's examples: 64 B gives 29, 79 B 34, 80 B 35, 150 B 59. -/
theorem test_budget : [Machine.budget 64, Machine.budget 79, Machine.budget 80, Machine.budget 150] = [29, 34, 35, 59] := by decide +kernel

/-- Member 5: P12 is global port 332, the host packet port 360 (chapter 02). -/
theorem test_global_port : let s := fs State.reset [(F.FAB_STATE.MEMBER_ID, 0, 5)]; (s.gport 12, s.gport 40) = (332, 360) := by decide +kernel

/-- An IPv4 frame whose total length claims 1,200: the probe gives 1,224, a slice (chapter 08). -/
theorem test_length_probe : let b : Bytes := List.replicate 12 0 ++ [8, 0, 0x45, 0, 4, 0xB0] ++ List.replicate 494 0; lengthProbe b 9022 = some 1224 ∧ choosePool true 0 b 9022 = 2 := by decide +kernel

/-- The policer of Table 6-9: trTCM, CIR 100,000, PIR 200,000, CBS 3,000, PBS 6,000, frames of 1,518 B every 1,000 ns. -/
def trtcm : List Word := [2, 100000, 200000, 3000, 6000]
def trRun : Nat → Nat → Pol → List (Nat × Nat × Nat)
  | 0, _, _ => []
  | n + 1, t, p => let r := polMeter trtcm (polUpdate t trtcm p) 0 1518; (r.1, r.2.tc, r.2.te) :: trRun n (t + 1000) r.2

theorem test_table_6_9 : trRun 5 0 {} = [(0, 1482, 4482), (1, 1494, 2989), (1, 1507, 1496), (0, 1, 3), (2, 14, 28)] := by decide +kernel

/-- The window of Table 10-2: result, out of window, H and history after. -/
def winRun : List Nat → Win → List (Bool × Bool × Nat × Nat)
  | [], _ => []
  | q :: l, w => let r := ddCheck w q; (r.1, r.2.1, r.2.2.h, r.2.2.hist) :: winRun l r.2.2

theorem test_table_10_2 : winRun [0x0001, 0xFFFF, 0xFFFE, 0xFF70, 0x0001] { h := 0xFFFE, hist := 3, valid := true } =
    [(true, false, 1, 25), (true, false, 1, 29), (false, false, 1, 29), (true, true, 0xFF70, 1), (true, false, 1, 1)] := by decide +kernel

/-- The shaper of Table 9-5: tokens after each copy, and the wake times. -/
def shRun : List (Nat × Nat) → State → List (Int × Option Nat)
  | [], _ => []
  | (t, rate) :: l, s =>
    let u : State := State.spend (State.refill { (s.setReg .QSHAPE 0 0 rate) with clock := s.clock, now := t } 3 0) 250 3 0
    ((sget u.shapers {} (nkey 3 0)).tok, (sget u.shapers {} (nkey 3 0)).wake) :: shRun l u

def sh0 : State := { (State.reset.setReg .QSHAPE 0 0 100000).setReg .QSHAPE 0 1 (1000 + 16777216) with
  shapers := [(nkey 3 0, { tok := 1000, rate := 100000, burst := 1000, en := true })] }

theorem test_table_9_5 : shRun [(0, 100000), (200, 100000), (400, 100000), (600, 100000), (800, 100000), (20080, 200000), (30080, 200000)] sh0 =
    [(750, none), (502, none), (255, none), (7, none), (-240, some 20080), (-249, some 30080), (-249, some 40080)] := by decide +kernel

/-- The retransmission intervals of Table 13-8, in µs. -/
theorem test_table_13_8 : let s := fs State.reset [(F.EVT_GPUB.T1, 0, 1000), (F.EVT_GPUB.T0, 0, 1000000)];
    [1, 2, 3, 10, 11, 12].map (s.gInterval 0) = [1000, 2000, 4000, 512000, 1000000, 1000000] := by decide +kernel

/-- Chapter 09's grid list at 49.900 Hz with e = -4,294,967: t_c is 20,060,120 ns, entry 0 ends at 15,045,090 ns. -/
def gcy : State :=
  let s := (fs (up [3]) [(F.GCL_CTL.ENABLE, 0, 1)]).setReg .GCL_ENTRY 0 1 3221225472
  let s := s.setReg .GCL_ENTRY 1 1 1073741824
  { s.setReg .TIME_GRID_NOW 0 3 0 with
    gates := [(0, { cyc := { cfg := { enable := true, grid := true, lenM1 := 1 }, began := true, start := 0, tc := 20000000 } })]
    clock := { s.clock with grid := (4294967296 - 4294967) * 4294967296, gridFreq := 52323942 } }

theorem test_grid_cycle : let c := (sget (gcy.gridCycle 0 20000000).gates {} 0).cyc; (c.start, c.tc, c.ends) = (20000000, 20060120, [15045090, 20060120]) := by decide +kernel

/-- The phase bits of Table 16-12: with CPL_LOG2 4, index 0x1E has PHASE 0 and 0x20 PHASE 1. -/
theorem test_phase : let r : Req := { ch := 3, arg := 0 }; let at_ (i : Nat) := (((fs State.reset [(F.MBX_RING.CPL_PI, 3, i), (F.MBX_RING.CPL_LOG2, 3, 4)]).complete r none 0 0 []).cpls.map fun e => (e.1, e.2.index, e.2.phase));
    at_ 0x1E = [(3, 0x1E, false)] ∧ at_ 0x20 = [(3, 0x20, true)] := by decide +kernel

/-- An identifier requested in ARG[31:16] is given (R692, chapter 16's example). -/
theorem test_txn_id : (match exec (.txnBegin 0 (rq 0x00120000 0 [])) (cf all) with | .next t => (t.cpls.map fun e => (e.2.status, e.2.result), t.txn.map (·.id)) | _ => ([], none)) = ([(0, 0x12)], some 0x12) := by decide +kernel

/-- An expert register write of a field that commits does not show before the commit (chapter 00's example of QSHAPE). -/
theorem test_cmt_staged : (match exec (.registerWrite 0 (.firmware .QSHAPE 0) 0 2000000#32) (State.reset.setReg .QSHAPE 0 0 1000000) with
    | .next t => (t.reg .QSHAPE 0 0, t.next .QSHAPE 0 0) | _ => (0, 0)) = (1000000, 2000000) := by decide +kernel

/-- The refusals of R682: a REQ_PI 17 ahead of REQ_CI with 16 slots stops the channel with cause 1. -/
theorem test_doorbell_error : (match exec (.mbxReqDb 0 2 17) (mb {}) with | .next t => (t.reg .MBX_RING 2 6, t.mbxEn 2) | _ => (0, true)) = (3, false) := by decide +kernel

/-- What engine 0 of pipeline 0 holds after a recipe row. -/
def ran (i : Instr) (oper x : Nat) (e : Engine) : Option Engine := match exec i (rs oper x e (fr 64)) with | .next t => sfind t.engines 0 | _ => none

/-- MOVI writes its immediate to Wd and goes on; W0 discards the write and stays zero (R84). -/
theorem test_movi : ((ran (.movi 0 0 0) 4 (3 * 2 ^ 112 + 7) en).map fun e => (e.pc, e.w.getD 3 0)) = some (1, 7) ∧ ((ran (.movi 0 0 0) 4 7 en).map fun e => (e.pc, e.w.getD 0 0)) = some (1, 0) := by decide +kernel

/-- A sum past 64 bits wraps; a CMP of a smaller number sets C and N (Table 3-6). -/
theorem test_alu : let e : Engine := { en with w := 0 :: (2 ^ 64 - 1) :: 3 :: List.replicate 13 0 };
    ((ran (.aluAdd 0 0 0) 5 (4 * 2 ^ 112 + 2 ^ 108 + 2 * 2 ^ 104) e).map fun e => e.w.getD 4 0) = some 2 ∧
    ((ran (.cmp 0 0 0) 13 (2 * 2 ^ 108 + 2 ^ 104) e).map fun e => (e.z, e.n, e.c)) = some (false, false, true) := by decide +kernel

/-- Chapter 08's atomic trip: a green frame of four blocks for P01, P05 and P09, class 6, where P09 has no room. -/
def trip (atomic : Nat) : State :=
  let s := [1, 5, 9].foldl (fun (s : State) p => (s.setFld F.ADM_EGR.GREEN_LIM (p * 16 + 6) 100).setFld F.PORT_QUAD_CFG.MODE (p / 4) 1) (fs State.reset [(F.ADM_CLASS.ATOMIC, 6, atomic)])
  let s := ((s.setReg .ADM_OCC (1 * 16 + 6) 0 20).setReg .ADM_OCC (5 * 16 + 6) 0 40).setReg .ADM_OCC (9 * 16 + 6) 0 98
  let f : Frame := { fr 296 with blocks := 4, buf := some 262145 }
  let s : State := { s with frames := [(0, f)], bufs := [(262145, (0, false))] }
  s.admitFrame 0 f { cls := 6 } ([1, 5, 9].map fun p => Copy.base 0 f { cls := 6 } p 6 0)

theorem test_atomic_trip :
    (let s := trip 1; (s.queues.length, s.bufs.length, s.frames.length, s.ctr .ADM_DROP ((9 * 16 + 6) * 3), [1, 5, 9].map fun p => s.ctr .ADM_ATOMIC_DROP (p * 16 + 6))) = (0, 0, 0, 1, [1, 1, 0]) ∧
    (let s := trip 0; (s.queues.length, s.bufs.length, s.frames.length, s.occ 1 6, s.occ 5 6, s.occ 9 6, (s.frames.map fun e => e.2.refs))) = (2, 1, 1, 24, 44, 98, [2]) := by decide +kernel

/-- Chapter 11's relock: from FALLBACK at cycle 1,000,200, angle 0x4000_0000, an estimate of 0xF333_3333 borrows a cycle; the GOOSE point at 0x5000_0000 of cycle 1,000,200 lies ahead. -/
def relock : State :=
  let t := gr 2 3000000000
  { t with clock := { t.clock with
      grid := (1000200 * 4294967296 + 0x40000000) * 4294967296
      gridGood := some 0
      gridLast := some (2999999999, 2999999999, 52376371)
      points := [{ grid := true, at_ := 1000200 * 4294967296 + 0x50000000, kind := .goose 0 }] } }

theorem test_relock :
    (match exec (.gridEstimate 0 { ge with angle := 0xF3333333, freq := 52376371 }) relock with
      | .next t => (t.gridState, t.gridNow / 4294967296, t.gridNow % 4294967296, t.clock.points.map (·.late)) | _ => (9, 0, 0, [])) = (0, 1000199, 0xF3333333, [false]) ∧
    (match exec (.gridEstimate 0 { ge with angle := 0x70000000, freq := 52376371 }) relock with
      | .next t => (t.gridState, t.gridNow / 4294967296, t.gridNow % 4294967296, t.clock.points.map (·.late)) | _ => (9, 0, 0, [])) = (0, 1000200, 0x70000000, [true]) := by decide +kernel

/-! ## Witnesses: the whole machine -/

/-- The completion ring of channel 0 is full. -/
def full : State := fs (cf all) [(F.MBX_RING.CPL_PI, 0, 16)]
/-- The expert level is off. -/
def lowly : State := { cfu with sec := {} }
def owned1 : State := secS { lifecycle := 1, operators := [(0, adm)] } {} 0

/-- Meets the hypotheses of FullCompletionRingMakesTheChannelWait, RequestsAreCheckedInOrder, CompletionsTakeTheNextSlot, SettleLatchesRaisedLines and TimePassesWithACommand. -/
theorem wit_machine :
    mailboxRow (.mbxNop 0 (rq 0 0 [])) = some ({ op := 0, role := none }, 0, rq 0 0 []) ∧
    2 ^ (full.advance 0).cplLog 0 ≤ serial ((full.advance 0).chan 0).cplCi ((full.advance 0).cplPi 0) 16 ∧
    (cfu.canBegin 0 = true ∧ (rq 0 0 []).pcie ≠ .fetch ∧ (rq 0 0 []).pcie ≠ .completion) ∧
    (mailboxRow (.bufAlloc 0 (rq 0 0 [])) = some (cmdX 0x8030, 0, rq 0 0 []) ∧ lowly.canBegin 0 = true ∧ (fetched (rq 0 0 []) lowly).levelOk (cmdX 0x8030) (rq 0 0 []) = false) ∧
    (owned1.canBegin 0 = true ∧ (fetched (rq 0 0 []) owned1).levelOk (cmdB 0x10) (rq 0 0 []) = true ∧
      (fetched (rq 0 0 []) owned1).sessionCheck (cmdB 0x10) (rq 0 0 []) = some (Status.secNoSession, false)) ∧
    (let r : Req := { rq 0 4 [0] with inPtr := 4093 }; (fetched r cfu).sessionCheck (cmdB 0x10) r = none ∧ ptrBad r = true ∧ ptrBad { r with inPtr := 4092 } = false) ∧
    (let r := inTx (rq 0 0 []); (((fetched r cfu).acceptCmd (cmdB 0x11) r).txnCheck r).1 = some Status.txnUnknown) ∧
    (State.reset.pending = [] ∧ State.reset.flt.raised = [] ∧ bit ({ State.reset with regs := fw.regs } : State).faultWord 36 = true) ∧
    (coreCycles (State.reset.now + 0) = coreCycles State.reset.now) ∧
    (recipeOf (.movi 0 0 0) = some (4, 0, 0, 0) ∧ en.cond (rw' 0).cond = some true ∧ { en with z := true }.cond (rw' (2 * 2 ^ 116)).cond = some false) := by
  (repeat' apply And.intro) <;> first | decide +kernel | rfl

/-- A step from a state with no raised line that answers a next state. Meets the hypotheses of EveryStepLatchesItsLines and StepTakesTheFrontCommand. -/
theorem wit_step : Latched State.reset ∧ step State.reset = .next State.reset := ⟨rfl, rfl⟩

/-! ## Well-formed commands: an ill-formed one for each check -/

theorem test_wf_requests : (rq 0 0 []).wf = true ∧ ({ rq 0 0 [] with ch := 16 } : Req).wf = false ∧ (rq 0 4100 (List.replicate 1025 0)).wf = false ∧ ({ rq 0 0 [] with outLen := 4097 } : Req).wf = false ∧
    (rq 0 5 [1]).wf = false ∧ ({ rq 0 0 [] with tag := List.replicate 17 0 } : Req).wf = false ∧ ({ rq 0 0 [] with sid := 65536 } : Req).wf = false ∧
    ({ rq 0 0 [] with txn := 65536 } : Req).wf = false ∧ (Instr.mbxNop 0 { rq 0 0 [] with ch := 16 }).wf = false := by decide +kernel

theorem test_wf_addresses : ({ reg := .PORT_CFG, idx := 0, word := 0 } : RegAddr).wf = true ∧ ({ reg := .PORT_CFG, idx := 44, word := 0 } : RegAddr).wf = false ∧
    ({ reg := .MBX_RING, idx := 0, word := 64 } : RegAddr).wf = false ∧ (Instr.rcRead 0 { reg := .PORT_CFG, idx := 44, word := 0 }).wf = false ∧
    (Instr.registerWrite 0 (.firmware .MBX_RING 16) 0 0).wf = false ∧ (Instr.registerWrite 0 .bar0 2 0).wf = false ∧
    (Instr.registerWrite 0 .bar0 1048576 0).wf = false ∧ (Instr.regRead 0 { reg := .MBX_RING, idx := 16, word := 0 } (rq 0 0 [])).wf = false ∧
    (Instr.memRead 0 { rq 0 0 [] with unit := some { reg := .PORT_CFG, idx := 0, word := 0 } }).wf = false ∧ JtagOp.wf (.challenge 3) = false ∧ JtagOp.wf (.readReg { reg := .MBX_RING, idx := 16, word := 0 }) = false ∧ (Instr.jtagAccess 0 (.challenge 0)).wf = false := by decide +kernel

/-- A frame of 64 bytes at a port. -/
def arr : Arrival := { port := 0, bytes := List.replicate 60 0, len := 64 }

theorem test_wf_arrivals : arr.wf = true ∧ { arr with port := 40 }.wf = false ∧ { arr with bytes := [] }.wf = false ∧ { arr with len := 63 }.wf = false ∧ { arr with len := 513 }.wf = false ∧
    { arr with long := true }.wf = false ∧ (Instr.frameHeadReady 0 [{ arr with port := 40 }]).wf = false ∧ (Instr.p43Inject 0 0 []).wf = false ∧
    (Instr.hdmaTxFrame 0 0 { bytes := [], count := 60 }).wf = false ∧ (Instr.hdmaTxFrame 0 0 { bytes := [0], count := 60, pipeline := some 4 }).wf = false := by decide +kernel

theorem test_wf_events : (Instr.shaperWake 0 0 64).wf = false ∧ (Instr.shaperWake 0 3 1048575).wf = true ∧ (Instr.pfcReceived 0 0 0 []).wf = false ∧ (Instr.linkUp 0 0 8 {}).wf = false ∧
    (Instr.gridEstimate 0 { ge with angle := 4294967296 }).wf = false ∧ (Instr.nibenBlockRx 0 0 []).wf = false ∧ (Instr.helloMsg 0 0 (hel 512)).wf = false ∧
    (Instr.helloMsg 0 0 { hel 3 with link := 8 }).wf = false ∧ (Instr.creditMsg 0 32768 0 0).wf = false ∧ (Instr.requestMsg 0 512 0 0 true).wf = false ∧
    (Instr.flushMsg 0 32768).wf = false ∧ (Instr.linkStateMsg 0 512 [] []).wf = false := by decide +kernel

theorem test_wf_messages : (Instr.frameMsg 0 0 (fmsg 0 0 0 true)).wf = true ∧ (Instr.frameMsg 0 0 (fmsg 0 0 512 true)).wf = false ∧ (Instr.frameMsg 0 0 { fmsg 0 0 0 true with cls := 16 }).wf = false ∧
    (Instr.frameMsg 0 0 { fmsg 0 0 0 true with src := 512 }).wf = false ∧ (Instr.frameMsg 0 0 { fmsg 0 0 0 true with colour := 3 }).wf = false ∧
    (Instr.frameMsg 0 0 { fmsg 0 0 0 true with hdrs := List.replicate 17 0 }).wf = false := by decide +kernel

end Sys2Proof.Tests
end

section
/-! The recipe engine (chapter 03): what an instruction whose condition is false does. -/
namespace Sys2Proof.Proofs.RecipeEngine
open Sys2Proof Sys2Proof.Machine Sys2Proof.Safety

/-- Settles O6 (R83): every row of Table 3-6 is `recipeRow` of its operation, which a false condition skips before the operation runs;
at the boundary no abort waits, so the engine goes on at the next word, one slot spent. -/
theorem recipeFalseConditionSkips : Obligations.RecipeFalseConditionSkips := by
  intro i oper dt pl k s u e f w d hrow hu hfetch hoper hcond haborted hoverrun
  subst hu
  obtain ⟨hdefined, run, hexec⟩ := recipeOf_exec i oper dt pl k s hrow
  have hskip := recipeRow_skips oper dt pl k s run e f w d hfetch hcond hoper hdefined
  have hgoes := boundary_go (s.advance dt) pl k e e f f 1 none haborted hoverrun
  rw [hexec, hskip, hgoes, Option.getD_none]

end Sys2Proof.Proofs.RecipeEngine
end

section
/-! Mailbox channels (chapter 16): a full completion ring (R685) and doorbells that point too far (R682). -/
namespace Sys2Proof.Proofs.HostInterface
open Sys2Proof Sys2Proof.Machine Sys2Proof.Safety

/-- R685: with as many completions between the host's CI and CPL_PI as the ring holds, no request of the channel can begin. -/
theorem canBegin_eq_false_of_full (u : State) (ch : Nat) (hfull : 2 ^ u.cplLog ch ≤ serial (u.chan ch).cplCi (u.cplPi ch) 16) :
    u.canBegin ch = false := by
  have hslot : decide (serial (u.chan ch).cplCi (u.cplPi ch) 16 < 2 ^ u.cplLog ch) = false := decide_eq_false (Nat.not_lt.mpr hfull)
  rw [State.canBegin, hslot, Bool.and_false]

/-- A command whose request cannot begin lets the time pass, whatever the command is. -/
theorem runCmdThen_waits (c : Cmd) (dt : Nat) (r : Req) (s : State) (body : State → Reply) (after : Nat → State → State)
    (h : (s.advance dt).canBegin r.ch = false) : runCmdThen c dt r s body after = .next (s.advance dt).settle := by
  simp only [runCmdThen, h, Bool.not_false, if_true, finish_eq]

/-- Settles O56 (R685): every mailbox row is `runCmdThen` of its command, whose first test is that the request can begin; with the
completion ring full it cannot. -/
theorem fullCompletionRingMakesTheChannelWait : Obligations.FullCompletionRingMakesTheChannelWait := by
  intro i c dt r s u hrow hu hfull
  subst hu
  obtain ⟨body, after, hexec⟩ := mailboxRow_exec i c dt r s hrow
  rw [hexec, runCmdThen_waits c dt r s body after (canBegin_eq_false_of_full (s.advance dt) r.ch hfull)]

/-- ERROR is bit 0 of word 6 of a channel's MBX_RING, with its cause in the bits above. -/
theorem mbxError_reg_word6 (u : State) (ch cause : Nat) : (u.mbxError ch cause).reg .MBX_RING ch 6 = (1 + 2 * cause) % 4294967296 :=
  State.reg_setReg_self (u.stopChan ch) .MBX_RING ch 6 (1 + 2 * cause)

/-- R682: a request doorbell further ahead of REQ_CI than the ring is long. -/
theorem execMbxReqDb_error (dt : Nat) (ch : Fin 16) (pi : BitVec 16) (s : State) (hen : (s.advance dt).mbxEn ch = true)
    (hfar : 2 ^ (s.advance dt).reqLog ch < serial ((s.advance dt).reqCi ch) pi.toNat 16) :
    execMbxReqDb dt ch pi s = .next (State.settle ((s.advance dt).mbxError ch 1)) := by
  simp only [execMbxReqDb, hen, Bool.not_true, Bool.false_eq_true, if_false, gt_iff_lt, if_pos hfar, finish_eq]

/-- R682: a completion doorbell whose CI passes CPL_PI, seen from the last CI; one behind the last CI lies there too, modulo 2^16. -/
theorem execMbxCplDb_error (dt : Nat) (ch : Fin 16) (ci : BitVec 16) (s : State) (hen : (s.advance dt).mbxEn ch = true)
    (hfar : serial ((s.advance dt).chan ch).cplCi ((s.advance dt).cplPi ch) 16 < serial ((s.advance dt).chan ch).cplCi ci.toNat 16) :
    execMbxCplDb dt ch ci s = .next (State.settle ((s.advance dt).mbxError ch 1)) := by
  simp only [execMbxCplDb, hen, Bool.not_true, Bool.false_eq_true, if_false, gt_iff_lt, if_pos hfar, finish_eq]

/-- Settles O59 (R682): the error leaves 1 + 2 × 1 in word 6, and each doorbell of an enabled channel answers it when it points too far. -/
theorem doorbellsTooFarSetError : Obligations.DoorbellsTooFarSetError := by
  intro dt ch n s u hu hen
  subst hu
  refine ⟨?_, fun hfar => ?_, fun hfar => ?_⟩
  · exact mbxError_reg_word6 (s.advance dt) ch 1
  · exact execMbxReqDb_error dt ch n s hen hfar
  · exact execMbxCplDb_error dt ch n s hen hfar

end Sys2Proof.Proofs.HostInterface
end

section
/-! The interrupt controller (chapter 18): a read of CLAIM (R787). -/
namespace Sys2Proof.Proofs.InterruptClaim
open Sys2Proof Sys2Proof.Machine Sys2Proof.Safety

/-- The order of R787: source `i` comes before source `j` by a higher PRIO, or by the lower number at equal PRIO. -/
def ClaimedBefore (u : State) (i j : Nat) : Prop :=
  u.irqPrio j < u.irqPrio i ∨ (u.irqPrio j = u.irqPrio i ∧ i ≤ j)

/-- Two sources that each come before the other are one: this makes the claimed source unique. -/
theorem claimedBefore_antisymm {u : State} {i j : Nat} (hij : ClaimedBefore u i j) (hji : ClaimedBefore u j i) : i = j := by
  unfold ClaimedBefore at hij hji
  omega

/-- With no source deliverable to a target, it has no best source. -/
theorem irqBest_eq_none {u : State} {t : Nat} (hnone : ∀ j, u.irqDeliverable t j = false) : u.irqBest t = none := by
  have hempty : u.irqCands.filter (u.irqDeliverable t) = [] :=
    List.filter_eq_nil_iff.mpr fun j _ => by simp [hnone j]
  rw [State.irqBest, hempty, List.foldl_nil]

/-- A target to which a source is deliverable has a best source: a deliverable one that comes before every other. -/
theorem irqBest_exists {u : State} {t i : Nat} (hi : i < 1024) (hdel : u.irqDeliverable t i = true) :
    ∃ k, u.irqBest t = some k ∧ u.irqDeliverable t k = true ∧ ClaimedBefore u k i := by
  have hmem : i ∈ u.irqCands.filter (u.irqDeliverable t) := List.mem_filter.mpr ⟨deliv_cand u t i hi hdel, hdel⟩
  obtain ⟨best, hfold, hempty, hfirst⟩ := best_spec u.irqPrio (u.irqCands.filter (u.irqDeliverable t)) none
  have hbest : u.irqBest t = best := hfold
  cases best with
  | none => exact absurd hmem ((hempty rfl).2 ▸ List.not_mem_nil)
  | some k =>
    obtain ⟨hk, hbefore⟩ := hfirst k rfl
    have hkdel : k ∈ u.irqCands.filter (u.irqDeliverable t) := hk.resolve_right (by simp)
    exact ⟨k, hbest, (List.mem_filter.mp hkdel).2, hbefore i (.inl hmem)⟩

/-- The deliverable source that comes before every other deliverable one is the best. -/
theorem irqBest_eq_some {u : State} {t i : Nat} (hi : i < 1024) (hdel : u.irqDeliverable t i = true)
    (hfirst : ∀ j, u.irqDeliverable t j = true → ClaimedBefore u i j) : u.irqBest t = some i := by
  obtain ⟨k, hbest, hkdel, hki⟩ := irqBest_exists hi hdel
  rw [hbest, claimedBefore_antisymm hki (hfirst k hkdel)]

/-- Source `i` taken by target `t`: no longer pending, and the newest active source there, at its PRIO. -/
def irqTake (u : State) (t i : Nat) : State :=
  { u with irq := { u.irq with
    pend := del u.irq.pend i
    stack := sset u.irq.stack t ((i, u.irqPrio i) :: sget u.irq.stack [] t) } }

@[simp] theorem irqTake_pend (u : State) (t i : Nat) : (irqTake u t i).irq.pend = del u.irq.pend i := rfl

@[simp] theorem irqTake_stack (u : State) (t i : Nat) :
    (irqTake u t i).irq.stack = sset u.irq.stack t ((i, u.irqPrio i) :: sget u.irq.stack [] t) := rfl

theorem irqActive_irqTake (u : State) (t i : Nat) : (irqTake u t i).irqActive i = true :=
  any_sset u.irq.stack t ((i, u.irqPrio i) :: sget u.irq.stack [] t) (fun e => e.2.any fun a => a.1 == i) (by simp)

theorem irqRunning_irqTake (u : State) (t i : Nat) : (irqTake u t i).irqRunning t = u.irqPrio i := by
  simp [State.irqRunning, sget]

/-- CLAIM puts the value read into the reader's result. -/
theorem exec_irqClaim (dt : Nat) (t : Fin 5) (s : State) :
    exec (.irqClaim dt t) s =
      .next (State.settle { ((s.advance dt).irqClaim t).2 with rd := [w32 ((s.advance dt).irqClaim t).1] }) := rfl

theorem irqClaim_of_none {u : State} {t : Nat} (h : u.irqBest t = none) : u.irqClaim t = (0, u) := by
  rw [State.irqClaim, h]

/-- A claim that finds a source takes it, counts it as a performance event and arbitrates again. -/
theorem irqClaim_of_some {u : State} {t i : Nat} (h : u.irqBest t = some i) :
    u.irqClaim t = (i + 2147483648, ((irqTake u t i).perfEv 16 1 0 0 0 0 0).irqSettle) := by
  rw [State.irqClaim, h]
  rfl

/-- Settles O60 (R787): the claim answers the best source of the target, which is none when nothing is deliverable and otherwise the
one deliverable source that comes before every other. -/
theorem claimTakesTheHighestPriority : Obligations.ClaimTakesTheHighestPriority := by
  intro dt t s u hu
  subst hu
  constructor
  · intro hnone
    rw [exec_irqClaim, irqClaim_of_none (irqBest_eq_none hnone)]
  · intro i hi hdel hfirst
    have hclaim := irqClaim_of_some (irqBest_eq_some hi hdel hfirst)
    refine ⟨_, irqTake (s.advance dt) t i, ?_, rfl, irqTake_pend _ _ _, irqActive_irqTake _ _ _, irqRunning_irqTake _ _ _⟩
    rw [exec_irqClaim, hclaim]

end Sys2Proof.Proofs.InterruptClaim
end

section
/-! The recipe engine (chapter 03): what each operation of Table 3-6 does where its condition holds and no abort waits. -/
namespace Sys2Proof.Proofs.RecipeOperations
open Sys2Proof Sys2Proof.Machine Sys2Proof.Safety

section Rows
variable {oper dt : Nat} {pl : Fin 4} {k : Fin 8} {s : State} {run : RCtx → Eff} {e : Engine} {f : Frame} {w : RWord} {d : Disp}

/-- A row whose operation goes on: the engine is at the branch target, or at the next word. -/
theorem recipeRow_goes (h : Carries (s.advance dt) pl k e f w d) (ho : d.oper = oper) (hd : operDefined oper = true) {e' : Engine}
    {f' : Frame} {slots : Nat} {pc : Option Nat} (hrun : run ⟨s.advance dt, pl, e, f, w, d⟩ = .go e' f' slots pc false) :
    recipeRow oper dt pl k s run = .next (State.settle (went (s.advance dt) pl k e f slots (pc.getD (e.pc + 1)) e' f')) := by
  obtain ⟨hfetch, hcond, haborted, hoverrun⟩ := h
  rw [recipeRow_carries oper dt pl k s run e f w d hfetch hcond ho hd, hrun, boundary_go _ _ _ _ _ _ _ _ _ haborted hoverrun]

/-- A row whose operation goes on at the next word. -/
theorem recipeRow_next_word (h : Carries (s.advance dt) pl k e f w d) (ho : d.oper = oper) (hd : operDefined oper = true) {e' : Engine}
    {f' : Frame} {slots : Nat} (hrun : run ⟨s.advance dt, pl, e, f, w, d⟩ = .go e' f' slots none false) :
    recipeRow oper dt pl k s run = .next (State.settle (went (s.advance dt) pl k e f slots (e.pc + 1) e' f')) :=
  recipeRow_goes (pc := none) h ho hd hrun

/-- A row whose operation ends the parse. -/
theorem recipeRow_ends (h : Carries (s.advance dt) pl k e f w d) (ho : d.oper = oper) (hd : operDefined oper = true) {o r : Nat}
    (hrun : run ⟨s.advance dt, pl, e, f, w, d⟩ = .fin e f o r) :
    recipeRow oper dt pl k s run = .next (State.settle (ended (s.advance dt) pl k e f o r 0)) := by
  obtain ⟨hfetch, hcond, _, _⟩ := h
  rw [recipeRow_carries oper dt pl k s run e f w d hfetch hcond ho hd, hrun, boundary_fin]

/-- A row whose operation waits for bytes (R139). -/
theorem recipeRow_waits (h : Carries (s.advance dt) pl k e f w d) (ho : d.oper = oper) (hd : operDefined oper = true)
    (hrun : run ⟨s.advance dt, pl, e, f, w, d⟩ = .wait) :
    recipeRow oper dt pl k s run = .next (State.settle ((s.advance dt).keepEngine pl k e.frame { e with waitW := true } f)) := by
  obtain ⟨hfetch, hcond, haborted, hoverrun⟩ := h
  rw [recipeRow_carries oper dt pl k s run e f w d hfetch hcond ho hd, hrun]
  simp [State.boundary, Frame.stopped, haborted, hoverrun]

/-- A row whose operation discards a ninth side record (R97). -/
theorem recipeRow_excess (h : Carries (s.advance dt) pl k e f w d) (ho : d.oper = oper) (hd : operDefined oper = true) {x : State}
    (hx : x = (s.advance dt).spendSlots pl f e.pc 1 (min 65535 (e.icnt + 1)))
    (hrun : run ⟨s.advance dt, pl, e, f, w, d⟩ = .go e f 1 none true) :
    recipeRow oper dt pl k s run = .next (State.settle ((if x.standard (bankNo pl f.bank) = false then x.bump .PARSE_SIDE_EXCESS pl else x).keepEngine
      pl k e.frame { e with pc := e.pc + 1, icnt := min 65535 (e.icnt + 1) } f)) := by
  obtain ⟨hfetch, hcond, haborted, hoverrun⟩ := h
  subst hx
  rw [recipeRow_carries oper dt pl k s run e f w d hfetch hcond ho hd, hrun]
  simp [State.boundary, Frame.stopped, haborted, hoverrun]

end Rows

/-! ## Arithmetic (R84) -/

theorem setReg_w64 (e : Engine) (n v : Nat) : e.setReg n (w64 v) = e.setReg n v := by
  simp [Engine.setReg, w64]

theorem w64_w64 (v : Nat) : w64 (w64 v) = w64 v := by
  simp [w64]

/-- The flags of a logic result, written as Table 3-6 has them: Z and N of the result with SF set. -/
theorem logicFlags_setReg (e : Engine) (n v : Nat) (sf : Bool) :
    (e.setReg n v).logicFlags sf (w64 v) = { e.setReg n v with
      z := if sf then v % 2 ^ 64 == 0 else e.z
      n := if sf then (v % 2 ^ 64).testBit 63 else e.n } := by
  obtain ⟨hz, hn, _, _⟩ := Engine.setReg_flags e n v
  cases sf
  · simp [Engine.logicFlags, ← hz, ← hn]
  · simp [Engine.logicFlags, flagZ, flagN, w64]

/-- The flags of an arithmetic result: with SF set the carry too. -/
theorem arithFlags_setReg (e : Engine) (n v : Nat) (sf c : Bool) :
    (e.setReg n v).arithFlags sf (w64 v) c = { e.setReg n v with
      z := if sf then v % 2 ^ 64 == 0 else e.z
      n := if sf then (v % 2 ^ 64).testBit 63 else e.n
      c := if sf then c else e.c } := by
  obtain ⟨hz, hn, hc, _⟩ := Engine.setReg_flags e n v
  cases sf
  · simp [Engine.arithFlags, ← hz, ← hn, ← hc]
  · simp [Engine.arithFlags, flagZ, flagN, w64]

/-- A difference is already reduced to 64 bits. -/
theorem w64_sub64 (a b : Nat) : w64 (sub64 a b) = sub64 a b := w64_w64 _

/-- The flags of SUB. -/
theorem subFlags_setReg (e : Engine) (n a b : Nat) (sf : Bool) :
    (e.setReg n (sub64 a b)).arithFlags sf (sub64 a b) (borrowSub a b) = { e.setReg n (sub64 a b) with
      z := if sf then sub64 a b % 2 ^ 64 == 0 else e.z
      n := if sf then (sub64 a b % 2 ^ 64).testBit 63 else e.n
      c := if sf then decide (a < b) else e.c } := by
  have h := arithFlags_setReg e n (sub64 a b) sf (borrowSub a b)
  rwa [w64_sub64] at h

/-- The flags of CMP, which writes no register. -/
theorem cmpFlags (e : Engine) (a b : Nat) : e.arithFlags true (sub64 a b) (borrowSub a b) =
    { e with z := sub64 a b == 0, n := (sub64 a b).testBit 63, c := decide (a < b) } := by
  simp only [Engine.arithFlags, if_true, flagZ, w64_sub64, flagN, borrowSub]

/-- Settles O1 (R84): each row of the group is `recipeRow` of an operation that only changes the engine; the result's flags are rewritten
as Table 3-6 has them. -/
theorem recipeArithmeticWritesWdAndFlags : Obligations.RecipeArithmeticWritesWdAndFlags := by
  intro dt pl k s u e f w d hu hc
  subst hu
  refine ⟨?nop, ?movi, ?ext, ?add, ?sub, ?and, ?or, ?xor, ?shl, ?shr, ?cmp, ?tst⟩ <;> intro ho
  case nop =>
    show execRecipeNop dt pl k s = _
    exact recipeRow_next_word hc ho rfl rfl
  case movi =>
    show execMovi dt pl k s = _
    exact recipeRow_next_word hc ho rfl rfl
  case ext =>
    show execExtract dt pl k s = _
    exact recipeRow_next_word hc ho rfl rfl
  case add =>
    show execAluAdd dt pl k s = _
    exact recipeRow_next_word hc ho rfl (congrArg (Eff.go · f 1 none false) (arithFlags_setReg _ _ _ _ _))
  case sub =>
    show execAluSub dt pl k s = _
    exact recipeRow_next_word hc ho rfl (congrArg (Eff.go · f 1 none false) (subFlags_setReg _ _ _ _ _))
  case and =>
    show execAluAnd dt pl k s = _
    exact recipeRow_next_word hc ho rfl (congrArg (Eff.go · f 1 none false) (logicFlags_setReg _ _ _ _))
  case or =>
    show execAluOr dt pl k s = _
    exact recipeRow_next_word hc ho rfl (congrArg (Eff.go · f 1 none false) (logicFlags_setReg _ _ _ _))
  case xor =>
    show execAluXor dt pl k s = _
    exact recipeRow_next_word hc ho rfl (congrArg (Eff.go · f 1 none false) (logicFlags_setReg _ _ _ _))
  case shl =>
    show execAluShl dt pl k s = _
    exact recipeRow_next_word hc ho rfl (congrArg (Eff.go · f 1 none false) (logicFlags_setReg _ _ _ _))
  case shr =>
    show execAluShr dt pl k s = _
    exact recipeRow_next_word hc ho rfl (congrArg (Eff.go · f 1 none false) (logicFlags_setReg _ _ _ _))
  case cmp =>
    show execCmp dt pl k s = _
    exact recipeRow_next_word hc ho rfl (congrArg (Eff.go · f 1 none false) (cmpFlags _ _ _))
  case tst =>
    show execTst dt pl k s = _
    exact recipeRow_next_word hc ho rfl rfl

/-! ## Loads and writes -/

/-- Settles O2 (R84, R85, R88, R97): each row of the group is `recipeRow` of an operation; a load's answer says whether it goes on or waits,
and the count of the side records whether a record takes a slot. -/
theorem recipeLoadsAndWrites : Obligations.RecipeLoadsAndWrites := by
  intro dt pl k s u e f w d hu hc
  subst hu
  refine ⟨?ldf, ?ldv, ?ldvNone, ?lds, ?key, ?metaUndefined, ?metaDefined, ?side, ?sideNinth, ?ldfWaits, ?ldvWaits⟩
  case ldf =>
    intro v o ho hload
    show execLdf dt pl k s = _
    exact recipeRow_next_word hc ho rfl (congrArg (RCtx.loaded _) hload)
  case ldv =>
    intro v o ho hn hload
    show execLdv dt pl k s = _
    exact recipeRow_next_word hc ho rfl ((if_neg hn).trans (congrArg (RCtx.loaded _) hload))
  case ldvNone =>
    intro ho hn
    show execLdv dt pl k s = _
    exact recipeRow_next_word hc ho rfl (if_pos hn)
  case lds =>
    intro ho
    show execLds dt pl k s = _
    exact recipeRow_next_word hc ho rfl rfl
  case key =>
    intro ho
    show execKeyWrite dt pl k s = _
    exact recipeRow_next_word hc ho rfl rfl
  case metaUndefined =>
    intro ho hbits
    show execMetaWrite dt pl k s = _
    exact recipeRow_next_word hc ho rfl (if_pos hbits)
  case metaDefined =>
    intro ho hbits
    show execMetaWrite dt pl k s = _
    exact recipeRow_next_word hc ho rfl (if_neg hbits)
  case side =>
    intro ho hroom
    show execSideRec dt pl k s = _
    exact recipeRow_next_word hc ho rfl (if_neg (Nat.not_le.mpr hroom))
  case sideNinth =>
    intro x ho hfull hx
    show execSideRec dt pl k s = _
    exact recipeRow_excess hc ho rfl hx (if_pos hfull)
  case ldfWaits =>
    intro ho hload
    show execLdf dt pl k s = _
    exact recipeRow_waits hc ho rfl (congrArg (RCtx.loaded _) hload)
  case ldvWaits =>
    intro ho hn hload
    show execLdv dt pl k s = _
    exact recipeRow_waits hc ho rfl ((if_neg hn).trans (congrArg (RCtx.loaded _) hload))

/-! ## The window: cursor, headers, BER, samples and patterns -/

/-- Once the tail has arrived every byte of the window is known (R139). -/
theorem waits_eq_false_of_tail {f : Frame} (h : f.tail = true) (lo hi : Nat) : f.waits lo hi = false := by
  simp [Frame.waits, Frame.unknown, h]

/-- The tag bytes `berHead` answers are the ones DECBER reads the tag by. -/
theorem berHead_tagBytes {f : Frame} {i tag tb hb v : Nat} {bad : Bool} (h : berHead f i = (tag, tb, hb, v, bad)) :
    (if f.winByte i % 32 = 31 then 2 else 1) = tb := by
  simp only [berHead] at h
  split at h <;> (try split at h) <;> grind

/-- A region of `m` bytes from byte `a`, truncated to FLEN (R98). -/
theorem patRegion_eq {a m fl : Nat} : (min ((a : Int) + (m : Nat)) (fl : Nat) - a).toNat = min m (fl - a) := by
  omega

/-- A region of no bytes stays one wherever it starts. -/
theorem patRegion_zero {a fl : Int} : (min (a + (0 : Nat)) fl - a).toNat = 0 := by
  omega

/-- Settles O3 (R84, R89, R93, R96, R98, R139): the bytes an operation names lie in the window, so its exceptions are passed over; with the
tail there nothing waits. -/
theorem recipeWindowOperations : Obligations.RecipeWindowOperations := by
  intro dt pl k s u e f w d hu hc
  subst hu
  refine ⟨?adv, ?push, ?decber, ?svx, ?pat, ?patNone, ?svxWaits, ?decberWaits⟩
  case adv =>
    intro ho hin
    show execAdv dt pl k s = _
    exact recipeRow_next_word hc ho rfl (if_neg (Nat.not_lt.mpr hin))
  case push =>
    intro ho hin hroom
    show execPush dt pl k s = _
    exact recipeRow_next_word hc ho rfl ((if_neg (Nat.not_lt.mpr hin)).trans (if_neg (Nat.not_le.mpr hroom)))
  case decber =>
    intro tag tb hb v bad ho hber htag hhead htail
    show execDecber dt pl k s = _
    refine recipeRow_next_word hc ho rfl ?_
    have hcur : ¬ e.cur > 511 := by omega
    simp only [hber, berHead_tagBytes hber, waits_eq_false_of_tail htail, if_neg hcur, if_neg (Nat.not_lt.mpr htag),
      if_neg (Nat.not_lt.mpr hhead), Bool.false_eq_true, if_false]
    rfl
  case svx =>
    intro n ho hn hin htail hroom
    show execSvx dt pl k s = _
    refine recipeRow_next_word hc ho rfl ?_
    simp only [Bool.or_eq_true, decide_eq_true_eq, gt_iff_lt, ← hn, if_neg (Nat.not_lt.mpr hin), waits_eq_false_of_tail htail, 
      Bool.false_eq_true, if_false, RCtx.side, ge_iff_le, if_neg (Nat.not_le.mpr hroom)]
  case pat =>
    intro a n ho ha hn hpos hin htail
    show execPat dt pl k s = _
    refine recipeRow_next_word hc ho rfl ?_
    have hneg : ¬ ((a : Int) < 0) := by omega
    have hwin : ¬ ((a : Int) + (n : Nat) > 512) := by omega
    simp only [← ha, patRegion_eq, ← hn, if_neg (Nat.pos_iff_ne_zero.mp hpos), hneg, hwin, decide_false, Bool.or_self,
      waits_eq_false_of_tail htail, Bool.false_eq_true, if_false, Int.toNat_natCast]
  case patNone =>
    intro ho hn
    show execPat dt pl k s = _
    refine recipeRow_next_word hc ho rfl ?_
    simp only [hn, Nat.zero_min, patRegion_zero, if_true]
  case svxWaits =>
    intro n ho hn hin hwait
    show execSvx dt pl k s = _
    refine recipeRow_waits hc ho rfl ?_
    simp only [Bool.or_eq_true, decide_eq_true_eq, gt_iff_lt, ← hn, if_neg (Nat.not_lt.mpr hin), hwait, if_true]
  case decberWaits =>
    intro ho hcur hwait
    show execDecber dt pl k s = _
    exact recipeRow_waits hc ho rfl ((if_neg (Nat.not_lt.mpr hcur)).trans (if_pos hwait))

/-! ## Control and the end of a parse -/

/-- A claimed end past the frame is malformed (R94). -/
theorem chkLen_past {f : Frame} {en : Int} {exact pad : Bool} {rs : Nat} (ht : f.tail = true) (h : (f.flen : Nat) < en) :
    f.chkLen en exact pad rs = none := by
  simp [Frame.chkLen, ht, h]

/-- A claimed end inside the frame passes where it need not be exact. -/
theorem chkLen_within {f : Frame} {en : Int} {pad : Bool} {rs : Nat} (ht : f.tail = true) (h : en ≤ (f.flen : Nat)) :
    f.chkLen en false pad rs = some f := by
  simp [Frame.chkLen, ht, Int.not_lt.mpr h]

/-- An exact end that is the frame's own passes. -/
theorem chkLen_exact {f : Frame} {en : Int} {pad : Bool} {rs : Nat} (ht : f.tail = true) (h : en = (f.flen : Nat)) :
    f.chkLen en true pad rs = some f := by
  simp [Frame.chkLen, ht, h]

/-- An exact end before the frame's own passes as padding of a frame of at most 64 bytes alone. -/
theorem chkLen_short {f : Frame} {en : Int} {pad : Bool} {rs : Nat} (ht : f.tail = true) (h : en < (f.flen : Nat)) :
    f.chkLen en true pad rs = if pad = true ∧ en < 64 ∧ f.flen ≤ 64 then some f else none := by
  have hpast : ¬ (en > (f.flen : Nat)) := by omega
  have hpad : ((f.flen : Nat) : Int) ≤ 64 ↔ f.flen ≤ 64 := by omega
  by_cases hp : pad = true ∧ en < 64 ∧ f.flen ≤ 64
  · simp [Frame.chkLen, ht, hpast, h, hp]
  · simp only [Frame.chkLen, ht, hpast, h, decide_true, decide_false, if_true, hp, if_false]
    rw [if_pos]
    simp only [Bool.false_or, Bool.true_and, Bool.not_eq_true', Bool.and_eq_false_iff, decide_eq_false_iff_not]
    grind

/-- Before the tail an end past MAX_FRAME − 4 is malformed (R139). -/
theorem chkLen_pastMax {f : Frame} {en : Int} {exact pad : Bool} {rs : Nat} (ht : f.tail = false) (h : ((f.maxFrame - 4 : Nat) : Int) < en) :
    f.chkLen en exact pad rs = none := by
  simp [Frame.chkLen, ht, h]

/-- Before the tail the frame is longer than an exact end below 509. -/
theorem chkLen_exactEarly {f : Frame} {en : Int} {pad : Bool} {rs : Nat} (ht : f.tail = false) (h : en < 509) :
    f.chkLen en true pad rs = none := by
  simp [Frame.chkLen, ht, h]

/-- Before the tail a check that need not be exact is deferred (R140). -/
theorem chkLen_deferred {f : Frame} {en : Int} {pad : Bool} {rs : Nat} (ht : f.tail = false) (h : en ≤ ((f.maxFrame - 4 : Nat) : Int)) :
    f.chkLen en false pad rs = some { f with
      maxE := (match f.maxE with | some x => if en.toNat > x.1 then some (en.toNat, rs) else some x | none => some (en.toNat, rs)) } := by
  simp only [Frame.chkLen, ht, Bool.false_eq_true, if_false, Bool.false_and, Bool.or_false, decide_eq_true_eq, if_neg (Int.not_lt.mpr h), gt_iff_lt]
  cases hx : f.exactE <;> simp [← hx] <;> rfl

section Chklen
variable {dt : Nat} {pl : Fin 4} {k : Fin 8} {s : State} {e : Engine} {f : Frame} {w : RWord} {d : Disp}

/-- CHKLEN passes, at once or deferred. -/
theorem execChklen_passes (hc : Carries (s.advance dt) pl k e f w d) (ho : d.oper = 0x16) {f' : Frame}
    (h : f.chkLen ((e.cur : Nat) + w.soff + (e.opB w % 16777216 : Nat)) (bit w.imm 0) (bit w.imm 1) (bits w.imm 8 8) = some f') :
    exec (.chklen dt pl k) s = .next (State.settle (went (s.advance dt) pl k e f 1 (e.pc + 1) e f')) := by
  show execChklen dt pl k s = _
  refine recipeRow_next_word hc ho rfl ?_
  simp only [h]

/-- CHKLEN finds the frame malformed. -/
theorem execChklen_fails (hc : Carries (s.advance dt) pl k e f w d) (ho : d.oper = 0x16)
    (h : f.chkLen ((e.cur : Nat) + w.soff + (e.opB w % 16777216 : Nat)) (bit w.imm 0) (bit w.imm 1) (bits w.imm 8 8) = none) :
    exec (.chklen dt pl k) s = .next (State.settle (ended (s.advance dt) pl k e f 3 (bits w.imm 8 8) 0)) := by
  show execChklen dt pl k s = _
  refine recipeRow_ends hc ho rfl ?_
  simp only [h]

end Chklen

/-- Settles O4 (R84, R94, R100, R139, R140): branches name the word the recipe goes on at, CHKLEN is the check of a claimed end, and END gives
its outcome and reason. -/
theorem recipeControlAndEnd : Obligations.RecipeControlAndEnd := by
  intro dt pl k s u e f w d hu hc
  subst hu
  refine ⟨?br, ?brx, ?call, ?ret, ?within, ?past, ?exact, ?short, ?pastMax, ?exactEarly, ?deferred, ?endParse⟩
  case br =>
    intro ho
    show execBr dt pl k s = _
    exact recipeRow_goes (pc := some _) hc ho rfl rfl
  case brx =>
    intro ho
    show execBrx dt pl k s = _
    exact recipeRow_goes (pc := some _) hc ho rfl rfl
  case call =>
    intro ho hroom
    show execCall dt pl k s = _
    exact recipeRow_goes (pc := some _) hc ho rfl (if_neg (Nat.not_le.mpr hroom))
  case ret =>
    intro a t ho hcalls
    show execRet dt pl k s = _
    refine recipeRow_goes (pc := some a) hc ho rfl ?_
    simp only [hcalls]
  case within =>
    intro ho ht hle hexact
    refine execChklen_passes hc ho ?_
    rw [hexact]
    exact chkLen_within ht hle
  case past =>
    intro ho ht hlt
    exact execChklen_fails hc ho (chkLen_past ht hlt)
  case exact =>
    intro ho ht hexact heq
    refine execChklen_passes hc ho ?_
    rw [hexact]
    exact chkLen_exact ht heq
  case short =>
    intro ho ht hexact hlt
    refine ⟨fun hpad hen hlen => execChklen_passes hc ho ?_, fun hno => execChklen_fails hc ho ?_⟩
    · rw [hexact]
      exact (chkLen_short ht hlt).trans (if_pos ⟨hpad, hen, hlen⟩)
    · rw [hexact]
      refine (chkLen_short ht hlt).trans (if_neg ?_)
      rintro ⟨hpad, hen, hlen⟩
      rcases hno with h | h | h
      · exact absurd (hpad.symm.trans h) (by decide)
      · exact absurd hen (Int.not_lt.mpr h)
      · exact absurd hlen (Nat.not_le.mpr h)
  case pastMax =>
    intro ho ht hlt
    exact execChklen_fails hc ho (chkLen_pastMax ht hlt)
  case exactEarly =>
    intro ho ht hexact hlt
    refine execChklen_fails hc ho ?_
    rw [hexact]
    exact chkLen_exactEarly ht hlt
  case deferred =>
    intro ho ht hexact hle
    refine execChklen_passes hc ho ?_
    rw [hexact]
    exact chkLen_deferred ht hle
  case endParse =>
    intro ho
    show execEndParse dt pl k s = _
    refine recipeRow_ends hc ho rfl ?_
    have hlt : (if w.imm % 16 ≥ 6 then 5 else w.imm % 16) = if w.imm % 16 < 6 then w.imm % 16 else 5 := by
      split <;> split <;> omega
    exact congrArg (Eff.fin e f · (bits w.imm 8 8)) hlt

end Sys2Proof.Proofs.RecipeOperations
end

section
/-! The whole machine: the queue, the passing of time, and the checks and completions every mailbox command shares (chapter 16). -/
namespace Sys2Proof.Proofs.MachineSteps
open Sys2Proof Sys2Proof.Machine Sys2Proof.Safety

/-- Settles O50: the front command acts on the queue's rest; an empty queue idles. -/
theorem stepTakesTheFrontCommand : Obligations.StepTakesTheFrontCommand :=
  ⟨fun s c => step_cons { s with pending := c :: s.pending } c s.pending rfl, step_nil⟩

/-! ## The passing of time -/

/-- What undefined behaviour never touches: time, the queue, the channels, the security domain and the transaction (R13). -/
def KeepsProtected (s t : State) : Prop :=
  t.now = s.now ∧ t.pending = s.pending ∧ t.mbx = s.mbx ∧ t.sec = s.sec ∧ t.txn = s.txn

theorem KeepsProtected.trans {a b c : State} (h : KeepsProtected a b) (k : KeepsProtected b c) : KeepsProtected a c := by
  obtain ⟨h1, h2, h3, h4, h5⟩ := h
  obtain ⟨k1, k2, k3, k4, k5⟩ := k
  exact ⟨k1.trans h1, k2.trans h2, k3.trans h3, k4.trans h4, k5.trans h5⟩

theorem spoilArea_keepsProtected (w s : State) (a : Area) : KeepsProtected s (State.spoilArea w s a) := by
  cases a <;> exact ⟨rfl, rfl, rfl, rfl, rfl⟩

theorem spoilAreas_keepProtected (w : State) (l : List Area) : ∀ s, KeepsProtected s (l.foldl (State.spoilArea w) s) := by
  induction l with
  | nil => exact fun s => ⟨rfl, rfl, rfl, rfl, rfl⟩
  | cons a l ih => exact fun s => (spoilArea_keepsProtected w s a).trans (ih _)

theorem corrupt_keepsProtected (s : State) : KeepsProtected s s.corrupt := by
  unfold State.corrupt
  split
  · exact ⟨rfl, rfl, rfl, rfl, rfl⟩
  · exact KeepsProtected.trans (b := State.spoil { s with free := s.free + 1 } (Config.wildState s.free)) ⟨rfl, rfl, rfl, rfl, rfl⟩
      (spoilAreas_keepProtected _ _ _)

theorem wildGrid_keepsProtected (s : State) : KeepsProtected s s.wildGrid := by
  unfold State.wildGrid
  split <;> exact ⟨rfl, rfl, rfl, rfl, rfl⟩

/-- Without undefined behaviour nothing is corrupted. -/
theorem corrupt_of_defined {s : State} (h : s.undef = []) : s.corrupt = s := by
  rw [State.corrupt, h, List.isEmpty_nil, if_pos rfl]

/-- Measurement within its bound, or no timebase on it, leaves the grid angle. -/
theorem wildGrid_of_tame {s : State} (h : s.phxWild = false ∨ s.flag F.TIME_GRID_CFG.EN 0 = false) : s.wildGrid = s := by
  unfold State.wildGrid
  rw [if_pos]
  rcases h with h | h <;> simp [h]

/-- The clocks after dt; performance events that had waited are written. -/
theorem elapse_keep (s : State) (dt : Nat) : Keep { s with now := s.now + dt, clock := clockAfter s dt } (s.elapse dt) := by
  have hlate : Keep { s with now := s.now + dt, clock := clockAfter s dt } (State.perfLate { s with now := s.now + dt, clock := clockAfter s dt }) :=
    keep_perfLate { s with now := s.now + dt, clock := clockAfter s dt }
  unfold State.elapse
  dsimp only
  split
  · exact hlate
  · refine hlate.trans (keep_foldl _ (fun t pl => ?_) _ _)
    have hadd : ∀ (t : State) (c : Ctr) (i n : Nat), Keep t (t.add c i n) := fun _ _ _ _ => Keep.refl
    have hruns : Keep t (if s.coreRuns pl = true then t.perfEv 1 (coreCycles (s.now + dt) - coreCycles s.now) pl 0 0 0 0 else t) :=
      keep_ite (keep_perfEv _ _ _ _ _ _ _ _) Keep.refl
    refine hruns.trans ?_
    generalize (if s.coreRuns pl = true then t.perfEv 1 (coreCycles (s.now + dt) - coreCycles s.now) pl 0 0 0 0 else t) = t
    have hstall : Keep t (if s.stalled pl = true then
        (t.add .PARSE_STALL_CYCLES pl (coreCycles (s.now + dt) - coreCycles s.now)).perfEv 4 (coreCycles (s.now + dt) - coreCycles s.now) pl 0 0 0 0
        else t) := keep_ite ((hadd _ _ _ _).trans (keep_perfEv _ _ _ _ _ _ _ _)) Keep.refl
    refine hstall.trans ?_
    exact keep_ite Keep.refl (hadd _ _ _ _)

/-- Within one core cycle, with no performance event waiting, only the clocks follow. -/
theorem elapse_of_no_cycle {s : State} {dt : Nat} (hcycles : coreCycles (s.now + dt) = coreCycles s.now) (hskid : s.perfSkid = []) :
    s.elapse dt = { s with now := s.now + dt, clock := clockAfter s dt } := by
  simp only [State.elapse, hcycles, Nat.sub_self, if_true, State.perfLate, hskid, List.filter_nil, List.foldl_nil]

/-- Settles O52 (R12, R13): undefined behaviour and the grid angle leave what R13 protects, and the passing of time moves the clocks alone. -/
theorem timePassesWithACommand : Obligations.TimePassesWithACommand := by
  intro s u dt hu
  obtain ⟨hnow, hpending, hmbx, hsec, htxn⟩ := (corrupt_keepsProtected s).trans (wildGrid_keepsProtected s.corrupt)
  obtain ⟨know, _, kpending, kmbx, ksec, ktxn, _, _, _⟩ := elapse_keep s.corrupt.wildGrid dt
  have hadvance : u = s.corrupt.wildGrid.elapse dt := hu
  refine ⟨?_, ?_, ?_, ?_, ?_, ?_⟩
  · rw [hadvance, know, hnow]
  · rw [hadvance, kpending, hpending]
  · rw [hadvance, kmbx, hmbx]
  · rw [hadvance, ksec, hsec]
  · rw [hadvance, ktxn, htxn]
  · intro hundef htame
    have helapse : u = s.elapse dt := by rw [hadvance, corrupt_of_defined hundef, wildGrid_of_tame htame]
    obtain ⟨_, hclock, _, _, _, _, hframes, hflt, _⟩ := elapse_keep s dt
    refine ⟨?_, ?_, ?_, fun hcycles hskid => ?_⟩
    · rw [helapse, hclock]
    · rw [helapse, hframes]
    · rw [helapse, hflt]
    · rw [helapse, elapse_of_no_cycle hcycles hskid]

/-! ## The checks of a request (R691) -/

section Checks
variable {c : Cmd} {dt : Nat} {r : Req} {s : State} {body : State → Reply} {after : Nat → State → State}

/-- An undefined opcode completes with status 1. -/
theorem runCmdThen_badOpcode (hb : (s.advance dt).canBegin r.ch = true) (hp : r.pcie ≠ .fetch) (ho : r.opcode ≠ none) :
    runCmdThen c dt r s body after = .next (State.settle ((fetched r (s.advance dt)).complete r none 1 0 [])) := by
  have hsome : r.opcode.isSome = true := Option.isSome_iff_ne_none.mpr ho
  simp only [runCmdThen, hb, Bool.not_true, Bool.false_eq_true, if_false, if_neg hp, hsome, if_true]
  rfl

/-- A level that does not allow the command completes with status 5. -/
theorem runCmdThen_levelDenied (hb : (s.advance dt).canBegin r.ch = true) (hp : r.pcie ≠ .fetch) (ho : r.opcode = none)
    (hl : (fetched r (s.advance dt)).levelOk c r = false) :
    runCmdThen c dt r s body after = .next (State.settle ((fetched r (s.advance dt)).complete r none 5 0 [])) := by
  rw [fetched] at hl
  simp only [runCmdThen, hb, Bool.not_true, Bool.false_eq_true, if_false, if_neg hp, ho, Option.isSome_none, hl, Bool.not_false, if_true]
  rfl

/-- A session that fails its check: its completion carries a tag only where the request's was verified. -/
theorem runCmdThen_sessionRefused (hb : (s.advance dt).canBegin r.ch = true) (hp : r.pcie ≠ .fetch) (ho : r.opcode = none)
    (hl : (fetched r (s.advance dt)).levelOk c r = true) {st : Nat} {v : Bool}
    (hs : (fetched r (s.advance dt)).sessionCheck c r = some (st, v)) :
    runCmdThen c dt r s body after = .next (State.settle ((fetched r (s.advance dt)).complete r
      (if v then (fetched r (s.advance dt)).cplKey c r else none) st 0 [])) := by
  rw [fetched] at hl hs
  simp only [runCmdThen, hb, Bool.not_true, Bool.false_eq_true, if_false, if_neg hp, ho, Option.isSome_none, hl, hs]
  rfl

/-- A bad pointer completes with status 3. -/
theorem runCmdThen_badPointer (hb : (s.advance dt).canBegin r.ch = true) (hp : r.pcie ≠ .fetch) (ho : r.opcode = none)
    (hl : (fetched r (s.advance dt)).levelOk c r = true) (hs : (fetched r (s.advance dt)).sessionCheck c r = none) (hbad : ptrBad r = true) :
    runCmdThen c dt r s body after = .next (State.settle (((fetched r (s.advance dt)).acceptCmd c r).complete r
      ((fetched r (s.advance dt)).cplKey c r) 3 0 [])) := by
  rw [fetched] at hl hs
  simp only [runCmdThen, hb, Bool.not_true, Bool.false_eq_true, if_false, if_neg hp, ho, Option.isSome_none, hl, hs, hbad, if_true]
  rfl

/-- A transaction that fails its check. -/
theorem runCmdThen_txnRefused (hb : (s.advance dt).canBegin r.ch = true) (hp : r.pcie ≠ .fetch) (ho : r.opcode = none)
    (hl : (fetched r (s.advance dt)).levelOk c r = true) (hs : (fetched r (s.advance dt)).sessionCheck c r = none) (hgood : ptrBad r = false)
    {st : Nat} {b : State} (ht : ((fetched r (s.advance dt)).acceptCmd c r).txnCheck r = (some st, b)) :
    runCmdThen c dt r s body after = .next (State.settle (b.complete r ((fetched r (s.advance dt)).cplKey c r) st 0 [])) := by
  rw [fetched] at hl hs ht
  simp only [runCmdThen, hb, Bool.not_true, Bool.false_eq_true, if_false, if_neg hp, ho, Option.isSome_none, hl, hs, hgood, ht]
  rfl

end Checks

/-- Settles O57 (R691): every mailbox row is `runCmdThen` of its command, whose checks follow in this order. -/
theorem requestsAreCheckedInOrder : Obligations.RequestsAreCheckedInOrder := by
  intro i c dt r s u f a hrow _ hu hbegin hpcie hf ha
  subst hu hf ha
  obtain ⟨body, after, hexec⟩ := mailboxRow_exec i c dt r s hrow
  rw [hexec]
  refine ⟨runCmdThen_badOpcode hbegin hpcie, fun hop => ⟨runCmdThen_levelDenied hbegin hpcie hop, ?_, ?_, ?_⟩⟩
  · exact fun st v hl hs => runCmdThen_sessionRefused hbegin hpcie hop hl hs
  · exact fun hl hs hbad => runCmdThen_badPointer hbegin hpcie hop hl hs hbad
  · exact fun st b hl hs hgood ht => runCmdThen_txnRefused hbegin hpcie hop hl hs hgood ht

/-! ## Completions (R688, R689) -/

/-- The completion of a request, in the slot at CPL_PI. -/
def completionOf (t : State) (r : Req) (key : Option Bytes) (st result : Nat) (out : Bytes) : Cpl where
  index := t.cplPi r.ch
  phase := (t.cplPi r.ch >>> t.cplLog r.ch) % 2 == 0
  status := st
  cookie := r.cookie
  result := result % 4294967296
  out := out.take r.outLen
  tag := match key with | some k => cplTag k r st result (out.take r.outLen) | none => []

theorem complete_eq (t : State) (r : Req) (key : Option Bytes) (st result : Nat) (out : Bytes) (h : r.pcie ≠ .completion) :
    t.complete r key st result out =
      (State.setFld { t.setChan r.ch { t.chan r.ch with busy := none } with cpls := t.cpls ++ [(r.ch, completionOf t r key st result out)] }
        F.MBX_RING.CPL_PI r.ch ((t.cplPi r.ch + 1) % 65536)).pulse (32 + r.ch) :=
  if_neg h

/-- Settles O58: the completion is appended with its fields, and the interrupt that tells of it touches neither registers, channels nor
completions. -/
theorem completionsTakeTheNextSlot : Obligations.CompletionsTakeTheNextSlot := by
  intro t v r key st result out hpcie hv
  rw [complete_eq t r key st result out hpcie] at hv
  subst hv
  obtain ⟨_, _, _, hmbx, _, _, _, _, hregs, hcpls⟩ := pulse_frame (State.setFld { t.setChan r.ch { t.chan r.ch with busy := none } with
    cpls := t.cpls ++ [(r.ch, completionOf t r key st result out)] } F.MBX_RING.CPL_PI r.ch ((t.cplPi r.ch + 1) % 65536)) (32 + r.ch)
  refine ⟨⟨completionOf t r key st result out, hcpls, rfl, rfl, rfl, rfl, rfl, rfl, fun hkey => ?_⟩, hregs, hmbx⟩
  subst hkey
  rfl

end Sys2Proof.Proofs.MachineSteps
end

section
/-! Arriving and injected frames, buffer grants and dispatch (chapters 02, 03 and 08). -/
namespace Sys2Proof.Proofs.Arrivals
open Sys2Proof Sys2Proof.Machine Sys2Proof.Safety

/-- FRAME_HEAD_READY of one frame: its arrival, and one cycle of the pools. -/
theorem exec_frameHeadReady_single {dt : Nat} {a : Arrival} {s t : State} (h : (s.advance dt).arrive a = t) :
    exec (.frameHeadReady dt [a]) s = .next (State.settle (State.grantCycle { t with nextHead := t.nextHead + 1 })) := by
  subst h
  rfl

/-! ## What an arriving frame does -/

section Arrive
variable {u w : State} {a : Arrival} {m : Nat}

/-- A frame cut off before it was head-ready (R107). -/
theorem arrive_cut (hp : a.port < 40) (hcut : a.cut = true) : u.arrive a = (u.pcsCount a).bump .RX_ABORT a.port := by
  simp only [State.arrive, hp, hcut, if_true]

/-- A port that does not receive counts no frame. -/
theorem arrive_dead (hw : w = if a.port < 40 then u.pcsCount a else u) (hcut : a.cut = false) (hdead : w.rxAlive a.port = false) :
    u.arrive a = w := by
  subst hw
  simp only [State.arrive, hcut, hdead, Bool.not_false, Bool.false_eq_true, if_true, if_false]

/-- A long frame at a port whose MAX_FRAME it has already reached. -/
theorem arrive_longOversize (hw : w = if a.port < 40 then u.pcsCount a else u) (hcut : a.cut = false) (halive : w.rxAlive a.port = true)
    (hm : m = u.maxFrameAt a.port (u.now - a.age)) (hlong : a.long = true) (hmax : m ≤ 512) : u.arrive a = w.bump .RX_OVERSIZE a.port := by
  subst hw hm
  simp only [State.arrive, hcut, halive, hlong, Bool.not_true, Bool.false_and, Bool.false_eq_true, if_true, if_false, Nat.add_zero, ge_iff_le, hmax]

/-- A frame of fewer than 64 bytes (R45). -/
theorem arrive_runt (hw : w = if a.port < 40 then u.pcsCount a else u) (hcut : a.cut = false) (halive : w.rxAlive a.port = true)
    (hshort : a.long = false) (hlen : a.len < 64) : u.arrive a = w.bump .RX_RUNT a.port := by
  subst hw
  simp only [State.arrive, hcut, halive, hshort, hlen, Bool.not_true, Bool.not_false, Bool.false_eq_true, if_true, if_false, Bool.true_and, decide_true]

/-- A frame whose FCS is wrong or whose FEC failed (R46, R49). -/
theorem arrive_fcsError (hw : w = if a.port < 40 then u.pcsCount a else u) (hcut : a.cut = false) (halive : w.rxAlive a.port = true)
    (hshort : a.long = false) (hlen : 64 ≤ a.len) (hbad : a.fcsOk = false ∨ a.fecBad = true) : u.arrive a = w.bump .RX_FCS_ERR a.port := by
  subst hw
  have hor : (!a.fcsOk || a.fecBad) = true := by rcases hbad with h | h <;> simp [h]
  simp only [State.arrive, hcut, halive, hshort, hor, Nat.not_lt.mpr hlen, Bool.not_true, Bool.not_false, Bool.false_eq_true, if_true, if_false,
    Bool.and_false, decide_false, Bool.and_true]

/-- A good frame longer than MAX_FRAME (R43). -/
theorem arrive_oversize (hw : w = if a.port < 40 then u.pcsCount a else u) (hcut : a.cut = false) (halive : w.rxAlive a.port = true)
    (hm : m = u.maxFrameAt a.port (u.now - a.age)) (hshort : a.long = false) (hlen : 64 ≤ a.len) (hfcs : a.fcsOk = true) (hfec : a.fecBad = false)
    (hmax : m < a.len) : u.arrive a = w.bump .RX_OVERSIZE a.port := by
  subst hw hm
  have hge : a.len ≥ u.maxFrameAt a.port (u.now - a.age) + 1 := hmax
  simp only [State.arrive, hcut, halive, hshort, hfcs, hfec, Nat.not_lt.mpr hlen, Bool.not_true, Bool.not_false, Bool.false_eq_true, if_true, if_false,
    Bool.and_false, decide_false, Bool.or_false, hge]

/-- The frame an arrival enters as: stamped at its start, waiting for a buffer of the pool its length or its probe names. -/
def arrivalFrame (v : State) (a : Arrival) (m : Nat) : Frame :=
  let d := (a.subNs : Int) + v.rxDelay a.port
  let controlled := decide (a.port < 32) && v.flag F.MSEC_CTL.RX_EN a.port
  { port := a.port
    pl := portPl a.port
    bytes := a.bytes
    long := a.long
    tail := !a.long
    maxFrame := m
    ts := stampNs (v.frc - a.age) d
    tsPtp := stampNs (v.ptpAgo a.age) d
    tsSub := stampSub d
    untrace := v.untraced
    suspect := v.flag F.FAB_STATE.TIME_SUSPECT 0
    pool0 := choosePool a.long a.len a.bytes m
    phase := .waitBuf (choosePool a.long a.len a.bytes m)
    headSeq := v.nextHead
    macsec := controlled
    icv := if a.long && controlled then a.secTag else none
    off := if a.long then (if controlled then a.secTag.elim 0 SecTag.size else 0) else a.len - (a.bytes.length + 4)
    src := v.gport a.port }

/-- A frame the MAC takes: it is counted, unless its length is not known yet, and passes the MACsec check. -/
structure Taken (u w : State) (a : Arrival) (m : Nat) (v : State) : Prop where
  whole : a.cut = false
  counted : w = if a.port < 40 then u.pcsCount a else u
  alive : w.rxAlive a.port = true
  limit : m = u.maxFrameAt a.port (u.now - a.age)
  short : a.long = false → 64 ≤ a.len ∧ a.len ≤ m ∧ a.fcsOk = true ∧ a.fecBad = false
  long : a.long = true → 512 < m
  data : beNat a.bytes 0 6 ≠ 0x0180C2000001
  macsec : (if a.long then w else (w.bump .RX_FRAMES a.port).add .RX_OCTETS a.port a.len).macsecIn a.port a.secTag a.bytes (!a.long) = (none, v)

/-- What stands between a frame the MAC has taken and its request for a buffer. -/
theorem arrive_taken {v : State} (h : Taken u w a m v) :
    u.arrive a = if !v.ready (4 + portPl a.port) || v.plFenced (portPl a.port) || v.pwr.gated.contains (portPl a.port) then
        (v.bump .RX_NOT_READY a.port).headLost a
      else if v.pendingOf a.port ≥ 128 then (v.bump .PARSE_STALL_DROP a.port).headLost a
      else v.enterFrame (arrivalFrame v a m) := by
  obtain ⟨hcut, hw, halive, hm, hshort, hlong, hdata, hmacsec⟩ := h
  subst hw hm
  have hrunt : (!a.long && decide (a.len < 64)) = false := by
    cases hl : a.long <;> simp_all
  have hfcs : (!a.long && (!a.fcsOk || a.fecBad)) = false := by
    cases hl : a.long <;> simp_all
  have hmax : ¬ ((if a.long = true then 512 else a.len) ≥ u.maxFrameAt a.port (u.now - a.age) + (if a.long = true then 0 else 1)) := by
    cases hl : a.long
    · have := (hshort hl).2.1
      simp; omega
    · have := hlong hl
      simp; omega
  have hpause : ∀ y z : Bool, (decide (beNat a.bytes 0 6 = 0x0180C2000001) && y && z) = false := by simp [hdata]
  unfold State.arrive
  simp only [hcut, halive, hrunt, hfcs, Bool.not_true, Bool.false_eq_true, if_false, if_neg hmax, hpause, hmacsec]
  rfl

/-- A taken frame of a pipeline that is not READY (R318). -/
theorem arrive_notReady {v : State} (h : Taken u w a m v) (hshort : a.long = false) (hready : v.ready (4 + portPl a.port) = false) :
    u.arrive a = v.bump .RX_NOT_READY a.port := by
  simp [arrive_taken h, hready, State.headLost, hshort]

/-- A taken frame whose port has 128 frames waiting (R75). -/
theorem arrive_stalled {v : State} (h : Taken u w a m v) (hshort : a.long = false) (hready : v.ready (4 + portPl a.port) = true)
    (hfence : v.plFenced (portPl a.port) = false) (hgate : v.pwr.gated.contains (portPl a.port) = false) (hfull : 128 ≤ v.pendingOf a.port) :
    u.arrive a = v.bump .PARSE_STALL_DROP a.port := by
  simp only [arrive_taken h, hready, hfence, hgate, State.headLost, hshort, hfull, Bool.not_true, Bool.not_false, Bool.or_self, Bool.false_eq_true,
    if_true, if_false]

/-- A taken frame that enters (R72, R313). -/
theorem arrive_enters {v : State} (h : Taken u w a m v) (hready : v.ready (4 + portPl a.port) = true)
    (hfence : v.plFenced (portPl a.port) = false) (hgate : v.pwr.gated.contains (portPl a.port) = false) (hroom : v.pendingOf a.port < 128) :
    u.arrive a = v.enterFrame (arrivalFrame v a m) := by
  simp only [arrive_taken h, hready, hfence, hgate, Bool.not_true, Bool.or_self, Bool.false_eq_true, if_false, ge_iff_le, if_neg (Nat.not_le.mpr hroom)]

end Arrive

/-- Settles O8 (R43, R45 to R47, R49, R66, R107, R318): each discard is one case of the frame's arrival, after the PCS's counts. -/
theorem badArrivalsAreCountedAndDiscarded : Obligations.BadArrivalsAreCountedAndDiscarded := by
  intro dt a s u w m hu hp hw hm
  subst hu
  have hcount : w = if a.port < 40 then (s.advance dt).pcsCount a else s.advance dt := hw.trans (if_pos hp).symm
  refine ⟨fun hcut => ?_, fun hcut hdead => ?_, fun hcut halive => ⟨fun hlong hmax => ?_, fun hshort => ⟨fun hlen => ?_, fun hlen hbad => ?_,
    fun hlen hfcs hfec hmax => ?_, fun v hlen hfcs hfec hmax hdata hmacsec => ⟨fun hready => ?_, fun hready hfence hgate hfull => ?_⟩⟩⟩⟩
  · subst hw
    exact exec_frameHeadReady_single (arrive_cut hp hcut)
  · exact exec_frameHeadReady_single (arrive_dead hcount hcut hdead)
  · exact exec_frameHeadReady_single (arrive_longOversize hcount hcut halive hm hlong hmax)
  · exact exec_frameHeadReady_single (arrive_runt hcount hcut halive hshort hlen)
  · exact exec_frameHeadReady_single (arrive_fcsError hcount hcut halive hshort hlen hbad)
  · exact exec_frameHeadReady_single (arrive_oversize hcount hcut halive hm hshort hlen hfcs hfec hmax)
  all_goals
    have htaken : Taken (s.advance dt) w a m v := {
      whole := hcut
      counted := hcount
      alive := halive
      limit := hm
      short := fun _ => ⟨hlen, hmax, hfcs, hfec⟩
      long := fun h => absurd (hshort.symm.trans h) (by decide)
      data := hdata
      macsec := by simpa only [hshort, Bool.false_eq_true, if_false, Bool.not_false] using hmacsec }
  · exact exec_frameHeadReady_single (arrive_notReady htaken hshort hready)
  · exact exec_frameHeadReady_single (arrive_stalled htaken hshort hready hfence hgate hfull)

/-! ## One cycle of the pools (R316 to R318) -/

/-- What a pool does with the requests it has in a cycle. -/
def poolServes (s : State) (x : Nat × List (Nat × Frame)) : State :=
  (x.2.drop (min 2 (s.poolFree x.1))).foldl (fun s e => s.refused x.1 e)
    ((x.2.take (min 2 (s.poolFree x.1))).foldl (fun s e => s.grant x.1 e) s)

theorem grantCycle_eq (s : State) : s.grantCycle = ((List.range 4).map fun k => (k, s.requests k)).foldl poolServes s := rfl

theorem poolServes_nil (s : State) (k : Nat) : poolServes s (k, []) = s := by
  simp [poolServes]

/-- With requests of one pool alone the others do nothing. -/
theorem grantCycle_of_one_pool {u : State} {k : Fin 4} {l : List (Nat × Frame)} (hk : u.requests k = l)
    (hothers : ∀ j : Fin 4, j ≠ k → u.requests j = []) : u.grantCycle = poolServes u (k, l) := by
  have hstep : ∀ (s : State) (j : Nat), j < 4 → poolServes s (j, u.requests j) = if j = k.val then poolServes s (k, l) else s := by
    intro s j hj
    split
    · next h => rw [h, hk]
    · next h => rw [hothers ⟨j, hj⟩ (fun e => h (congrArg Fin.val e)), poolServes_nil]
  have hrange : List.range 4 = [0, 1, 2, 3] := rfl
  rw [grantCycle_eq, hrange]
  simp only [List.map_cons, List.map_nil, List.foldl_cons, List.foldl_nil, hstep _ 0 (by decide), hstep _ 1 (by decide), hstep _ 2 (by decide),
    hstep _ 3 (by decide)]
  obtain ⟨k, hlt⟩ := k
  interval_cases k <;> rfl

/-- One requester of one pool: it is granted a buffer, or refused. -/
theorem grantCycle_of_one {u : State} {k : Fin 4} {e : Nat × Frame} (hk : u.requests k = [e]) (hothers : ∀ j : Fin 4, j ≠ k → u.requests j = []) :
    u.grantCycle = if 0 < u.poolFree k then u.grant k e else u.refused k e := by
  rw [grantCycle_of_one_pool hk hothers]
  split
  · next h =>
    obtain ⟨n, hn⟩ : ∃ n, min 2 (u.poolFree k) = n + 1 := ⟨min 2 (u.poolFree k) - 1, by omega⟩
    simp [poolServes, hn]
  · next h =>
    have hn : min 2 (u.poolFree k) = 0 := by omega
    simp [poolServes, hn]

/-- A requester left with none takes the next larger pool under its SPILL. -/
theorem refused_spills {u : State} {k fid : Nat} {f : Frame} (hspill : u.flag F.BUF_REQ_CFG.SPILL f.port = true) (hk : k < 3) :
    u.refused k (fid, f) = u.modFrame fid fun g => { g with phase := .waitBuf (k + 1) } := by
  simp [State.refused, hspill, hk]

/-- One with a MAC behind it is dropped and counted. -/
theorem refused_drops {u : State} {k fid : Nat} {f : Frame} (hspill : u.flag F.BUF_REQ_CFG.SPILL f.port = false ∨ k = 3) (hmac : f.port < 40 ∨ f.port = 41) :
    u.refused k (fid, f) = State.keepTail { u.bump .BUF_NONE (f.port * 4 + f.pool0) with frames := sdel u.frames fid } fid f := by
  have hno : (u.flag F.BUF_REQ_CFG.SPILL f.port && decide (k < 3)) = false := by rcases hspill with h | h <;> simp [h]
  have hport : (decide (f.port ≥ 40) && decide (f.port ≠ 41)) = false := by rcases hmac with h | h <;> simp [h]
  simp only [State.refused, hno, hport, Bool.false_eq_true, if_false]

/-- One without waits on, from its own pool. -/
theorem refused_waits {u : State} {k fid : Nat} {f : Frame} (hspill : u.flag F.BUF_REQ_CFG.SPILL f.port = false ∨ k = 3) (hmac : f.port = 40 ∨ 42 ≤ f.port) :
    u.refused k (fid, f) = u.modFrame fid fun g => { g with phase := .waitBuf g.pool0 } := by
  have hno : (u.flag F.BUF_REQ_CFG.SPILL f.port && decide (k < 3)) = false := by rcases hspill with h | h <;> simp [h]
  have hport : (decide (f.port ≥ 40) && decide (f.port ≠ 41)) = true := by
    simp only [Bool.and_eq_true, decide_eq_true_eq]
    omega
  simp only [State.refused, hno, hport, Bool.false_eq_true, if_false, if_true]

/-! ## Dispatch and injection -/

/-- The dispatcher starts a free engine on the next head-ready frame, at its port's entry word (R73, R74, R81). -/
theorem execEngineDispatch_starts {dt : Nat} {pl : Fin 4} {s u : State} {k fid : Nat} {f : Frame} {entry : Nat} (hu : u = s.advance dt)
    (hready : u.ready (4 + pl) = true) (hfence : u.plFenced pl = false) (hgate : u.pwr.gated.contains pl.val = false)
    (hengine : u.freeEngine pl = some k) (hhead : u.nextHeadReady pl = some (fid, f))
    (hentry : entry = u.reg .PARSE_ENTRY (bankNo pl (u.fld F.PARSE_CTL.ACTIVE_BANK pl) * 44 + f.port) 0) (hvalid : bit entry 31 = true) :
    execEngineDispatch dt pl 0 s = .next (State.settle (State.perfEv (State.keepEngine { u with nextDisp := u.nextDisp + 1 } pl k fid
        { frame := fid, w := List.replicate 16 0, pc := entry % 8192, since := u.now }
        { f with gen := u.cur, bank := u.fld F.PARSE_CTL.ACTIVE_BANK pl, disp := u.nextDisp, phase := .parsing k,
                 fields := u.meta0 pl f.port, kb := [0, 0, 0, 0], hdrs := [] })
      2 1 pl f.port 0 u.cur (f.flen % 16384))) := by
  subst hu hentry
  simp only [execEngineDispatch, hready, hfence, hgate, hengine, hhead, State.blockRead, hvalid, Bool.not_true, Bool.or_self, Bool.false_eq_true,
    if_false, if_true, finish_eq]
  rfl

/-- Settles O7 (R72 to R74, R313, R317, R318): an arrival the MAC takes enters, the pools' cycle grants or refuses, the dispatcher starts an
engine, and an injected frame enters the same way. -/
theorem framesEnterAndAreDispatched : Obligations.FramesEnterAndAreDispatched := by
  refine ⟨?enters, ?pools, ?dispatch, ?injects, ?heldBack⟩
  case enters =>
    intro dt a s u w x v k m d ctl hu hcut hw halive hm hshort hlong hx hdata hmacsec hready hfence hgate hroom hk hd hctl
    subst hu hx hk hd hctl
    have htaken : Taken (s.advance dt) w a m v := ⟨hcut, hw, halive, hm, hshort, hlong, hdata, hmacsec⟩
    rw [exec_frameHeadReady_single (arrive_enters htaken hready hfence hgate hroom)]
    rfl
  case pools =>
    intro dt s u k fid f hu hk hothers
    subst hu
    have hcycle : exec (.bufSpillRetry dt) s = .next (s.advance dt).grantCycle.settle := rfl
    rw [hcycle, grantCycle_of_one hk hothers]
    refine ⟨fun hfree => ?_, fun hnone hspill hlt => ?_, fun hnone hspill hmac => ?_, fun hnone hspill hmac => ?_⟩
    · rw [if_pos hfree]
    all_goals rw [if_neg (by omega)]
    · rw [refused_spills hspill hlt]
    · rw [refused_drops hspill hmac]
    · rw [refused_waits hspill hmac]
  case dispatch =>
    intro dt pl s u k fid f entry hu hready hfence hgate hengine hhead hentry hvalid
    exact execEngineDispatch_starts hu hready hfence hgate hengine hhead hentry hvalid
  case injects =>
    intro dt pl b s u hu hroom
    subst hu
    show execP43Inject dt pl b s = _
    simp only [execP43Inject, State.inject, ge_iff_le, if_neg (Nat.not_le.mpr hroom), finish_eq]
    rfl
  case heldBack =>
    intro dt pl b s u hu hfull
    subst hu
    show execP43Inject dt pl b s = _
    simp only [execP43Inject, State.inject, ge_iff_le, if_pos hfull, finish_eq]

end Sys2Proof.Proofs.Arrivals
end

section
/-! Frames in reception, links, flow control and low-power idle (chapters 02, 03 and 08). -/
namespace Sys2Proof.Proofs.PortEvents
open Sys2Proof Sys2Proof.Machine Sys2Proof.Safety

/-! ## Frames in reception (R104, R139, R319, R849) -/

theorem modFrame_of_sfind {s : State} {f : Nat} {x : Frame} (h : sfind s.frames f = some x) (g : Frame → Frame) :
    s.modFrame f g = { s with frames := sset s.frames f (g x) } := by
  simp only [State.modFrame, h]

/-- Counter pairs are no part of the frames or the engines. -/
theorem countPairs_frames (s : State) (l : List Nat) (n : Nat) : (s.countPairs l n).frames = s.frames := by
  rw [countPairs_frame]

theorem countPairs_engines (s : State) (l : List Nat) (n : Nat) : (s.countPairs l n).engines = s.engines := by
  rw [countPairs_frame]

/-- A frame in reception at a port that goes bad is counted once and marked; in parse, or past its END and not yet admitted, it stays. -/
theorem macAbort_marks {u v : State} {f : Nat} {c : AbortCause} {x : Frame} (hx : sfind u.frames f = some x) (htail : x.tail = false)
    (hport : x.port < 40) (hfirst : x.aborted = none) (hv : v = (u.bump (abortCtr c) x.port).countPairs x.count (x.bytes.length + x.off))
    (hphase : x.phase = .ended ∨ ∃ k, x.phase = .parsing k) :
    u.macAbort f c = { v with frames := sset u.frames f { x with aborted := some c, count := [] } } := by
  have hframes : v.frames = u.frames := by rw [hv, countPairs_frames]; rfl
  have hmod : (v.modFrame f fun x => { x with aborted := some c, count := [] }) =
      { v with frames := sset u.frames f { x with aborted := some c, count := [] } } := by
    rw [modFrame_of_sfind (hframes ▸ hx), hframes]
  have hgood : ¬ (x.tail || x.aborted.isSome) = true := by simp [htail, hfirst]
  simp only [State.macAbort, hx]
  rw [if_neg hgood, if_pos hport, ← hv, hmod]
  split
  · rfl
  · rfl
  · next h => rcases hphase with hp | ⟨k, hp⟩ <;> simp [hp] at h
  · next hno _ hother _ => rcases hphase with hp | ⟨k, hp⟩ <;> simp_all

/-- One already found bad stays as it is. -/
theorem macAbort_again {u : State} {f : Nat} {c : AbortCause} {x : Frame} (hx : sfind u.frames f = some x) (h : x.aborted.isSome = true) :
    u.macAbort f c = u := by
  simp only [State.macAbort, hx, h, Bool.or_true, if_true]

/-- A frame past its END waits for no bytes. -/
theorem endWaiting_of_ended {u : State} {f : Nat} {x : Frame} (hx : sfind u.frames f = some x) (h : x.phase = .ended) : u.endWaiting f = u := by
  simp only [State.endWaiting, hx, h]

/-- A frame whose engine runs ends at the engine's next boundary. -/
theorem endWaiting_of_running {u : State} {f k : Nat} {x : Frame} {e : Engine} (hx : sfind u.frames f = some x) (h : x.phase = .parsing k)
    (he : sfind u.engines (x.pl * 8 + k) = some e) (hw : e.waitW = false) : u.endWaiting f = u := by
  simp only [State.endWaiting, hx, h, he, hw, Bool.false_and, Bool.false_eq_true, if_false]

/-- Past its END and not yet admitted a frame whose bytes pass its buffer is marked. -/
theorem overrunFrame_of_ended {u : State} {f : Nat} {x : Frame} (h : x.phase = .ended) :
    u.overrunFrame f x = { u.bump .BUF_OVERRUN x.port with frames := sset u.frames f { x with overrun := true } } := by
  unfold State.overrunFrame
  split <;> simp_all

/-- Settles O9 (R104, R139, R319, R849): MAC_ABORT marks a frame once, BUF_OVERRUN stores what fits, and 516 bytes end the waits for a frame. -/
theorem longFramesInReception : Obligations.LongFramesInReception := by
  refine ⟨?abort, ?bytes, ?window⟩
  case abort =>
    intro dt f c s u v x hu hx htail hport hv
    subst hu
    have hexec : exec (.macAbort dt f c) s = .next (State.settle (((s.advance dt).macAbort f c).endWaiting f)) := rfl
    have hself : ∀ y, sfind (State.frames { v with frames := sset (s.advance dt).frames f y }) f = some y := fun y => sfind_sset_self _ _ _
    rw [hexec]
    refine ⟨fun hfirst hphase => ?_, fun k e hfirst hphase he hw => ?_, fun hagain hphase => ?_⟩
    · rw [macAbort_marks hx htail hport hfirst hv (.inl hphase), endWaiting_of_ended (hself { x with aborted := some c, count := [] }) hphase]
    · have hengine : sfind v.engines (x.pl * 8 + k) = some e := by
        rw [hv, countPairs_engines]
        exact he
      rw [macAbort_marks hx htail hport hfirst hv (.inr ⟨k, hphase⟩), endWaiting_of_running (hself { x with aborted := some c, count := [] }) hphase hengine hw]
    · rw [macAbort_again hx hagain, endWaiting_of_ended hx hphase]
  case bytes =>
    intro dt f id more s u x hu hx htail hbuf hgood
    subst hu
    have hexec : exec (.bufOverrun dt f more) s = execBufOverrun dt f more s := rfl
    have hpresent : ¬ (x.tail || x.buf.isNone) = true := by simp [htail, hbuf]
    rw [hexec]
    simp only [execBufOverrun, hx, if_neg hpresent, if_neg (ne_true_of_eq_false hgood), congrArg (Option.getD · 0) hbuf, Option.getD_some, finish_eq]
    refine ⟨fun hfits => ?_, fun hpast hphase => ?_⟩
    · rw [if_pos hfits, modFrame_of_sfind hx]
    · rw [if_neg (Nat.not_le.mpr hpast), overrunFrame_of_ended (x := { x with bytes := x.bytes ++ more }) hphase]
  case window =>
    intro dt f more s u v x hu hx htail hv
    subst hu
    have hexec : exec (.parseWindowWaitEnd dt f more) s = execParseWindowWaitEnd dt f more s := rfl
    rw [hexec]
    simp only [execParseWindowWaitEnd, hx, if_neg (ne_true_of_eq_false htail), List.length_append, ← hv, finish_eq]
    refine ⟨fun henough => ?_, fun hfew => ?_⟩
    · rw [if_neg (Nat.not_lt.mpr henough)]
    · rw [if_pos hfew]

/-! ## Links (R37 to R39, R44, R50) -/

theorem sget_sset_self {α : Type} (m : Sparse α) (d : α) (i : Nat) (x : α) : sget (sset m i x) d i = x := by
  rw [sget, sfind_sset_self, Option.getD_some]

/-- A port that may come up: its peer decides. -/
theorem tryUp_of_ready {u v : State} {p : Nat} {x : Port} {y : LinkPeer} (hx : sget u.ports {} p = x) (hpeer : x.peer = some y)
    (hv : v = u.setReg .PORT_STATUS p 0 (putBits (u.reg .PORT_STATUS p 0) 2 1 (b2n (u.portExists p && !u.fecOk p))))
    (hlink : v.linkUp p = false) (hexists : v.portExists p = true) (henable : v.flag F.PORT_CFG.ENABLE p = true) (hfec : v.fecOk p = true)
    (hdown : x.down = false) (hgate : v.pwr.gated.contains (portPl p) = false) :
    u.tryUp p = if !v.peerMatches p y then v
      else if y.half then v.setReg .PORT_STATUS p 0 (v.reg .PORT_STATUS p 0 ||| 2)
      else State.irqSignal ((v.setReg .PORT_STATUS p 0 (1 + 32 * y.speed + (v.reg .PORT_STATUS p 0 &&& 16))).txEnds p) (128 + p) true := by
  unfold State.tryUp
  simp only [← hv, hx, hlink, hexists, henable, hfec, hdown, hgate, hpeer, Bool.not_true, Bool.or_self, Bool.false_eq_true, if_false]

/-- SGMII_SPEED_CHANGE on a link that is up, with no frame to abort: full duplex takes the rate, half duplex takes the link down (R38, R39). -/
theorem execSgmiiSpeedChange_up {dt : Nat} {p : Fin 40} {s told : State} {x : Port} {speed : Nat} {half : Bool} (hx : x = sget (s.advance dt).ports {} p)
    (hsgmii : (s.advance dt).sgmii p = true) (hlink : (s.advance dt).linkUp p = true) (hlo : 1 ≤ speed) (hhi : speed ≤ 3)
    (htold : told = { s.advance dt with ports := sset (s.advance dt).ports p { x with
      peer := x.peer.map fun (y : LinkPeer) => { y with speed := speed, half := half } } }) :
    execSgmiiSpeedChange dt p speed half false none s = .next (State.settle (if half then
      (told.linkLost p).setReg .PORT_STATUS p 0 ((told.linkLost p).reg .PORT_STATUS p 0 ||| 2) else told.setFld F.PORT_STATUS.RATE p speed)) := by
  have hvalid : ¬ (!(s.advance dt).sgmii p || decide (speed < 1) || decide (speed > 3)) = true := by
    simp only [hsgmii, Bool.not_true, Bool.false_or, Bool.or_eq_true, decide_eq_true_eq]
    omega
  have hup : told.linkUp p = true := by
    subst htold
    exact hlink
  simp only [execSgmiiSpeedChange, if_neg hvalid, ← hx, ← htold, hup, Bool.not_true, Bool.false_eq_true, if_false, State.speedAborts, finish_eq]
  cases half <;> rfl

/-- Settles O10 (R37 to R39, R44, R50): a peer is noted and the link tried, and a lost link runs the port-down effects. -/
theorem linkEventsSetPortStatus : Obligations.LinkEventsSetPortStatus := by
  intro dt p s u x hu hx
  subst hu
  refine ⟨fun y v hv hfec hexists henable hfecv hdown hlink hgate => ?_, ?_, fun speed hsgmii hlink hlo hhi => ⟨?_, fun v hv => ?_⟩⟩
  · have hnoFault : b2n ((s.advance dt).portExists p && !(s.advance dt).fecOk p) = 0 := by simp [hfec, b2n]
    have htry := tryUp_of_ready (u := { s.advance dt with ports := sset (s.advance dt).ports p { x with peer := some y } })
      (x := { x with peer := some y }) (y := y) (v := v) (sget_sset_self _ _ _ _) rfl
      (hv.trans (by rw [← hnoFault]; rfl)) hlink hexists henable hfecv hdown hgate
    have hexec : exec (.linkUp dt p y.speed y.toPeerMode) s =
        .next (State.settle (State.tryUp { s.advance dt with ports := sset (s.advance dt).ports p { x with peer := some y } } p)) := by
      rw [hx]
      rfl
    rw [hexec, htry]
    refine ⟨fun hmatch hfull => ?_, fun hmatch hhalf => ?_, fun hdiffers => ?_⟩
    · simp only [hmatch, hfull, Bool.not_true, Bool.false_eq_true, if_false]
    · simp only [hmatch, hhalf, Bool.not_true, Bool.false_eq_true, if_false, if_true]
    · simp only [hdiffers, Bool.not_false, if_true]
  · rw [hx]
    rfl
  · exact execSgmiiSpeedChange_up (half := false) hx hsgmii hlink hlo hhi rfl
  · subst hv
    exact execSgmiiSpeedChange_up (half := true) hx hsgmii hlink hlo hhi rfl

/-! ## Flow control and low-power idle (R55, R56, R60, R62) -/

/-- A fold over the first numbers whose steps do nothing but at one of them. -/
theorem foldl_range_single {α : Type} (g : α → Nat → α) (a : α) {n m : Nat} (hn : n < m) (hskip : ∀ b j, j ≠ n → g b j = b) :
    (List.range m).foldl g a = g a n := by
  have hbefore : ∀ k, k ≤ n → (List.range k).foldl g a = a := by
    intro k hk
    induction k with
    | zero => rfl
    | succ k ih => rw [List.range_succ, List.foldl_append, ih (by omega), List.foldl_cons, List.foldl_nil, hskip _ _ (by omega)]
  induction m with
  | zero => omega
  | succ m ih =>
    rw [List.range_succ, List.foldl_append, List.foldl_cons, List.foldl_nil]
    by_cases h : n = m
    · rw [← h, hbefore n (Nat.le_refl n)]
    · rw [ih (by omega), hskip _ _ (Ne.symm h)]

theorem bit_two_pow (n j : Nat) : bit (2 ^ n) j = decide (n = j) := Nat.testBit_two_pow

/-- A PFC frame for one priority that is set on a lane port pauses it, or ends its pause (R55). -/
theorem pfcFrame_pauses {s : State} {p n q : Nat} (hn : n < 8) (hp : p < 32) (hset : bit (s.fld F.PORT_CFG.PFC_PRI p) n = true) (hrate : s.rate p ≠ 0) :
    s.pfcFrame p (2 ^ n) (List.replicate n 0 ++ [q]) = { s.bump .RX_PFC (p * 8 + n) with
      pfcPause := if q = 0 then sdel s.pfcPause (p * 8 + n) else sset s.pfcPause (p * 8 + n) (s.now + cdiv (q * 512000) (s.rate p)) } := by
  have hnone : ((List.range 8).any fun j => bit (2 ^ n) j && !(decide (p < 32) && bit (s.fld F.PORT_CFG.PFC_PRI p) j)) = false := by
    rw [List.any_eq_false]
    intro j _
    rw [bit_two_pow]
    by_cases h : n = j
    · simp [← h, hp, hset]
    · simp [h]
  have hlane : ¬ (decide (p ≥ 32) || (List.range 8).any fun j => bit (2 ^ n) j && !(decide (p < 32) && bit (s.fld F.PORT_CFG.PFC_PRI p) j)) = true := by
    rw [hnone]
    simp [hp]
  unfold State.pfcFrame
  dsimp only
  rw [if_neg hlane, foldl_range_single _ _ hn]
  · have hquanta : (List.replicate n 0 ++ [q]).getD n 0 = q := by simp
    have hrate' : (s.bump .RX_PFC (p * 8 + n)).rate p = s.rate p := rfl
    simp only [bit_two_pow, hp, hset, hquanta, decide_true, Bool.not_true, Bool.and_self, Bool.or_self, Bool.false_eq_true, if_false, hrate', hrate, decide_false,
      Bool.or_false, decide_eq_true_eq]
    split <;> rfl
  · intro b j hj
    simp [bit_two_pow, Ne.symm hj]

/-- One for a priority that is not set, or on P32 to P39, counts once as ignored (R56). -/
theorem pfcFrame_ignored {s : State} {p n : Nat} {l : List Nat} (hn : n < 8) (h : 32 ≤ p ∨ bit (s.fld F.PORT_CFG.PFC_PRI p) n = false) :
    s.pfcFrame p (2 ^ n) l = s.bump .RX_PFC_IGNORED p := by
  have hoff : (decide (p < 32) && bit (s.fld F.PORT_CFG.PFC_PRI p) n) = false := by
    rcases h with h | h <;> simp [h]
  have hcount : (decide (p ≥ 32) || (List.range 8).any fun j => bit (2 ^ n) j && !(decide (p < 32) && bit (s.fld F.PORT_CFG.PFC_PRI p) j)) = true := by
    rw [Bool.or_eq_true, List.any_eq_true]
    exact .inr ⟨n, List.mem_range.mpr hn, by rw [hoff]; simp [bit_two_pow]⟩
  unfold State.pfcFrame
  dsimp only
  rw [if_pos hcount, foldl_range_single _ _ hn]
  · simp only [hoff, Bool.not_false, Bool.or_true, if_true]
  · intro b j hj
    simp [bit_two_pow, Ne.symm hj]

/-- Settles O11 (R55, R56, R60, R62). -/
theorem flowControlAndLowPowerIdle : Obligations.FlowControlAndLowPowerIdle := by
  intro dt s u hu
  subst hu
  refine ⟨?pfc, ?dead, ?expiry, ?entry, ?signal, ?symbol⟩
  case pfc =>
    intro p n q v halive hv
    have hmask : (BitVec.ofNat 8 (2 ^ n.val)).toNat = 2 ^ n.val := by
      rw [BitVec.toNat_ofNat]
      exact Nat.mod_eq_of_lt (Nat.pow_lt_pow_right (by decide) n.isLt)
    have hexec : exec (.pfcReceived dt p (BitVec.ofNat 8 (2 ^ n.val)) (List.replicate n.val 0 ++ [q])) s =
        .next (State.settle (v.pfcFrame p (2 ^ n.val) (List.replicate n.val 0 ++ [q.toNat]))) := by
      show execPfcReceived dt p _ _ s = _
      have hquanta : ((List.replicate n.val (0 : BitVec 16)) ++ [q]).map (·.toNat) = List.replicate n.val 0 ++ [q.toNat] := by simp
      simp only [execPfcReceived, halive, hmask, hquanta, ← hv, Bool.not_true, Bool.false_eq_true, if_false, finish_eq]
    refine ⟨fun hp hset hrate => ?_, fun hoff => ?_⟩
    · rw [hexec, pfcFrame_pauses n.isLt hp (by rw [hv]; exact hset) (by rw [hv]; exact hrate)]
      have hzero : q.toNat = 0 ↔ q = 0 := by
        rw [← BitVec.toNat_inj]
        rfl
      simp only [hzero]
      rw [hv]
      rfl
    · rw [hexec, pfcFrame_ignored n.isLt (by rw [hv]; exact hoff)]
  case dead =>
    intro p m q hdead
    show execPfcReceived dt p m q s = _
    simp only [execPfcReceived, hdead, Bool.not_false, if_true, finish_eq]
  case expiry =>
    intro p n t hpause hdue
    show execPfcPauseExpiry dt p n s = _
    simp only [execPfcPauseExpiry, hpause, ge_iff_le, if_pos hdue, finish_eq]
  case entry =>
    intro p x hx hok hawake htx hidle
    show execLpiEntry dt p s = _
    simp only [execLpiEntry, ← hx, hok, hawake, htx, Option.isSome_none, Nat.not_lt.mpr hidle, decide_false, Bool.not_true, Bool.or_self, 
      Bool.false_eq_true, if_false, finish_eq]
    rfl
  case signal =>
    intro p on heee
    show execPeerLpiSignal dt p on s = _
    simp only [execPeerLpiSignal, heee, Bool.true_or, if_true, finish_eq]
  case symbol =>
    intro p heee
    show execPeerLpiSignal dt p true s = _
    simp only [execPeerLpiSignal, heee, Bool.not_true, Bool.or_self, Bool.false_eq_true, if_false, finish_eq]

end Sys2Proof.Proofs.PortEvents
end

section
/-! The release of frames into lookup and the verdicts on them (chapters 04, 06, 07, 10 and 15). -/
namespace Sys2Proof.Proofs.LookupRelease
open Sys2Proof Sys2Proof.Machine Sys2Proof.Safety

/-! ## The earliest frame of a port (R77, R142, R143, R239) -/

section ReleasePort
variable {v : State} {p fid : Nat} {f : Frame}

/-- A frame that need not wait for search slots. -/
theorem releasePort_of_free (hnext : v.nextRelease p = some (fid, f))
    (hfree : f.fwd = false ∨ searches f = 0 ∨ v.slotsUsed f.pl < v.searchBudget ∧ v.behind p f.pl f.disp = false) :
    v.releasePort p = (State.releaseFrame { v with lookQ := del v.lookQ p } fid f).releaseHeld f.pl := by
  have hgoes : ¬ (f.fwd && decide (searches f > 0) && (decide (v.slotsUsed f.pl ≥ v.searchBudget) || v.behind p f.pl f.disp)) = true := by
    rcases hfree with h | h | ⟨h, hb⟩
    · simp [h]
    · simp [h]
    · simp [hb, h]
  simp only [State.releasePort, hnext, if_neg hgoes]

/-- A search past the window's budget, or behind one that waits, waits. -/
theorem releasePort_waits (hnext : v.nextRelease p = some (fid, f)) (hfwd : f.fwd = true) (hsearch : 0 < searches f)
    (hlate : v.searchBudget ≤ v.slotsUsed f.pl ∨ v.behind p f.pl f.disp = true) : v.releasePort p = { v with lookQ := ins v.lookQ p } := by
  have hwaits : (f.fwd && decide (searches f > 0) && (decide (v.slotsUsed f.pl ≥ v.searchBudget) || v.behind p f.pl f.disp)) = true := by
    rcases hlate with h | h <;> simp [hfwd, hsearch, h]
  simp only [State.releasePort, hnext, if_pos hwaits]

/-- A frame found bad ends. -/
theorem releaseFrame_bad (hbad : f.lateBad = true ∨ f.overrun = true ∨ f.aborted.isSome = true) : v.releaseFrame fid f = v.endFrame fid := by
  have h : (f.aborted.isSome || f.overrun || f.lateBad) = true := by rcases hbad with h | h | h <;> simp [h]
  simp only [State.releaseFrame, if_pos h]

/-- A good frame that is not forwarded goes to the slow path. -/
theorem releaseFrame_slow (ha : f.aborted = none) (ho : f.overrun = false) (hl : f.lateBad = false) (hfwd : f.fwd = false) :
    v.releaseFrame fid f = v.admitFrame fid f f.resOf [slowCopy fid f f.resOf (slowSource f.outcome) f.reason v.frc] := by
  have h : ¬ (f.aborted.isSome || f.overrun || f.lateBad) = true := by simp [ha, ho, hl]
  have hslow : (!f.fwd) = true := by simp [hfwd]
  simp only [State.releaseFrame, if_neg h, if_pos hslow]

/-- One that is forwarded is looked up. -/
theorem releaseFrame_lookup (ha : f.aborted = none) (ho : f.overrun = false) (hl : f.lateBad = false) (hfwd : f.fwd = true) :
    v.releaseFrame fid f = v.lookupFrame fid f := by
  have h : ¬ (f.aborted.isSome || f.overrun || f.lateBad) = true := by simp [ha, ho, hl]
  have hslow : ¬ (!f.fwd) = true := by simp [hfwd]
  simp only [State.releaseFrame, if_neg h, if_neg hslow]

end ReleasePort

/-! ## Releases of one cycle (R333) -/

/-- The pipeline of the frame a port may release next; 4 where it has none. -/
def releasePl (u : State) (p : Nat) : Nat := ((u.nextRelease p).map fun x => x.2.pl).getD 4

theorem releasePl_of_next {u : State} {p fid : Nat} {f : Frame} (h : u.nextRelease p = some (fid, f)) : releasePl u p = f.pl := by
  rw [releasePl, h]
  rfl

theorem releasePl_of_map {u : State} {p a : Nat} (h : (u.nextRelease p).map (·.2.pl) = some a) : releasePl u p = a := by
  rw [releasePl, h, Option.getD_some]

/-- The ports of a cycle's releases that release into a pipeline. -/
def releasePorts (u : State) (ports : List (Fin 44)) (pl : Nat) : List (Fin 44) :=
  (List.finRange 44).filter fun p => ports.contains p && releasePl u p == pl

/-- What one pipeline does in a cycle. -/
def plReleases (u : State) (ports : List (Fin 44)) (cb : Nat) (s : State) (pl : Nat) : State :=
  (releasePorts u ports pl).foldl (fun s (p : Fin 44) => s.releaseOf cb pl p) s

theorem execLookupRelease_eq (dt cb : Nat) (ports : List (Fin 44)) (s : State) :
    execLookupRelease dt { ports := ports, capBad := cb } s =
      .next (State.settle ((List.range 4).foldl (plReleases (s.advance dt) ports cb) (s.advance dt))) := by
  simp only [execLookupRelease, List.foldl_map, finish_eq]
  rfl

/-- A filter of every port that keeps exactly one. -/
theorem filter_finRange_single {n : Nat} {P : Fin n → Bool} {p : Fin n} (h : ∀ q, P q = decide (p = q)) : (List.finRange n).filter P = [p] := by
  have hP : P = fun q => decide (q = p) := funext fun q => by rw [h q, decide_eq_decide, eq_comm]
  rw [hP, List.filter_eq, List.count_eq_one_of_mem (List.nodup_finRange n) (List.mem_finRange p), List.replicate_one]

theorem plReleases_none {u s : State} {ports : List (Fin 44)} {cb pl : Nat} (h : ∀ p ∈ ports, releasePl u p ≠ pl) :
    plReleases u ports cb s pl = s := by
  have hnone : releasePorts u ports pl = [] := by
    rw [releasePorts, List.filter_eq_nil_iff]
    intro q _ hq
    simp only [Bool.and_eq_true, List.contains_iff_mem, beq_iff_eq] at hq
    exact h q hq.1 hq.2
  rw [plReleases, hnone, List.foldl_nil]

theorem plReleases_one {u s : State} {ports : List (Fin 44)} {cb pl : Nat} {p : Fin 44} (hp : p ∈ ports) (hpl : releasePl u p = pl)
    (hothers : ∀ q ∈ ports, releasePl u q = pl → q = p) : plReleases u ports cb s pl = s.releaseOf cb pl p := by
  have hone : releasePorts u ports pl = [p] := by
    refine filter_finRange_single fun q => ?_
    rw [Bool.eq_iff_iff]
    simp only [Bool.and_eq_true, List.contains_iff_mem, beq_iff_eq, decide_eq_true_eq]
    exact ⟨fun hq => (hothers q hq.1 hq.2).symm, fun hq => hq ▸ ⟨hp, hpl⟩⟩
  rw [plReleases, hone, List.foldl_cons, List.foldl_nil]

/-- One release into pipeline `pl`. -/
theorem releases_single {u : State} {cb pl : Nat} {p : Fin 44} (hpl : releasePl u p = pl) (hlt : pl < 4) :
    (List.range 4).foldl (plReleases u [p] cb) u = u.releaseOf cb pl p := by
  have hstep : ∀ s j, plReleases u [p] cb s j = if j = pl then s.releaseOf cb pl p else s := by
    intro s j
    split
    · next h =>
      subst h
      exact plReleases_one (List.mem_singleton_self p) hpl (fun q hq _ => List.mem_singleton.mp hq)
    · next h => exact plReleases_none (fun q hq hj => h (by rw [List.mem_singleton.mp hq] at hj; exact hj.symm.trans hpl))
  have hrange : List.range 4 = [0, 1, 2, 3] := rfl
  rw [hrange]
  simp only [List.foldl_cons, List.foldl_nil, hstep]
  interval_cases pl <;> simp

/-- Two releases into pipelines a < b: that of the lower pipeline comes first. -/
theorem releases_pair {u : State} {cb a b : Nat} {p q : Fin 44} (hp : releasePl u p = a) (hq : releasePl u q = b) (hab : a < b) (hb : b < 4) :
    (List.range 4).foldl (plReleases u [q, p] cb) u = (u.releaseOf cb a p).releaseOf cb b q := by
  have hne : ∀ x ∈ [q, p], x = q ∧ releasePl u x = b ∨ x = p ∧ releasePl u x = a := by
    intro x hx
    rcases List.mem_cons.mp hx with rfl | hx
    · exact .inl ⟨rfl, hq⟩
    · rw [List.mem_singleton] at hx
      subst hx
      exact .inr ⟨rfl, hp⟩
  have hstep : ∀ s j, plReleases u [q, p] cb s j = if j = a then s.releaseOf cb a p else if j = b then s.releaseOf cb b q else s := by
    intro s j
    split
    · next h =>
      subst h
      refine plReleases_one (by simp) hp fun x hx hj => ?_
      rcases hne x hx with ⟨_, h⟩ | ⟨h, _⟩
      · omega
      · exact h
    · split
      · next ha h =>
        subst h
        refine plReleases_one (by simp) hq fun x hx hj => ?_
        rcases hne x hx with ⟨h, _⟩ | ⟨_, h⟩
        · exact h
        · omega
      · next ha hb' =>
        refine plReleases_none fun x hx hj => ?_
        rcases hne x hx with ⟨_, h⟩ | ⟨_, h⟩ <;> omega
  have hrange : List.range 4 = [0, 1, 2, 3] := rfl
  rw [hrange]
  simp only [List.foldl_cons, List.foldl_nil, hstep]
  interval_cases b <;> interval_cases a <;> simp

/-- Settles O12 (R77, R142, R143, R235, R239, R333, R436): a cycle of releases is the pipelines' in their order, and a port's release is one of
four cases. -/
theorem framesAreReleasedInOrder : Obligations.FramesAreReleasedInOrder := by
  intro dt s u hu
  subst hu
  refine ⟨?port, ?cycle, ?window⟩
  case port =>
    intro p fid cb f g v hnext hpl hf hv hvnext
    have hexec : exec (.lookupRelease dt { ports := [p], capBad := cb }) s = .next (v.releasePort p).settle := by
      show execLookupRelease dt _ s = _
      rw [execLookupRelease_eq, releases_single (releasePl_of_next hnext) hpl]
      simp only [State.releaseOf, hnext, ne_eq, not_true, if_false, ← hv]
    refine ⟨fun hfwd ha ho hl => ?_, fun hbad hgo => ?_, fun hfwd hsearch hlate => ?_, fun hfwd ha ho hl hgo => ?_⟩
    · rw [hexec, releasePort_of_free hvnext (.inl hfwd), releaseFrame_slow ha ho hl hfwd]
      rfl
    · rw [hexec, releasePort_of_free hvnext (hgo.elim (fun h => .inr (.inl h)) .inl), releaseFrame_bad hbad]
    · rw [hexec, releasePort_waits hvnext hfwd hsearch hlate]
    · rw [hexec, releasePort_of_free hvnext (.inr hgo), releaseFrame_lookup ha ho hl hfwd]
  case cycle =>
    intro p q cb a b hp hq hab hb
    show execLookupRelease dt _ s = _
    rw [execLookupRelease_eq, releases_pair (releasePl_of_map hp) (releasePl_of_map hq) hab hb]
  case window =>
    intro pl p hq hslots hport
    show execTcamWindowStart dt pl s = _
    simp only [execTcamWindowStart, hq, List.length_singleton, State.releaseWaiting, ge_iff_le, if_neg (Nat.not_le.mpr hslots), hport, finish_eq]

/-! ## Verdicts (R296 to R299, R638) -/

section Verdict
variable {u : State} {x : Frame} {q : AuthReq} {keys : List GKey} {alg : Nat}

/-- A frame that must be signed and is not. -/
theorem verdict_missing (h : u.authNeed x = 2) : u.verdict x = (some 3, u) := by
  simp only [State.verdict, h, if_true]

/-- No key qualifies. -/
theorem verdict_noKey (h : u.authNeed x ≠ 2) (hq : q = x.auth.getD (u.authAsk x).1) (hkeys : q.keys = []) : u.verdict x = (some 0, u) := by
  simp only [State.verdict, if_neg h, ← hq, hkeys, List.isEmpty_nil, if_true]

/-- What is left once a key qualifies. -/
theorem verdict_keyed (h : u.authNeed x ≠ 2) (halg : alg = bits (sget x.fields 0 8) 5 3) (hq : q = x.auth.getD (u.authAsk x).1)
    (hkeys : keys = q.keys.filter (fun k => k.alg == alg)) (hsome : q.keys ≠ []) :
    u.verdict x = if macLen alg = 0 || keys.isEmpty then (some 1, u)
      else if q.overload then (if u.flag F.AUTH_VCFG.OVERLOAD x.port then (none, u.bump .AUTH_PASS_OVERLOAD x.port) else (some 2, u))
      else if !x.authNamed then (if u.fresh.1 % 2 = 1 then some 2 else none, u.fresh.2)
      else (if keys.any fun k => x.valueOk alg k.key then none else some 2, u) := by
  have hne : ¬ q.keys.isEmpty = true := by simpa using hsome
  simp only [State.verdict, if_neg h, ← hq, ← halg, ← hkeys, if_neg hne]

end Verdict

/-- What a verdict does with its frame: with no resolution only the side records await it. -/
def verdictActs (t : State) (f : Nat) (x : Frame) (c : Option Nat) : State :=
  match x.res with
  | none => t.dropVerdict f x c
  | some r => match c with
    | none => (t.sideVerdict f true false).toAdmission f x r
    | some c => t.authFailed f x r c

/-- AUTH_VERDICT of a frame that waits for it, its tail in. -/
theorem execAuthVerdict_acts {dt f cb : Nat} {pl : Fin 4} {s : State} {y : Frame} (hy : sfind (s.advance dt).frames f = some y)
    (hpl : y.pl = pl.val) (hphase : y.phase = .verdict) (htail : y.tail = true) {c : Option Nat} {t : State}
    (hverdict : ((s.advance dt).modFrame f (fun x => { x with capBad := cb })).verdict { y with capBad := cb } = (c, t)) :
    execAuthVerdict dt pl f cb s = .next (State.settle (State.releaseHeld (verdictActs t f { y with capBad := cb } c) y.pl)) := by
  have hwaits : ¬ (decide (y.pl ≠ pl.val) || decide (y.phase ≠ .verdict) || !y.tail) = true := by simp [hpl, hphase, htail]
  simp only [execAuthVerdict, hy, if_neg hwaits, hverdict, finish_eq, verdictActs]
  cases y.res <;> cases c <;> rfl

/-- Settles O13 (R296 to R299, R638): AUTH_VERDICT acts on the verdict, and each clause is one of its cases. -/
theorem verdictsDecideAuthentication : Obligations.VerdictsDecideAuthentication := by
  intro dt f cb pl s v u y x q keys alg hv hy hu hx hpl hphase htail halg hq hkeys ends
  subst hv
  have hends : ∀ c t, u.verdict x = (c, t) → ends t c := by
    intro c t hverdict
    rw [hu, hx] at hverdict
    have hexec := execAuthVerdict_acts hy (by rw [← hpl, hx]) (by rw [← hphase, hx]) (by rw [← htail, hx]) hverdict
    show execAuthVerdict dt pl f cb s = _
    rw [hexec, ← hx, verdictActs]
    have hpl' : y.pl = x.pl := by rw [hx]
    rw [hpl']
    cases x.res <;> cases c <;> rfl
  refine ⟨fun hmissing => ?_, fun h hnone => ?_, fun h hsome hno => ?_, fun h hlen hsome => ?_⟩
  · exact hends _ _ (verdict_missing hmissing)
  · exact hends _ _ (verdict_noKey h hq hnone)
  · refine hends _ _ ((verdict_keyed h halg hq hkeys hsome).trans (if_pos ?_))
    rcases hno with h | h <;> simp [h]
  · have hqual : ¬ (decide (macLen alg = 0) || keys.isEmpty) = true := by simp [hlen, hsome]
    have hany : q.keys ≠ [] := fun h => hsome (by rw [hkeys, h, List.filter_nil])
    have hverdict := (verdict_keyed h halg hq hkeys hany).trans (if_neg hqual)
    refine ⟨fun hover hoff => ?_, fun hover hon => ?_, fun hover hnamed hgood => ?_, fun hover hnamed hbad => ?_, fun hover hunnamed => ?_⟩
    · refine hends _ _ (hverdict.trans ?_)
      simp only [hover, hoff, if_true, Bool.false_eq_true, if_false]
    · refine hends _ _ (hverdict.trans ?_)
      simp only [hover, hon, if_true]
    · refine hends _ _ (hverdict.trans ?_)
      simp only [hover, hnamed, hgood, if_true, Bool.not_true, Bool.false_eq_true, if_false]
    · refine hends _ _ (hverdict.trans ?_)
      simp only [hover, hnamed, hbad, Bool.not_true, Bool.false_eq_true, if_false]
    · refine hends _ _ (hverdict.trans ?_)
      simp only [hover, hunnamed, Bool.not_false, if_true, Bool.false_eq_true, if_false]

end Sys2Proof.Proofs.LookupRelease
end

section
/-! The tails of long frames and the comparison of a pair's lanes (chapters 04, 08 and 10). -/
namespace Sys2Proof.Proofs.FrameTails
open Sys2Proof Sys2Proof.Machine Sys2Proof.Safety

/-! ## The tail of a frame in the module (R72, R319, R849) -/

/-- The frame once its tail has arrived: its bytes without the FCS, nothing left to wait for. -/
def tailed (x : Frame) (all : Bytes) : Frame := { x with bytes := all.take (all.length - 4), tail := true, icv := none, count := [] }

/-- Its length as received is that of all its bytes and its SecTAG. -/
theorem tailed_len {x : Frame} {all : Bytes} (h : 4 ≤ all.length) : (tailed x all).len = all.length + x.off := by
  have hlen : (all.take (all.length - 4)).length + 4 = all.length := by
    rw [List.length_take]
    omega
  show (all.take (all.length - 4)).length + 4 + x.off = all.length + x.off
  rw [hlen]

section Tail
variable {dt f id : Nat} {more all : Bytes} {s w : State} {x : Frame}

/-- FRAME_TAIL of a good frame with a buffer: past MAX_FRAME it is aborted. -/
theorem execFrameTail_tooLong (hx : sfind (s.advance dt).frames f = some x) (htail : x.tail = false) (ha : x.aborted = none)
    (hall : all = x.bytes ++ more) (hlen : 4 ≤ all.length)
    (hw : w = ((s.advance dt).countPairs x.count (all.length + x.off)).modFrame f (fun x => { x with count := [] }))
    (hmax : x.maxFrame < all.length + x.off) : execFrameTail dt f more s = .next (State.settle ((w.macAbort f .tooLong).endWaiting f)) := by
  have hcount : ¬ (decide (x.port < 40) && !x.aborted.isSome && decide (all.length + x.off ≤ x.maxFrame)) = true := by
    simp [Nat.not_le.mpr hmax]
  have hgood : ¬ x.aborted.isSome = true := by simp [ha]
  have hlen' := tailed_len (x := x) hlen
  rw [tailed] at hlen'
  simp only [execFrameTail, hx, if_neg (ne_true_of_eq_false htail), ← hall, hlen', ← hw, if_neg hcount, if_neg hgood, gt_iff_lt, if_pos hmax, finish_eq]

/-- Within MAX_FRAME it is counted; past its buffer it is an overrun, and otherwise its tail is there. -/
theorem execFrameTail_counted (hx : sfind (s.advance dt).frames f = some x) (htail : x.tail = false) (hbuf : x.buf = some id) (ha : x.aborted = none)
    (ho : x.overrun = false) (hicv : ¬ all.length ≤ poolSize (id / 262144) ∨ x.icv = none) (hall : all = x.bytes ++ more) (hlen : 4 ≤ all.length)
    (hw : w = ((s.advance dt).countPairs x.count (all.length + x.off)).modFrame f (fun x => { x with count := [] }))
    (hmax : all.length + x.off ≤ x.maxFrame) (hport : x.port < 40) {v : State}
    (hv : v = (w.bump .RX_FRAMES x.port).add .RX_OCTETS x.port (all.length + x.off)) :
    execFrameTail dt f more s = .next (State.settle (if poolSize (id / 262144) < all.length then v.overrunFrame f (tailed x all)
      else (State.seal { v with frames := sset v.frames f (tailed x all) } f).tailGood f (tailed x all))) := by
  have hcount : (decide (x.port < 40) && !x.aborted.isSome && decide (all.length + x.off ≤ x.maxFrame)) = true := by
    simp [hport, ha, hmax]
  have hgood : ¬ x.aborted.isSome = true := by simp [ha]
  have hlen' := tailed_len (x := x) hlen
  rw [tailed] at hlen'
  have hover : (x.buf.map fun id => decide ((all.take (all.length - 4)).length + 4 > poolSize (id / 262144))).getD false =
      decide (poolSize (id / 262144) < all.length) := by
    have h : (all.take (all.length - 4)).length + 4 = all.length := by
      rw [List.length_take]
      omega
    rw [hbuf, Option.map_some, Option.getD_some, h]
  simp only [execFrameTail, hx, if_neg (ne_true_of_eq_false htail), ← hall, hlen', ← hw, if_pos hcount, ← hv, if_neg hgood, gt_iff_lt,
    if_neg (Nat.not_lt.mpr hmax), if_neg (ne_true_of_eq_false ho), hover, decide_eq_true_eq, finish_eq]
  split
  · rfl
  · next hfits =>
    have hnoIcv : ¬ x.icv.isSome = true := by
      rcases hicv with h | h
      · exact absurd (Nat.not_lt.mp hfits) h
      · simp [h]
    rw [if_neg hnoIcv]
    rfl

end Tail

/-! ## The deferred length checks (R141, R142) -/

/-- A deferred check that fails on an admitted frame kills its copies. -/
theorem tailGood_late_admitted {u : State} {fid r : Nat} {f : Frame} (hlate : lateReason f.bytes.length f.maxE f.exactE = some r)
    (hphase : f.phase = .admitted) :
    u.tailGood fid f = (State.lateCount { u.overBudget f with frames := sset (u.overBudget f).frames fid f } f.pl r).killCopies fid := by
  have hended : (f.ended || u.parked f) = true := by simp [Frame.ended, hphase]
  have hnoAuth : ¬ ((f.ended || (u.overBudget f).parked f) && decide (f.phase ≠ .admitted)) = true := by simp [hphase]
  unfold State.tailGood
  simp only [if_pos hended, if_neg hnoAuth, hlate]
  split
  · rfl
  all_goals simp_all

/-- One that fails on a frame past its END and not yet admitted marks it. -/
theorem tailGood_late_ended {u : State} {fid r : Nat} {f g : Frame} {v : State} (hf : f.phase = .ended) (hauth : (u.overBudget f).authStart f = (g, v))
    (hg : g.phase = .ended) (hlate : lateReason g.bytes.length g.maxE g.exactE = some r) :
    u.tailGood fid f = (State.lateCount { v with frames := sset v.frames fid g } g.pl r).modFrame fid fun f => { f with lateBad := true } := by
  have hended : (f.ended || u.parked f) = true := by simp [Frame.ended, hf]
  have hasks : ((f.ended || (u.overBudget f).parked f) && decide (f.phase ≠ .admitted)) = true := by simp [Frame.ended, hf]
  unfold State.tailGood
  simp only [if_pos hended, if_pos hasks, hauth, hlate]
  split
  · simp_all
  · rfl
  all_goals simp_all

/-- A frame that left before its tail is counted at the tail, with its deferred checks. -/
theorem lostTail_late {u w : State} {f n l r : Nat} {t : Tail} (hl : l = t.len + n + t.off) (hmax : l ≤ t.maxFrame) (hport : t.port < 40)
    (hbudget : t.icnt ≤ budget l) (hparsed : t.parsed = true) (hlate : lateReason (t.len + n - 4) t.maxE t.exactE = some r)
    (hw : w = ((State.countPairs { u with tails := sdel u.tails f } t.count l).bump .RX_FRAMES t.port).add .RX_OCTETS t.port l) :
    u.lostTail f t n = w.lateCount t.pl r := by
  unfold State.lostTail
  simp only [← hl, gt_iff_lt, if_neg (Nat.not_lt.mpr hmax), if_pos hport, if_neg (Nat.not_lt.mpr hbudget), hlate, if_pos hparsed, ← hw]

/-! ## The lane comparator (R426 to R428) -/

/-- Lanes that differ: counted, both lanes' status set, the pair's interrupt and event line raised. -/
def diverged (v : State) (k : Nat) : State :=
  ((State.setReg (v.bump .PRED_DIVERGE k) .PRED_LANE_STAT k 0 ((v.bump .PRED_DIVERGE k).reg .PRED_LANE_STAT k 0 ||| 3)).irqSignal (168 + k) true).evtLine
    k true

section Compare
variable {dt i : Nat} {pl : Fin 4} {s v : State} {c : Cmp}

theorem execCmpResolve_single (hc : (sget (s.advance dt).cmp [] pl)[i]? = some c)
    (hv : v = { s.advance dt with cmp := sput (s.advance dt).cmp [] pl ((sget (s.advance dt).cmp [] pl).eraseIdx i) })
    (hsecond : c.second = none) (hdue : c.at_ + 1000 * max 1 ((s.advance dt).fld F.PRED_PAIR.CMP_WAIT_US c.pair) ≤ (s.advance dt).now) :
    execCmpResolve dt pl i s = .next (State.settle (v.bump .PRED_CMP_SINGLE (c.pair * 2 + c.lane))) := by
  simp only [execCmpResolve, hc, hsecond, if_neg (Nat.not_lt.mpr hdue), ← hv, finish_eq]

theorem execCmpResolve_match (hc : (sget (s.advance dt).cmp [] pl)[i]? = some c)
    (hv : v = { s.advance dt with cmp := sput (s.advance dt).cmp [] pl ((sget (s.advance dt).cmp [] pl).eraseIdx i) })
    (hsecond : c.second = some c.digest) :
    execCmpResolve dt pl i s = .next (State.settle ((v.unhold (c.frame2.getD 0)).bump .PRED_CMP_MATCH c.pair)) := by
  simp only [execCmpResolve, hc, hsecond, if_true, ← hv, finish_eq]

theorem execCmpResolve_diverged_unheld (hc : (sget (s.advance dt).cmp [] pl)[i]? = some c)
    (hv : v = { s.advance dt with cmp := sput (s.advance dt).cmp [] pl ((sget (s.advance dt).cmp [] pl).eraseIdx i) })
    {d : Nat} (hsecond : c.second = some d) (hdiff : d ≠ c.digest) (hheld : c.frame2 = none) :
    execCmpResolve dt pl i s = .next (State.settle (diverged v c.pair)) := by
  simp only [execCmpResolve, hc, hsecond, if_neg hdiff, ← hv, hheld, Option.bind_none, Option.isSome_none, Bool.false_eq_true, if_false, finish_eq]
  rfl

theorem execCmpResolve_diverged_held (hc : (sget (s.advance dt).cmp [] pl)[i]? = some c)
    (hv : v = { s.advance dt with cmp := sput (s.advance dt).cmp [] pl ((sget (s.advance dt).cmp [] pl).eraseIdx i) })
    {d x : Nat} {f : Frame} (hsecond : c.second = some d) (hdiff : d ≠ c.digest) (hheld : c.frame2 = some x)
    (hf : sfind (s.advance dt).frames x = some f) (hw : sfind (diverged v c.pair).frames x = some f) :
    execCmpResolve dt pl i s = .next (State.settle (if (diverged v c.pair).flag F.PRED_LANE_STAT.DIV_COPY c.pair then
      ((diverged v c.pair).addCopy x f { slowCopy x f f.resOf 0 4 (diverged v c.pair).frc with meta7 := some c.digest }).unhold x
      else (diverged v c.pair).unhold x)) := by
  rw [diverged] at hw ⊢
  simp only [execCmpResolve, hc, hsecond, if_neg hdiff, ← hv, hheld, Option.bind_some, hf, Option.isSome_some, if_true, Option.getD_some, hw,
    finish_eq]
  cases State.flag _ F.PRED_LANE_STAT.DIV_COPY c.pair <;> rfl

end Compare

/-- Settles O14 (R141, R142, R319, R426 to R428, R849). -/
theorem tailsEndLongFrames : Obligations.TailsEndLongFrames := by
  refine ⟨⟨?tail, ?gone⟩, ⟨?admitted, ?ended, ?left⟩, ?compare⟩
  case tail =>
    intro dt f id more all s u w x y hu hx htail hbuf ha ho hall hlen hy hw
    subst hu hy
    refine ⟨execFrameTail_tooLong hx htail ha hall hlen hw, fun v hmax hport hv => ⟨fun hpast => ?_, fun hfits hicv => ?_⟩⟩
    · have hexec := execFrameTail_counted hx htail hbuf ha ho (.inl (Nat.not_le.mpr hpast)) hall hlen hw hmax hport hv
      rwa [if_pos hpast] at hexec
    · have hexec := execFrameTail_counted hx htail hbuf ha ho (.inr hicv) hall hlen hw hmax hport hv
      rwa [if_neg (Nat.not_lt.mpr hfits)] at hexec
  case gone =>
    intro dt f more s u t hu hnone ht
    subst hu
    show execFrameTail dt f more s = _
    simp only [execFrameTail, hnone, ht, finish_eq]
  case admitted =>
    intro u v w fid r f hlate hv hw hphase _
    subst hv hw
    exact tailGood_late_admitted hlate hphase
  case ended =>
    intro u v w fid r f g hf hlate hauth hg hbytes hw
    subst hw
    exact tailGood_late_ended hf hauth.symm hg (hbytes ▸ hlate)
  case left =>
    intro u w f n l r t hl hmax hport hbudget hparsed hlate hw
    exact lostTail_late hl hmax hport hbudget hparsed hlate hw
  case compare =>
    intro dt i pl s u v c hu hc hv
    subst hu
    refine ⟨execCmpResolve_single hc hv, execCmpResolve_match hc hv, fun d w hsecond hdiff hheld hw => ?_,
      fun d w x f cp hsecond hdiff hheld hf hw hwf hcp => ?_⟩
    · subst hw
      exact execCmpResolve_diverged_unheld hc hv hsecond hdiff hheld
    · subst hw hcp
      exact execCmpResolve_diverged_held hc hv hsecond hdiff hheld hf hwf

end Sys2Proof.Proofs.FrameTails
end

section
/-! Learn requests and flushes (chapter 05). -/
namespace Sys2Proof.Proofs.LearningAndFlushing
open Sys2Proof Sys2Proof.Machine Sys2Proof.Safety

section Window
variable {dt : Nat} {s : State} {h : Learn}

/-- A request of a table that is being rehashed waits. -/
theorem execLearnWindow_rehash (hq : (s.advance dt).learnQ = [h]) (hbusy : (s.advance dt).flag F.EXM_LTBL_CTL.REHASH_BUSY h.table = true) :
    execLearnWindow dt s = .next (s.advance dt).settle := by
  simp [execLearnWindow, hq, hbusy, finish_eq]

/-- The one request of the queue is taken; its port being flushed, it is discarded and counted. -/
theorem execLearnWindow_flushed (hq : (s.advance dt).learnQ = [h]) (hidle : (s.advance dt).flag F.EXM_LTBL_CTL.REHASH_BUSY h.table = false)
    (hdrop : h.drop = false) (hflush : ((s.advance dt).flushQ.any fun f => f.gport == h.gport) = true) (hkind : (s.advance dt).kindOf h.table = 1)
    (hhost : (s.advance dt).hostPending h.table h.key = false) :
    execLearnWindow dt s = .next (State.settle (State.add { s.advance dt with learnQ := [] } .LEARN_FLUSH_DISCARD 0 1)) := by
  have hflushing : State.flushing { s.advance dt with learnQ := [] } h = true := by
    show (!h.drop && (s.advance dt).flushQ.any fun f => f.gport == h.gport) = true
    rw [hdrop, hflush]
    rfl
  have hkind' : State.kindOf (State.add { s.advance dt with learnQ := [] } .LEARN_FLUSH_DISCARD 0 1) h.table = 1 := hkind
  have hhost' : State.hostPending (State.add { s.advance dt with learnQ := [] } .LEARN_FLUSH_DISCARD 0 1) h.table h.key = false := hhost
  have hgone : State.flushing (State.add { s.advance dt with learnQ := [] } .LEARN_FLUSH_DISCARD 0 1) h = true := hflushing
  simp only [execLearnWindow, hq, List.find?_cons, hidle, Bool.not_false, List.filter_cons, List.filter_nil, beq_self_eq_true, Bool.and_self, if_true,
    Bool.not_true, Bool.false_eq_true, if_false, hflushing, List.length_singleton, hgone, hkind', ne_eq, not_true, hhost', List.foldl_nil, finish_eq]

/-- With no flush under way the request is kept, and nothing is counted as discarded. -/
theorem execLearnWindow_kept {v : State} (hq : (s.advance dt).learnQ = [h]) (hidle : (s.advance dt).flag F.EXM_LTBL_CTL.REHASH_BUSY h.table = false)
    (hflush : (s.advance dt).flushQ = []) (hkind : (s.advance dt).kindOf h.table = 1)
    (hv : v = State.add { s.advance dt with learnQ := [] } .LEARN_FLUSH_DISCARD 0 0) :
    execLearnWindow dt s =
      if (s.advance dt).hostPending h.table h.key then
        .next (State.settle ((v.add .LEARN_HOST_PENDING 0 ([h].filter fun r => !r.notice).length).add .FAB_NOTICE_IGN 0 ([h].filter (·.notice)).length))
      else if h.drop then .next (v.learnDrop h).settle else .next (v.learnWin h 1).settle := by
  have hflushing : State.flushing { s.advance dt with learnQ := [] } h = false := by
    show (!h.drop && (s.advance dt).flushQ.any fun f => f.gport == h.gport) = false
    rw [hflush, List.any_nil, Bool.and_false]
  have hkept : v.flushing h = false := by
    rw [hv]
    exact hflushing
  have hkind' : v.kindOf h.table = 1 := by
    rw [hv]
    exact hkind
  have hhost : v.hostPending h.table h.key = (s.advance dt).hostPending h.table h.key := by
    rw [hv]
    rfl
  have hports : ([h.gport].foldl ins []).length = 1 := rfl
  simp only [execLearnWindow, hq, List.find?_cons, hidle, Bool.not_false, List.filter_cons, List.filter_nil, beq_self_eq_true, Bool.and_self, if_true,
    Bool.not_true, Bool.false_eq_true, if_false, hflushing, List.length_nil, ← hv, hkept, hkind', ne_eq, not_true, hhost, finish_eq]
  split
  · rfl
  · cases hdrop : h.drop
    · simp only [Bool.not_false, if_true, Bool.false_eq_true, if_false, List.foldl_nil, List.map_cons, List.map_nil, hports]
    · simp only [Bool.not_true, if_true, Bool.false_eq_true, if_false, List.foldl_cons, List.foldl_nil]

end Window

/-- A walk with one flush that nobody waits for retires what it hits (R207). -/
theorem execFlushWalk_single {dt : Nat} {s v : State} {f : Flush} (hq : (s.advance dt).flushQ = [f]) (hstaged : f.staged = false) (htell : f.tell = false)
    (hch : f.ch = none) (hv : v = (s.advance dt).flushLearns [f.gport]) :
    execFlushWalk dt s = .next (State.settle { v with
      flushQ := []
      exm := v.exm.map fun e => if State.flushHits { v with flushQ := [] } f e.2 then (e.1, { e.2 with retired := true, until_ := v.cur }) else e }) := by
  have hvq : v.flushQ = [f] := by
    rw [hv]
    exact hq
  simp only [execFlushWalk, hq, List.foldl_cons, List.foldl_nil, List.contains_nil, Bool.false_eq_true, if_false, List.nil_append, List.take_succ_cons,
    List.take_nil, List.filter_cons, List.filter_nil, List.contains_cons, beq_self_eq_true, Bool.true_or, if_true, ← hv, hvq, Bool.not_true,
    State.flushOne, hstaged, htell, hch, finish_eq]

/-- Settles O15 (R193, R194, R200, R207). -/
theorem learningAndFlushing : Obligations.LearningAndFlushing := by
  intro dt s u hu
  subst hu
  refine ⟨fun h hq hbusy => ?_, fun h hq hidle hdrop hflush hkind hhost => ?_, fun h v hq hidle hflush hkind hv => ⟨fun hhost hnotice => ?_,
    fun hhost hdrop => ?_⟩, fun f v hq hstaged htell hch hv => ?_⟩
  · exact execLearnWindow_rehash hq hbusy
  · exact execLearnWindow_flushed hq hidle hdrop hflush hkind hhost
  · show execLearnWindow dt s = _
    rw [execLearnWindow_kept hq hidle hflush hkind hv, if_pos hhost]
    simp [hnotice]
  · have hexec := execLearnWindow_kept hq hidle hflush hkind hv
    rwa [if_neg (ne_true_of_eq_false hhost), if_neg (ne_true_of_eq_false hdrop)] at hexec
  · exact execFlushWalk_single hq hstaged htell hch hv

end Sys2Proof.Proofs.LearningAndFlushing
end

section
/-! Scheduling, shapers and gates (chapter 09) and the timers of redundancy (chapter 10). -/
namespace Sys2Proof.Proofs.SchedulingAndTimers
open Sys2Proof Sys2Proof.Machine Sys2Proof.Safety

section Decision
variable {dt : Nat} {s v : State} {node : Fin 64} {bad : CopyReads} {l : List Act}

/-- In the safe state a decision drops the oldest queue's head. -/
theorem execSchedDecision_safe (hv : v = (s.advance dt).settleQueues) (hl : l = v.active node) (hsafe : v.flt.safe = true) :
    execSchedDecision dt node bad s = .next (v.dropHead l).settle := by
  subst hv hl
  simp only [execSchedDecision, if_pos hsafe, finish_eq]

/-- A node with no active queue, or one that is not ready, decides nothing. -/
theorem execSchedDecision_idle (hv : v = (s.advance dt).settleQueues) (hl : l = v.active node) (hsafe : v.flt.safe = false)
    (hidle : l = [] ∨ v.nodeReady node = false) : execSchedDecision dt node bad s = .next v.settle := by
  have hnone : (l.isEmpty || !v.nodeReady node) = true := by
    rcases hidle with rfl | hready
    · rfl
    · rw [hready, Bool.not_false, Bool.or_true]
  subst hv hl
  simp only [execSchedDecision, if_neg (ne_true_of_eq_false hsafe), if_pos hnone, finish_eq]

/-- A ready node refills its tree and takes the copy its tree picks, where it has tokens. -/
theorem execSchedDecision_picks {x0 x1 w : State} (hv : v = (s.advance dt).settleQueues) (hl : l = v.active node) (hsafe : v.flt.safe = false)
    (hne : l ≠ []) (hready : v.nodeReady node = true) (hx0 : x0 = if node < 44 && v.pairBad1 node then v.undefined .pair else v)
    (hx1 : x1 = if x0.strays node l then x0.undefined (if node < 44 then .tree else .strayQueue) else x0)
    (hw : w = l.foldl (fun x a => x.refill 3 a.q) (((l.map (·.g)).foldl ins []).foldl (fun x g => x.refill 2 g)
      (((l.map (·.c)).foldl ins []).foldl (fun x c => x.refill 1 c) (x1.refill 0 node)))) :
    execSchedDecision dt node bad s =
      if !w.tokensOk 0 node then .next w.settle else
      match w.pick node l with
      | (none, x) => .next x.settle
      | (some (a, dw), x) => .next (x.dequeue node bad.blocks bad.capBad a dw).settle := by
  have hsome : ¬ (l.isEmpty || !v.nodeReady node) = true := by
    cases l with
    | nil => exact absurd rfl hne
    | cons a l => simp [hready]
  subst hw hx1 hx0 hl hv
  simp only [execSchedDecision, if_neg (ne_true_of_eq_false hsafe), if_neg hsome, finish_eq] <;> rfl

end Decision

section Transmission
variable {dt : Nat} {s : State} {node : Fin 64} {t : Tx}

/-- The last byte of a copy counts it and lets its frame go. -/
theorem execCopyTxDone_last (htx : sfind (s.advance dt).tx node = some t) (hfail : t.fail = none) (hct : t.ct = false)
    (hdue : t.start + t.dur ≤ (s.advance dt).now) :
    execCopyTxDone dt node s = .next (State.settle (State.unref (State.txEnds
      { ((s.advance dt).bump .TX_FRAMES node).add .TX_OCTETS node t.len with
        tx := sdel (s.advance dt).tx node
        sent := (s.advance dt).sent ++ [Sent.mk node t.bytes true t.start (fcs t.bytes)] } node) t.copy.frame)) := by
  have hwait : ¬ (t.ct || decide ((s.advance dt).now < t.start + t.dur)) = true := by simp [hct, hdue]
  simp only [execCopyTxDone, htx, hfail, Option.any_none, Bool.false_eq_true, if_false, if_neg hwait, finish_eq]
  rfl

/-- A transmission that reaches a block that cannot be read ends there. -/
theorem execCopyTxDone_unreadable {n : Nat} (htx : sfind (s.advance dt).tx node = some t) (hfail : t.fail = some n)
    (hn : n < (s.advance dt).txBegun t) :
    execCopyTxDone dt node s = .next (State.settle ((s.advance dt).stompAt node (some .TX_STOMP) (some n))) := by
  simp only [execCopyTxDone, htx, hfail, Option.any_some, decide_eq_true_eq, gt_iff_lt, if_pos hn, finish_eq]

end Transmission

/-- Settles O18: the decision by its three cases, the ends of a transmission, and the sweep of the one queue. -/
theorem copiesAreScheduledAndSent : Obligations.CopiesAreScheduledAndSent := by
  unfold Obligations.CopiesAreScheduledAndSent
  intro dt s u hu
  subst hu
  refine ⟨?_, ?_, ?_⟩
  · intro node bad cb v x0 x1 w l hv hl goes
    have hgoes : ∀ t, execSchedDecision dt node { blocks := bad, capBad := cb } s = .next t.settle → goes t := fun _ h => h
    refine ⟨fun hsafe => ?_, fun hsafe hidle => ?_, fun hsafe hne hready hx0 hx1 hw => ?_⟩
    · exact hgoes _ (execSchedDecision_safe hv hl hsafe)
    · exact hgoes _ (execSchedDecision_idle hv hl hsafe hidle)
    · have hpicks := execSchedDecision_picks (bad := { blocks := bad, capBad := cb }) hv hl hsafe hne hready hx0 hx1 hw
      refine ⟨fun htok => hgoes _ ?_, fun htok => ⟨fun a dw x hpick => hgoes _ ?_, fun x hpick => hgoes _ ?_⟩⟩
      · rw [hpicks, htok]
        rfl
      · rw [hpicks, htok, hpick]
        rfl
      · rw [hpicks, htok, hpick]
        rfl
  · intro node t htx
    exact ⟨fun hfail hct hdue => execCopyTxDone_last htx hfail hct hdue, fun n hfail hn => execCopyTxDone_unreadable htx hfail hn⟩
  · intro q cp hq
    show execAgeSweep dt s = _
    simp only [execAgeSweep, hq, List.foldl_cons, List.foldl_nil, List.length_singleton, finish_eq]

/-- Whether a gate's cycle starts, by whether its list is enabled, follows the grid and has begun. -/
theorem cycleStart_eq {u v : State} {k : Nat} {x : Gate} (hv : v = u.pendDue k) (hx : x = sget v.gates {} k) (hready : u.ready 3 = true) :
    u.cycleStart k = if (!x.cyc.cfg.enable || !x.cyc.cfg.grid) = true then v.gateStat k
      else if (!x.cyc.began) = true then (if x.first ≤ v.gridNow then v.gridCycle k v.frc else v.gateStat k)
      else if x.cyc.start + x.cyc.tc ≤ v.frc then v.gridCycle k (x.cyc.start + x.cyc.tc) else v.gateStat k := by
  subst hx hv
  simp only [State.cycleStart, hready, Bool.not_true, Bool.false_eq_true, if_false, ge_iff_le]

/-- Settles O19: the wake of a node, the sweep of the one shaped node, a list's cycle start by its cases, and the status word by definition. -/
theorem shapersAndGatesFollowTime : Obligations.ShapersAndGatesFollowTime := by
  unfold Obligations.ShapersAndGatesFollowTime
  intro dt s u hu
  subst hu
  refine ⟨?_, ?_, ?_, ?_⟩
  · intro lvl node t v hwake hdue hv
    subst hv
    show execShaperWake dt lvl node s = _
    simp only [execShaperWake, hwake, ge_iff_le, if_pos hdue, finish_eq]
  · intro l n hl
    show execShaperSweep dt s = _
    simp only [execShaperSweep, hl, List.foldl_cons, List.foldl_nil, finish_eq]
  · intro g k v x hk hv hx hready goes
    subst hk
    have hgoes : ∀ t, (s.advance dt).cycleStart (gateKey g) = t → goes t := by
      intro t ht
      subst ht
      rfl
    have hcycle := cycleStart_eq hv hx hready
    refine ⟨fun hoff => hgoes _ ?_, fun hen hgrid hbegan => hgoes _ ?_, fun hen hgrid hbegan => hgoes _ ?_⟩
    · have : (!x.cyc.cfg.enable || !x.cyc.cfg.grid) = true := by simpa using hoff
      rw [hcycle, if_pos this]
    · rw [hcycle, hen, hgrid, hbegan]
      rfl
    · rw [hcycle, hen, hgrid, hbegan]
      rfl
  · intro g k w hk hw
    subst hw hk
    show execGateTransition dt g s = _
    simp only [execGateTransition, State.gateStat, finish_eq]
    rfl


/-- Writing back the table that is there changes nothing. -/
theorem with_dd_eq {u : State} {l : Sparse Dd} (hl : u.dd = l) : { u with dd := l } = u := by
  rw [← hl]

/-- One driver settled: while its conditions hold its 10 ms run, else it is off. -/
def settleDriver (s : State) (d : Nat) : State :=
  if s.bypCond d then { s with bypAt := if (sfind s.bypAt d).isSome then s.bypAt else sset s.bypAt d s.now }
  else { s with bypAt := sdel s.bypAt d, pins := { s.pins with byp := del s.pins.byp d } }

/-- Settling the drivers settles 0, then 1; the register it writes touches neither. -/
theorem bypSettle_drivers (u : State) :
    u.bypSettle.pins = (settleDriver (settleDriver u 0) 1).pins ∧ u.bypSettle.bypAt = (settleDriver (settleDriver u 0) 1).bypAt :=
  ⟨rfl, rfl⟩

/-- A driver whose conditions do not hold is off and its 10 ms are not running. -/
theorem settleDriver_off {u : State} {d : Nat} (hcond : u.bypCond d = false) :
    d ∉ (settleDriver u d).pins.byp ∧ sfind (settleDriver u d).bypAt d = none := by
  rw [settleDriver, if_neg (ne_true_of_eq_false hcond)]
  exact ⟨fun hmem => by simp [del] at hmem, sfind_sdel_self _ _⟩

/-- Settling a driver does not touch the conditions of any. -/
theorem bypCond_settleDriver (u : State) (d k : Nat) : (settleDriver u d).bypCond k = u.bypCond k := by
  unfold settleDriver
  split <;> rfl

/-- A driver that is off stays off while another settles. -/
theorem settleDriver_stays_off {u : State} {d k : Nat} (hdk : k ≠ d) (hoff : k ∉ u.pins.byp ∧ sfind u.bypAt k = none) :
    k ∉ (settleDriver u d).pins.byp ∧ sfind (settleDriver u d).bypAt k = none := by
  obtain ⟨hpin, hat⟩ := hoff
  unfold settleDriver
  split
  · refine ⟨hpin, ?_⟩
    show sfind (if _ then _ else _) k = none
    split
    · exact hat
    · rw [sfind_sset_ne _ _ _ _ hdk, hat]
  · exact ⟨fun hmem => hpin (List.mem_of_mem_filter hmem), by rw [sfind_sdel_ne _ _ _ hdk, hat]⟩

/-- After settling the drivers, one whose conditions do not hold is off and its 10 ms are not running. -/
theorem bypSettle_off {u : State} {d : Fin 2} (hcond : u.bypCond d = false) :
    d.val ∉ u.bypSettle.pins.byp ∧ sfind u.bypSettle.bypAt d = none := by
  obtain ⟨hpins, hat⟩ := bypSettle_drivers u
  rw [hpins, hat]
  match d, hcond with
  | 0, hcond => exact settleDriver_stays_off Nat.zero_ne_one (settleDriver_off hcond)
  | 1, hcond => exact settleDriver_off ((bypCond_settleDriver u 0 1).trans hcond)

/-- Settles O20: each timer by its own row; the bypass drivers one after the other. -/
theorem redundancyTimersAct : Obligations.RedundancyTimersAct := by
  unfold Obligations.RedundancyTimersAct
  refine ⟨?_, fun u d hcond => bypSettle_off hcond⟩
  intro dt s u hu
  subst hu
  refine ⟨?_, ?_, ?_, ?_, ?_⟩
  · intro hentries hdd
    show execDdForgetSweep dt s = _
    simp only [execDdForgetSweep, hentries, hdd, List.filter_nil, List.foldl_nil, finish_eq]
    exact congrArg (fun x => Host.Outcome.next (State.settle x)) (with_dd_eq hdd)
  · intro p e hentries hstale hdd
    show execDdForgetSweep dt s = _
    simp only [execDdForgetSweep, hentries, hdd, List.filter_cons, List.filter_nil, hstale, if_true, List.foldl_cons, List.foldl_nil, sdel, finish_eq]
  · intro i x hx hany hdue
    subst hx
    show execRcvyResetTimeout dt i s = _
    have hwait : ¬ ((sget (s.advance dt).rcvy {} i).takeAny || decide ((s.advance dt).now < (sget (s.advance dt).rcvy {} i).at_ +
        1000000 * max 1 ((s.advance dt).fld F.PRED_RCVY.RESET_MS i))) = true := by simp [hany, hdue]
    simp only [execRcvyResetTimeout, if_neg hwait, finish_eq]
  · intro k hrole hready hdue hexm
    show execSupervisionTx dt k s = _
    have hwait : ¬ (decide ((s.advance dt).pairRole k = 0) || !(s.advance dt).ready 0 ||
        decide ((s.advance dt).now < sget (s.advance dt).supAt 0 k + 2000000000)) = true := by simp [hrole, hready, hdue]
    simp only [execSupervisionTx, if_neg hwait, hexm, List.filter_nil, List.foldl_nil, finish_eq]
  · intro d t hat hcond hdue
    show execBypDrvOn dt d s = _
    simp only [execBypDrvOn, hat, hcond, ge_iff_le, decide_eq_true hdue, Bool.and_self, if_true, finish_eq]

end Sys2Proof.Proofs.SchedulingAndTimers
end

section
/-! The device clock, its pulses and the pins (chapter 11). -/
namespace Sys2Proof.Proofs.ClockAndPins
open Sys2Proof Sys2Proof.Machine Sys2Proof.Safety

/-- A clock state other than the one it is in is written, and HOLDOVER notes its instant. -/
theorem setTimeState_holdover {u : State} (hst : u.fld F.TIME_STATUS.STATE 0 = 2) :
    u.setTimeState 3 = { u.setFld F.TIME_STATUS.STATE 0 3 with clock := { u.clock with holdAt := some u.now } } := by
  have hne : ¬ u.fld F.TIME_STATUS.STATE 0 = 3 := by omega
  rw [State.setTimeState, if_neg hne]
  rfl

/-- Settles O22: the step by the state of TIME, and each loss and restoration by its row. -/
theorem deviceClockStepsAndHoldsOver : Obligations.DeviceClockStepsAndHoldsOver := by
  unfold Obligations.DeviceClockStepsAndHoldsOver
  intro dt s u hu
  subst hu
  refine ⟨?_, ?_, ?_, ?_, ?_, ?_, ?_⟩
  · intro ns sec v hst hv
    subst hv
    refine ⟨fun hready => ?_, fun d x w z y hready hd hx hw hz hy => ?_⟩
    · show execTimeStep dt ns sec s = _
      simp only [execTimeStep, State.timeStep, if_neg hst, hready, Bool.not_false, if_true, finish_eq]
    · subst hy hz hw hx hd
      show execTimeStep dt ns sec s = _
      simp only [execTimeStep, State.timeStep, if_neg hst, hready, Bool.not_true, Bool.false_eq_true, if_false, finish_eq]
  · intro ns sec hst
    show execTimeStep dt ns sec s = _
    simp only [execTimeStep, State.timeStep, if_pos hst, finish_eq]
  · intro hsrc hst
    show execTimeSourceLost dt s = _
    simp only [execTimeSourceLost, hsrc, hst, finish_eq]
    exact congrArg (fun x => Host.Outcome.next (State.settle x)) (setTimeState_holdover hst)
  · intro t v hsrc hst hpps hdue hv hst'
    subst hv
    show execTimeSourceLost dt s = _
    simp only [execTimeSourceLost, hsrc, hst, hpps, Option.getD_some, ge_iff_le, decide_eq_true hdue, finish_eq]
    exact congrArg (fun x => Host.Outcome.next (State.settle x)) (setTimeState_holdover hst')
  · intro t hhold hdue htr
    show execTraceableExpiry dt s = _
    simp only [execTraceableExpiry, hhold, if_neg (Nat.not_lt.mpr hdue), State.setTraceable, htr, Bool.true_eq_false, if_false, finish_eq]
    rfl
  · intro href
    show execRef25Lost dt s = _
    simp only [execRef25Lost, href, Bool.not_true, Bool.false_eq_true, if_false, finish_eq]
  · intro v hv _
    subst hv
    rfl

@[simp] theorem latchWords_rd (u : State) (r : Reg) (l : List Nat) : (u.latchWords r l).rd = l.map w32 := rfl

/-- Writing words of one register in turn changes the registers alone. -/
theorem foldl_setReg (r : Reg) (g : Nat → Nat) (ks : List Nat) (x : State) :
    ∃ m, ks.foldl (fun (s : State) k => s.setReg r 0 k (g k)) x = { x with regs := m } := by
  induction ks generalizing x with
  | nil => exact ⟨x.regs, rfl⟩
  | cons k ks ih =>
    obtain ⟨m, hm⟩ := ih (x.setReg r 0 k (g k))
    exact ⟨m, hm⟩

/-- Latching words of one register keeps the clock. -/
@[simp] theorem latchWords_clock (u : State) (r : Reg) (l : List Nat) : (u.latchWords r l).clock = u.clock := by
  obtain ⟨m, hm⟩ := foldl_setReg r (fun k => l.getD k 0) (List.range l.length) u
  rw [State.latchWords, hm]

/-- A read of a two-step FIFO returns its oldest entry and removes it. -/
theorem execTimeTxtsRead_cons {dt : Nat} {s : State} {p : Fin 40} {e : TxTs} {l : List TxTs} (hts : sget (s.advance dt).clock.txts [] p = e :: l) :
    execTimeTxtsRead dt p s = .next (State.settle { s.advance dt with
      clock := { (s.advance dt).clock with txts := sput (s.advance dt).clock.txts [] p l }
      rd := [w32 e.seqId, w32 e.msgType, w32 e.dom, w32 (ptpNs e.egress), w32 (ptpSec e.egress),
        w32 (ptpSec e.egress / 4294967296), w32 e.residence, w32 (e.residence / 4294967296)] }) := by
  unfold execTimeTxtsRead
  dsimp only
  rw [hts]
  rfl

/-- Settles O23: each read latches the words of its register from one instant. -/
theorem timeReadsLatchOneInstant : Obligations.TimeReadsLatchOneInstant := by
  unfold Obligations.TimeReadsLatchOneInstant
  intro dt s u hu
  refine ⟨⟨u.timeNow, by rw [hu]; rfl, rfl, ?_, ?_⟩, ⟨u.gridNowRead, by rw [hu]; rfl, rfl, ?_, ?_⟩, ?_⟩
  · simp only [State.timeNow, latchWords_rd, timeWords, List.map_cons, List.map_nil]
  · simp only [State.timeNow, latchWords_clock]
  · simp only [State.gridNowRead, latchWords_rd, List.map_cons, List.map_nil]
  · simp only [State.gridNowRead, latchWords_clock]
  · intro p e l hts
    subst hu
    exact execTimeTxtsRead_cons hts

/-- Noting an input edge writes its timestamp, and counts it where it is more than 1 us off. -/
theorem onTime_eq (u : State) (err : Nat) :
    ∃ m, u.onTime err = if err > 1000 then State.bump { u with regs := m } .TIME_PPS_REJECT 0 else { u with regs := m } := by
  obtain ⟨m, hm⟩ := foldl_setReg .TIME_PPS_IN_TS (fun k => (timeWords u.ptp 0 u.frc).getD k 0) (List.range 5) u
  exact ⟨m, by rw [State.onTime, hm]⟩

/-- Noting an input edge keeps the instant and the clock. -/
theorem onTime_now_clock (u : State) (err : Nat) : (u.onTime err).now = u.now ∧ (u.onTime err).clock = u.clock := by
  obtain ⟨m, hm⟩ := onTime_eq u err
  rw [hm]
  split <;> exact ⟨rfl, rfl⟩

/-- An edge more than 1 us off is counted. -/
theorem onTime_ctrs_off {u : State} {err : Nat} (herr : 1000 < err) : (u.onTime err).ctrs = (u.bump .TIME_PPS_REJECT 0).ctrs := by
  obtain ⟨m, hm⟩ := onTime_eq u err
  rw [hm, if_pos herr]
  rfl

section OutputEdge
variable {dt n : Nat} {s : State}

/-- What an IRIG output frame of the second that begins carries. -/
def irigOutput (u : State) : State :=
  { u with clock := { u.clock with
    irigSec := u.ptp / 1000000000 + Config.utcOffset (u.ptp / 1000000000) +
      (if u.flag F.TIME_IRIG_CFG.LOCAL 0 then Config.localOffset (u.ptp / 1000000000) else 0)
    irigLeap := u.flag F.TIME_IRIG_CFG.EXT1344 0 && Config.leapState (u.ptp / 1000000000)
    irigQual := if u.flag F.TIME_IRIG_CFG.EXT1344 0 then
      some (Config.timeQuality (u.flag F.TIME_STATUS.TRACEABLE 0) (u.fld F.TIME_STATUS.STATE 0)) else none } }

/-- A new second of a ready clock is noted; the outputs act outside the safe state. -/
theorem execPpsOutEdge_new (hn : n = (((s.advance dt).ptp - sgn ((s.advance dt).reg .TIME_PPS_OFS 0 0) 32) / 1000000000 : Int).toNat)
    (hne : n ≠ (s.advance dt).clock.ppsOut) (hready : (s.advance dt).ready 3 = true) :
    execPpsOutEdge dt s = .next (State.settle
      (let v : State := { s.advance dt with clock := { (s.advance dt).clock with
        ppsOut := n
        ppsRise := if (s.advance dt).flag F.TIME_PPS_CFG.OUT_EN 0 && !(s.advance dt).flt.safe then some n else (s.advance dt).clock.ppsRise } }
      if !(s.advance dt).flag F.TIME_IRIG_CFG.OUT_EN 0 || (s.advance dt).flt.safe then v else irigOutput v)) := by
  have hgo : ¬ (decide (n = (s.advance dt).clock.ppsOut) || !(s.advance dt).ready 3) = true := by simp [hne, hready]
  simp only [execPpsOutEdge, ← hn, if_neg hgo, finish_eq]
  rw [apply_ite State.settle, apply_ite Host.Outcome.next]
  rfl

/-- In the safe state no edge is given. -/
theorem execPpsOutEdge_safe (hn : n = (((s.advance dt).ptp - sgn ((s.advance dt).reg .TIME_PPS_OFS 0 0) 32) / 1000000000 : Int).toNat)
    (hne : n ≠ (s.advance dt).clock.ppsOut) (hready : (s.advance dt).ready 3 = true) (hsafe : (s.advance dt).flt.safe = true) :
    execPpsOutEdge dt s = .next (State.settle { s.advance dt with clock := { (s.advance dt).clock with ppsOut := n } }) := by
  rw [execPpsOutEdge_new hn hne hready, hsafe, Bool.or_true, Bool.not_true, Bool.and_false]
  rfl

/-- Outside the safe state the edge is given, and with it the IRIG frame where that output is enabled. -/
theorem execPpsOutEdge_on (hn : n = (((s.advance dt).ptp - sgn ((s.advance dt).reg .TIME_PPS_OFS 0 0) 32) / 1000000000 : Int).toNat)
    (hne : n ≠ (s.advance dt).clock.ppsOut) (hready : (s.advance dt).ready 3 = true) (hsafe : (s.advance dt).flt.safe = false) {v : State}
    (hv : v = { s.advance dt with clock := { (s.advance dt).clock with
      ppsOut := n
      ppsRise := if (s.advance dt).flag F.TIME_PPS_CFG.OUT_EN 0 then some n else (s.advance dt).clock.ppsRise } }) :
    execPpsOutEdge dt s = if (s.advance dt).flag F.TIME_IRIG_CFG.OUT_EN 0 = true then .next (irigOutput v).settle else .next v.settle := by
  subst hv
  rw [execPpsOutEdge_new hn hne hready, hsafe, Bool.or_false, Bool.not_false, Bool.and_true]
  cases (s.advance dt).flag F.TIME_IRIG_CFG.OUT_EN 0 <;> rfl

end OutputEdge

/-- Settles O24: the inputs by whether they are within 1 us, the output by the safe state and the IRIG enable. -/
theorem pulsesAndIrigFrames : Obligations.PulsesAndIrigFrames := by
  unfold Obligations.PulsesAndIrigFrames
  intro dt s u hu
  subst hu
  refine ⟨?_, ?_, ?_, ?_⟩
  · intro err v hen herr hv
    subst hv
    show execPpsInEdge dt err s = _
    simp only [execPpsInEdge, hen, Bool.not_true, Bool.false_eq_true, if_false, gt_iff_lt, if_neg (Nat.not_lt.mpr herr), finish_eq]
    rw [← (onTime_now_clock (s.advance dt) err).1]
    rfl
  · intro err hen herr
    refine ⟨(s.advance dt).onTime err, ?_, onTime_ctrs_off herr, (onTime_now_clock _ err).2⟩
    show execPpsInEdge dt err s = _
    simp only [execPpsInEdge, hen, Bool.not_true, Bool.false_eq_true, if_false, gt_iff_lt, if_pos herr, finish_eq]
  · intro f v w hen herr hv hw
    have hexec : execIrigInFrame dt f s = if w.fld F.TIME_CTL.SRC 0 ≥ 2 && w.fld F.TIME_STATUS.STATE 0 = 2 then
        .next (State.settle (w.setTraceable (v.flag F.TIME_IRIG_CFG.EXT1344 0 && decide (f.quality ≤ 1000)))) else .next w.settle := by
      subst hw hv
      simp only [execIrigInFrame, hen, Bool.not_true, Bool.false_eq_true, if_false, gt_iff_lt, if_neg (Nat.not_lt.mpr herr), finish_eq,
        (onTime_now_clock (s.advance dt) f.edgeErr).1]
    refine ⟨fun hno => ?_, fun hsrc hst => ?_⟩
    · have hunused : ¬ (decide (w.fld F.TIME_CTL.SRC 0 ≥ 2) && decide (w.fld F.TIME_STATUS.STATE 0 = 2)) = true := by
        simp only [Bool.and_eq_true, decide_eq_true_eq]
        omega
      exact hexec.trans (if_neg hunused)
    · have hused : (decide (w.fld F.TIME_CTL.SRC 0 ≥ 2) && decide (w.fld F.TIME_STATUS.STATE 0 = 2)) = true := by simp [hsrc, hst]
      exact hexec.trans (if_pos hused)
  · intro n v hn hne hready
    refine ⟨fun hsafe => ?_, fun hsafe hv => ⟨fun hout => ?_, fun hout => ?_⟩⟩
    · exact execPpsOutEdge_safe hn hne hready hsafe
    · subst hv
      exact (execPpsOutEdge_on hn hne hready hsafe rfl).trans (if_neg (ne_true_of_eq_false hout))
    · subst hv
      exact ⟨_, (execPpsOutEdge_on hn hne hready hsafe rfl).trans (if_pos hout), rfl, rfl⟩

/-- An accepted change of level: the candidate that has held becomes the level and reaches the event engine. -/
theorem acceptPin_held {u v : State} {n : Nat} {b : Bool} {t p q : Nat} (hout : u.flag F.GPIO_OUT_CFG.OUT_EN n = false)
    (hcand : (u.pin n).cand = some (b, t, p, q)) (hheld : t + u.debounce n ≤ u.now)
    (hv : v = (u.setPin n { u.pin n with level := b, cand := none }).evtIn { src := .gpio n, value := b2n b, frc := t, ptp := p, grid := some q }) :
    u.acceptPin n = if !v.flag F.GPIO_IN_CFG.TS_EN n || (v.fld F.GPIO_IN_CFG.EDGE n = 0 && !b) || (v.fld F.GPIO_IN_CFG.EDGE n = 1 && b) then v
      else if 256 ≤ v.clock.gpioTs.length then v.bump .GPIO_TS_DROP 0
      else { v with clock := { v.clock with gpioTs := v.clock.gpioTs ++ [(n, b, t, q)] } } := by
  have hgo : ¬ (decide (u.now < t + u.debounce n) || u.flag F.GPIO_OUT_CFG.OUT_EN n) = true := by simp [hout, hheld]
  subst hv
  simp only [State.acceptPin, hcand, if_neg hgo, ge_iff_le]

/-- A candidate that has not held its time yet changes nothing. -/
theorem acceptPin_waits {u : State} {n : Nat} {b : Bool} {t p q : Nat} (hcand : (u.pin n).cand = some (b, t, p, q))
    (hnew : u.now < t + u.debounce n) : u.acceptPin n = u := by
  have hwait : (decide (u.now < t + u.debounce n) || u.flag F.GPIO_OUT_CFG.OUT_EN n) = true := by simp [hnew]
  simp only [State.acceptPin, hcand, if_pos hwait]

theorem acceptPin_none {u : State} {n : Nat} (hcand : (u.pin n).cand = none) : u.acceptPin n = u := by
  simp only [State.acceptPin, hcand]

/-- Settles O25: the edge by the candidate, the acceptance by TS_EN, and the end of a pulse. -/
theorem gpioPinsDebounceAndPulse : Obligations.GpioPinsDebounceAndPulse := by
  unfold Obligations.GpioPinsDebounceAndPulse
  intro dt n s u g hu hg
  subst hg hu
  refine ⟨?_, ?_, ?_, ?_⟩
  · intro b hout hcand hb
    show execGpioInputEdge dt n b s = _
    simp only [execGpioInputEdge, acceptPin_none hcand, hout, Bool.false_eq_true, if_false, if_neg hb, finish_eq]
    rw [hcand]
  · intro b b' t p q hout hcand hnew hb
    show execGpioInputEdge dt n b s = _
    simp only [execGpioInputEdge, acceptPin_waits hcand hnew, hout, Bool.false_eq_true, if_false, finish_eq]
    rw [hcand]
    exact if_neg hb
  · intro b t p q v hout hcand hheld hv
    have hexec : execGpioInputAccept dt n s = .next (State.settle ((s.advance dt).acceptPin n)) := rfl
    refine ⟨fun hts => ?_, fun hts hrise hfall hroom => ?_⟩
    · show execGpioInputAccept dt n s = _
      have hstop : (!v.flag F.GPIO_IN_CFG.TS_EN n || (decide (v.fld F.GPIO_IN_CFG.EDGE n = 0) && !b) || (decide (v.fld F.GPIO_IN_CFG.EDGE n = 1) && b)) = true := by
        simp [hts]
      rw [hexec, acceptPin_held hout hcand hheld hv, if_pos hstop]
    · show execGpioInputAccept dt n s = _
      have hgo : ¬ (!v.flag F.GPIO_IN_CFG.TS_EN n || (decide (v.fld F.GPIO_IN_CFG.EDGE n = 0) && !b) || (decide (v.fld F.GPIO_IN_CFG.EDGE n = 1) && b)) = true := by
        simpa [hts] using ⟨hrise, hfall⟩
      rw [hexec, acceptPin_held hout hcand hheld hv, if_neg hgo, if_neg (Nat.not_le.mpr hroom)]
  · intro t hpulse hdue hsafe hlevel
    show execGpioPulseEnd dt n s = _
    have hgo : ¬ (decide ((s.advance dt).now < t) || (s.advance dt).flt.safe) = true := by simp [hsafe, hdue]
    have hchange : ¬ ((s.advance dt).pin n).out = false := by simp [hlevel]
    simp only [execGpioPulseEnd, hpulse, if_neg hgo, State.drivePin, if_neg hchange, finish_eq]
    rfl

end Sys2Proof.Proofs.ClockAndPins
end

section
/-! Samples, harmonics and reports (chapter 12) and the event engine (chapter 13). -/
namespace Sys2Proof.Proofs.MeasurementAndEvents
open Sys2Proof Sys2Proof.Machine Sys2Proof.Safety

/-- A record of a sample stream is taken from the queue and goes to its stream by the state of that stream's bank. -/
theorem execSvSampleRecord_sv {dt : Nat} {s v : State} {d : Delivered} {key cnt synch asdu : Nat} {pairs : List Nat}
    (hd : readySv (s.advance dt).sideQ [] = some d) (hside : d.side = .sv key cnt synch asdu pairs)
    (hv : v = { s.advance dt with sideQ := (s.advance dt).sideQ.erase d }) (hruns : v.phxRuns = true) :
    execSvSampleRecord dt s =
      match v.streamsOn.find? fun i => v.streamKey i == key with
      | none => finish (v.bump .PHX_UNKNOWN d.pl)
      | some i =>
        if v.phxFenced i then finish v
        else if v.pwr.banksOff.contains (i / 1024) then finish (v.bump .PHX_BANK_WAKE i)
        else if v.phxWild then finish (v.wildSmp i d)
        else finish (v.placeSmp i d cnt synch pairs) := by
  have hgo : ¬ (!v.phxRuns) = true := by rw [hruns]; decide
  subst hv
  simp only [execSvSampleRecord, hd, hside, if_neg hgo] <;> rfl

/-- Settles O27: the record by its stream and bank, the timers by their rows. -/
theorem samplesReachTheirStreams : Obligations.SamplesReachTheirStreams := by
  unfold Obligations.SamplesReachTheirStreams
  refine ⟨?_, ?_⟩
  · intro dt s u hu
    subst hu
    refine ⟨?_, ?_, ?_, ?_⟩
    · intro d key cnt synch asdu pairs v hd hside hv hruns
      have hexec := execSvSampleRecord_sv hd hside hv hruns
      refine ⟨fun hnone => ?_, fun i hsome hfence => ⟨fun hoff => ?_, fun hon => ?_⟩⟩
      · show execSvSampleRecord dt s = _
        rw [hexec, hnone]
        rfl
      · show execSvSampleRecord dt s = _
        rw [hexec, hsome]
        exact (if_neg (ne_true_of_eq_false hfence)).trans (if_pos hoff)
      · show execSvSampleRecord dt s = _
        rw [hexec, hsome, apply_ite State.settle, apply_ite Host.Outcome.next]
        exact (if_neg (ne_true_of_eq_false hfence)).trans (if_neg (ne_true_of_eq_false hon))
    · intro i x hx hseen hstate hen hruns hdue
      subst hx
      show execStreamLoss dt i s = _
      have hgo : ¬ (!((s.advance dt).stream i).seen || decide (((s.advance dt).stream i).state = 3) || !(s.advance dt).flag F.PHX_STREAM.EN i ||
          !(s.advance dt).phxRuns || decide ((s.advance dt).now < ((s.advance dt).stream i).last +
          1000 * max 1 ((s.advance dt).fld F.PHX_STREAM.LOSS_US i))) = true := by simp [hseen, hstate, hen, hruns, hdue]
      simp only [execStreamLoss, if_neg hgo, finish_eq]
    · intro i hruns hready hon hfence hrate
      show execPhxTick dt s = _
      have hrate' : ((s.advance dt).smpRate i != 0) = true := by simpa using hrate
      simp only [execPhxTick, hruns, hready, Bool.not_true, Bool.or_self, Bool.false_eq_true, if_false, hon, List.filter_cons, hfence, hrate',
        Bool.not_false, Bool.and_self, if_true, List.filter_nil, List.foldl_cons, List.foldl_nil, finish_eq]
    · intro b hpower hon
      show execPhxBankWake dt b s = _
      simp only [execPhxBankWake, decide_eq_true hpower, hon, Bool.and_self, if_true, finish_eq]
  · intro u i cnt synch d pairs hrate
    rw [State.placeSmp, if_pos hrate]

/-- A window that is not whole gives no harmonic. -/
theorem harmOrder_of_not_whole (u : State) (i c te : Nat) (w : List Smp) (o : Nat) : u.harmOrder i c te w false o = qnan := by
  rw [State.harmOrder, Bool.not_false, Bool.true_or, if_pos rfl]

section Report
variable {dt te : Nat} {s : State} {m : Fin 64}

/-- A report that is due, of a unit that is ready. -/
structure ReportDue (u : State) (m : Fin 64) (te : Nat) : Prop where
  enabled : u.flag F.PHX_PMU.EN m = true
  runs : u.phxRuns = true
  at_ : u.pmuAt m = some te
  reached : te ≤ u.ptp
  ready : u.pmuReady m te = true

/-- A due report is suppressed and counted while time is not traceable. -/
theorem execPmuReport_suppressed (h : ReportDue (s.advance dt) m te) (htr : (s.advance dt).flag F.TIME_STATUS.TRACEABLE 0 = false) :
    execPmuReport dt m s = .next (State.settle (((s.advance dt).pmuStep m).bump .PHX_PMU_SUPPRESS m)) := by
  have hgo : ¬ (decide ((s.advance dt).ptp < te) || !(s.advance dt).pmuReady m te) = true := by simp [h.reached, h.ready]
  simp only [execPmuReport, h.enabled, h.runs, Bool.not_true, Bool.or_self, Bool.false_eq_true, if_false, h.at_, if_neg hgo, htr, Bool.not_false,
    if_true, finish_eq]

/-- A due report of traceable time is wrapped and, where its frame lives, published. -/
theorem execPmuReport_published {x : Rw} {pay : Bytes} {n : Nat} (h : ReportDue (s.advance dt) m te)
    (htr : (s.advance dt).flag F.TIME_STATUS.TRACEABLE 0 = true) (hpay : pay = (s.advance dt).pmuFrame m te) (hn : n = (s.advance dt).fld F.PHX_PMU.ENCAP m)
    (hx : x = (rwStart (s.advance dt) { port := 42, pl := 0, bytes := pay, gen := (s.advance dt).cur } 0 42).encap n
      (tmplOf ((s.advance dt).verAt .RW_ENCAP n (s.advance dt).cur)) 0) :
    execPmuReport dt m s = if x.dead = true then finish ((x.s.pmuStep m).pmuRelay m pay) else
      match (if x.bad then x.s.freshBytes x.b.length else (x.b, x.s) : Bytes × State) with
      | (b, v) =>
        match v.publish b [] [(4, 16), (6, 0x1F1F1F), (8, 31)] ((s.advance dt).fld F.PHX_PMU.DEST m) ((s.advance dt).flag F.PHX_PMU.GROUP m)
          ((s.advance dt).fld F.PHX_PMU.QUEUE m) ((s.advance dt).pubClass ((s.advance dt).fld F.PHX_PMU.QUEUE m)) none with
        | none => finish (s.advance dt)
        | some (_, t) => finish ((t.pmuStep m).pmuRelay m pay) := by
  have hgo : ¬ (decide ((s.advance dt).ptp < te) || !(s.advance dt).pmuReady m te) = true := by simp [h.reached, h.ready]
  subst hx hn hpay
  simp only [execPmuReport, h.enabled, h.runs, Bool.not_true, Bool.or_self, Bool.false_eq_true, if_false, h.at_, if_neg hgo, htr] <;> rfl

end Report

/-- Settles O28: the window that ends by definition, the report by whether time is traceable and its frame lives. -/
theorem harmonicsAndPhasorReports : Obligations.HarmonicsAndPhasorReports := by
  unfold Obligations.HarmonicsAndPhasorReports
  intro dt s u hu
  subst hu
  refine ⟨?_, fun y i c te w o => harmOrder_of_not_whole y i c te w o, ?_⟩
  · intro h i n te c thd w ok x v hi hn hen hruns hshed hfence hstream hrate hend hdue hwin hc hthd hv
    subst hthd hc hi
    show execHarmWindowEnd dt h s = _
    have hgo : ¬ (!(s.advance dt).flag F.PHX_HARM.EN h || !(s.advance dt).phxRuns || (s.advance dt).shed 2 ||
        (s.advance dt).phxFenced ((s.advance dt).fld F.PHX_HARM.STREAM h) ||
        !(s.advance dt).flag F.PHX_STREAM.EN ((s.advance dt).fld F.PHX_HARM.STREAM h) ||
        decide ((s.advance dt).smpRate ((s.advance dt).fld F.PHX_HARM.STREAM h) = 0)) = true := by
      simp [hen, hruns, hshed, hfence, hstream, hrate]
    simp only [execHarmWindowEnd, if_neg hgo, ← hn, hend, if_neg (Nat.not_lt.mpr hdue), hwin, ← hv]
    rfl
  · intro m te hen hruns hat hdue hready
    have hrep : ReportDue (s.advance dt) m te := ⟨hen, hruns, hat, hdue, hready⟩
    refine ⟨fun htr => execPmuReport_suppressed hrep htr, fun x pay n htr hpay hn hx => ?_⟩
    have hexec := execPmuReport_published hrep htr hpay hn hx
    refine ⟨fun hdead => ?_, fun b v q o hlive hbv hq ho => ?_⟩
    · exact hexec.trans (if_pos hdead)
    · show execPmuReport dt m s = _
      subst hq
      rw [hexec, if_neg (ne_true_of_eq_false hlive), ← hbv]
      dsimp only
      rw [ho]
      cases o <;> rfl

/-- A switch that is neither in its position nor held up: its operations are staged and committed, or it fails and is logged. -/
theorem execFswCommit_acts {dt x : Nat} {on : Bool} {q : List (Nat × Bool)} {s v : State} (hq : (s.advance dt).fswQ = (x, on) :: q)
    (hother : (s.advance dt).flag F.EVT_FSW_STAT.ON x ≠ on) (hstaged : ((s.advance dt).txn.isSome && (s.advance dt).stagedAny) = false)
    (hfree : (s.advance dt).commitFree = true) (hv : v = (s.advance dt).fswMissed x on) :
    execFswCommit dt s = match v.fswStage x on with
      | none => finish (State.logEvt { (v.bump .EVT_FSW_FAIL x).pulse 54 with fswQ := q }
          { act := x, cond := 0, rising := on, ptp := v.ptp, frc := v.frc, note := 1 })
      | some t => finish (State.setFld { t.commitGen with fswQ := q } F.EVT_FSW_STAT.ON x (b2n on)) := by
  subst hv
  simp only [execFswCommit, hq, if_neg hother, hstaged, hfree, Bool.not_true, Bool.or_self, Bool.false_eq_true, if_false] <;> rfl

/-- Settles O30: each event source by its row, the switch by whether it may commit. -/
theorem eventPassesRun : Obligations.EventPassesRun := by
  unfold Obligations.EventPassesRun
  refine ⟨?_, ?_⟩
  · intro dt s u hu
    subst hu
    refine ⟨?_, ?_, ?_⟩
    · intro e q hq hready
      show execEvtPass dt s = _
      simp only [execEvtPass, hq, hready, Bool.not_true, Bool.false_eq_true, if_false, finish_eq]
    · intro c t htimer hdue hready
      show execEvtTimerExpiry dt c s = _
      have hgo : ¬ (decide ((s.advance dt).now < t) || !(s.advance dt).ready 10) = true := by simp [hdue, hready]
      simp only [execEvtTimerExpiry, htimer, if_neg hgo, finish_eq]
    · intro i hstate hdue
      show execSubLoss dt i s = _
      simp only [execSubLoss, decide_eq_true hstate, ge_iff_le, decide_eq_true hdue, Bool.and_self, if_true, finish_eq]
  · intro dt x on q s u hu hq
    subst hu
    refine ⟨fun hon => ?_, fun hother hheld => ?_, fun v hother hstaged hfree hv => ⟨fun hstage => ?_, fun t hstage => ?_⟩⟩
    · show execFswCommit dt s = _
      simp only [execFswCommit, hq, if_pos hon, finish_eq]
    · show execFswCommit dt s = _
      have hwait : (((s.advance dt).txn.isSome && (s.advance dt).stagedAny) || !(s.advance dt).commitFree) = true := by
        rcases hheld with h | h
        · rw [h, Bool.true_or]
        · rw [h, Bool.not_false, Bool.or_true]
      simp only [execFswCommit, hq, if_neg hother, if_pos hwait, finish_eq]
    · show execFswCommit dt s = _
      rw [execFswCommit_acts hq hother hstaged hfree hv, hstage]
      rfl
    · show execFswCommit dt s = _
      rw [execFswCommit_acts hq hother hstaged hfree hv, hstage]
      rfl

/-- Settles O31: the frame that is built, and the instant of the schedule. -/
theorem gooseFramesFollowTheirSchedule : Obligations.GooseFramesFollowTheirSchedule := by
  unfold Obligations.GooseFramesFollowTheirSchedule
  intro dt t s u g hu hg hen hsafe
  subst hg hu
  refine ⟨?_, ?_⟩
  · intro k b hs v ok x y z hdue hclosing hbytes hhs hpub hy hz
    subst hz hy hhs
    show execGooseFrameBuild dt t s = _
    simp only [execGooseFrameBuild, hdue, hen, hsafe, hclosing, Bool.not_true, Bool.or_self, Bool.false_eq_true, if_false, hbytes, hpub, finish_eq]
  · intro at_ v hnext hdue hv
    subst hv
    show execGooseRetransmit dt t s = _
    simp only [execGooseRetransmit, hnext, hen, hsafe, decide_eq_false (Nat.not_lt.mpr hdue), Bool.not_true, Bool.or_self,
      Bool.false_eq_true, if_false, finish_eq]

end Sys2Proof.Proofs.MeasurementAndEvents
end

section
/-! The fabric: blocks, links and messages (chapter 14). -/
namespace Sys2Proof.Proofs.Fabric
open Sys2Proof Sys2Proof.Machine Sys2Proof.Safety

section Blocks
variable {dt : Nat} {l : Fin 8} {s v : State} {b : Bytes}

/-- A block of 256 bytes on a link that is in use goes by its CRC, its type and its sequence number. -/
theorem execNibenBlockRx_whole (hlink : 2 ≤ (s.advance dt).linkState l) (hlen : b.length = 256)
    (hv : v = (s.advance dt).acked l (beNat b 2 2) (bit (byteAt b 5) 0)) :
    execNibenBlockRx dt l b s =
      if crc32c 0 (b.take 252) ≠ beNat b 252 4 then
        finish (if byteAt b 4 / 64 == 0 then ((s.advance dt).bump .FAB_BLK_CRC l).nak l else s.advance dt)
      else if !(byteAt b 4 / 64 == 0) then finish v
      else if beNat b 0 2 ≠ (sget v.links {} l).expect then finish ((v.bump .FAB_BLK_SEQ l).nak l)
      else
        match splitMsgs 64 ((sget v.links {} l).stream ++ (b.drop 8).take 244) with
        | (bad, rest) =>
          finish ((v.modLink l fun k => { k with expect := (k.expect + 1) % 65536, nakOut := false, stream := rest }).add .FAB_MSG_BAD 0 bad) := by
  have hgo : ¬ (decide (b.length ≠ 256) || decide ((s.advance dt).linkState l < 2)) = true := by
    rw [decide_eq_false (not_not_intro hlen), decide_eq_false (Nat.not_lt.mpr hlink)]
    decide
  subst hv
  simp only [execNibenBlockRx, if_neg hgo]

/-- DATA blocks carry the type 0 in the two top bits of byte 4. -/
theorem isData_iff (n : Nat) : (n / 64 == 0) = decide (n < 64) := by
  rw [Bool.eq_iff_iff]
  simp only [beq_iff_eq, decide_eq_true_eq]
  omega

end Blocks

/-- What a good block's ACK does to the link, and what waited for room goes. -/
theorem acked_eq {u w : State} {l n : Nat} {nak : Bool}
    (hw : w = u.modLink l (fun k => let k := k.release n u.now; if nak && serial k.acked n 16 < k.retry then k.resend n else k)) :
    u.acked l n nak = w.pumpLink l (sget w.links {} l).wait := by
  subst hw
  rfl

/-- Settles O32: the block by its CRC, type and sequence number; the replay by the resends so far. -/
theorem blocksAreAcceptedInOrder : Obligations.BlocksAreAcceptedInOrder := by
  unfold Obligations.BlocksAreAcceptedInOrder
  intro dt l s u hu hlink
  subst hu
  refine ⟨?_, ?_, ?_⟩
  · intro b hlen
    refine ⟨fun hcrc hdata => ?_, fun hcrc hother => ?_, fun w v hcrc hw hv => ?_⟩
    · have hexec := execNibenBlockRx_whole hlink hlen rfl
      rw [isData_iff, decide_eq_true hdata] at hexec
      exact hexec.trans (if_pos hcrc)
    · have hexec := execNibenBlockRx_whole hlink hlen rfl
      rw [isData_iff, decide_eq_false (Nat.not_lt.mpr hother)] at hexec
      exact hexec.trans (if_pos hcrc)
    · have hexec := execNibenBlockRx_whole hlink hlen (hv.trans (acked_eq hw).symm)
      rw [isData_iff, if_neg (not_not_intro hcrc)] at hexec
      refine ⟨fun hother => ?_, fun hdata hseq => ?_, fun bad rest hdata hseq hsplit => ?_⟩
      · rw [decide_eq_false (Nat.not_lt.mpr hother)] at hexec
        exact hexec
      · rw [decide_eq_true hdata] at hexec
        exact hexec.trans (if_pos hseq)
      · rw [decide_eq_true hdata, hsplit] at hexec
        exact hexec.trans (if_neg (not_not_intro hseq))
  · intro k hk hretry hdue
    subst hk
    have hgo : ¬ (decide ((s.advance dt).linkState l < 2) || decide ((sget (s.advance dt).links {} l).retry = 0) ||
        decide ((s.advance dt).now < (sget (s.advance dt).links {} l).retryAt + 2000000)) = true := by simp [Nat.lt_of_succ_le hlink, hretry, hdue]
    refine ⟨fun hmany => ?_, fun hfew => ?_⟩
    · show execNibenReplayTimeout dt l s = _
      simp only [execNibenReplayTimeout, if_neg hgo, finish_eq]
      exact if_pos (by omega)
    · show execNibenReplayTimeout dt l s = _
      simp only [execNibenReplayTimeout, if_neg hgo, finish_eq]
      exact if_neg (by omega)
  · intro hout
    rw [State.nak, if_pos hout]

/-- Settles O33: each row by the state of the link, the HELLO by whether it is refused. -/
theorem linksComeUpAndMembersLeave : Obligations.LinksComeUpAndMembersLeave := by
  unfold Obligations.LinksComeUpAndMembersLeave
  intro dt s u hu
  subst hu
  refine ⟨?_, ?_, ?_, ?_⟩
  · intro l t hallowed hstate hlock hdue
    show execLinkTrainingLock dt l s = _
    have hgo : ¬ (!(s.advance dt).linkAllowed l || decide ((s.advance dt).linkState l > 1) ||
        decide ((s.advance dt).now < ((sget (s.advance dt).links {} l).lockAt.getD (s.advance dt).now) + 1000000)) = true := by
      rw [hlock, hallowed, Option.getD_some, decide_eq_false (Nat.not_lt.mpr hdue), decide_eq_false (Nat.not_lt.mpr hstate)]
      decide
    simp only [execLinkTrainingLock, if_neg hgo, finish_eq]
  · intro l h v hstate hv
    subst hv
    refine ⟨fun r hrefused hcheck => ?_, fun hgood => ?_⟩
    · show execHelloMsg dt l h s = _
      have hdown : ¬ (s.advance dt).linkState l = 3 := by omega
      simp only [execHelloMsg, if_neg (Nat.not_lt.mpr hstate), hrefused, if_neg hdown, finish_eq]
    · show execHelloMsg dt l h s = _
      simp only [execHelloMsg, if_neg (Nat.not_lt.mpr hstate), hgood, finish_eq]
  · intro src reach ports p hp
    subst hp
    refine ⟨fun hold => ?_, fun hother hnew => ?_⟩
    · show execLinkStateMsg dt src reach ports s = _
      have hstop : (decide (src = (s.advance dt).member) || ((sget (s.advance dt).peers {} src).links == reach &&
          (sget (s.advance dt).peers {} src).ports == ports)) = true := by simpa using hold
      simp only [execLinkStateMsg, if_pos hstop, finish_eq]
    · show execLinkStateMsg dt src reach ports s = _
      have hgo : ¬ (decide (src = (s.advance dt).member) || ((sget (s.advance dt).peers {} src).links == reach &&
          (sget (s.advance dt).peers {} src).ports == ports)) = true := by
        simp only [Bool.or_eq_true, decide_eq_true_eq, Bool.and_eq_true, beq_iff_eq]
        tauto
      simp only [execLinkStateMsg, if_neg hgo, finish_eq]
  · intro m t v hgone hdue hv
    subst hv
    show execMemberUnreachable dt m s = _
    simp only [execMemberUnreachable, hgone, if_neg (Nat.not_lt.mpr hdue), finish_eq] <;> rfl

/-- A frame of an UP link with fewer than 15 hops is this member's or goes on. -/
theorem execFrameMsg_up {dt : Nat} {l : Fin 8} {m : FrameMsg} {s : State} (hup : (s.advance dt).linkState l = 3) (hhops : m.hops < 15) {to_ : Nat}
    (hto : to_ = if m.group then m.member else m.dest / 64) :
    execFrameMsg dt l m s = .next (State.settle
      (if to_ = (s.advance dt).member then (s.advance dt).fabOwn l m else (s.advance dt).fabTransit l m to_)) := by
  subst hto
  simp only [execFrameMsg, if_neg (not_not_intro hup), ge_iff_le, if_neg (Nat.not_le.mpr hhops), finish_eq]

/-- A request list that names a member is not empty, and the first at or past the turn is served. -/
theorem find?_orElse_head? {l : List Nat} {f : Nat → Bool} {m : Nat} (h : l.find? f = some m) :
    l.isEmpty = false ∧ ((l.find? f).orElse fun _ => l.head?).getD 0 = m := by
  refine ⟨?_, by rw [h]; rfl⟩
  cases l with
  | nil => exact absurd h (by simp)
  | cons a l => rfl

/-- Settles O34: the frame by its hops and destination, the other messages by their rows. -/
theorem fabricMessagesAct : Obligations.FabricMessagesAct := by
  unfold Obligations.FabricMessagesAct
  intro dt s u hu
  subst hu
  refine ⟨?_, ?_, ?_, ?_, ?_, ?_⟩
  · intro l m hup
    refine ⟨fun hhops => ?_, fun hhops hgroup hown => ?_, fun hhops hgroup hown => ?_, fun hhops hgroup hown => ?_, fun hhops hgroup hown => ?_⟩
    · show execFrameMsg dt l m s = _
      simp only [execFrameMsg, if_neg (not_not_intro hup), ge_iff_le, if_pos hhops, finish_eq]
    · exact (execFrameMsg_up hup hhops (if_pos hgroup).symm).trans (by rw [if_pos hown])
    · exact (execFrameMsg_up hup hhops (if_neg (ne_true_of_eq_false hgroup)).symm).trans (by rw [if_pos hown])
    · exact (execFrameMsg_up hup hhops (if_pos hgroup).symm).trans (by rw [if_neg hown])
    · exact (execFrameMsg_up hup hhops (if_neg (ne_true_of_eq_false hgroup)).symm).trans (by rw [if_neg hown])
  · intro g bytes cls v hv
    subst hv
    rfl
  · intro src p cls on l hl
    subst hl
    rfl
  · intro p cls i m n l hi hl hen hrate hn hocc hturn hlast hdue
    subst hn hl hi
    obtain ⟨hne, hserved⟩ := find?_orElse_head? hturn
    show execCreditIssue dt p cls s = _
    have hgo : ¬ (!(s.advance dt).flag F.FAB_CTL.EN 0 || (sget (s.advance dt).cgReq [] (p.val * 16 + cls)).isEmpty || decide ((s.advance dt).rate p = 0) ||
        decide ((s.advance dt).occ p cls ≥ (s.advance dt).fld F.FAB_CG.THRESH (p.val * 16 + cls))) = true := by
      rw [hen, hne, decide_eq_false hrate, decide_eq_false (Nat.not_le.mpr hocc)]
      decide
    simp only [execCreditIssue, if_neg hgo, hlast, if_true, if_neg (Nat.not_lt.mpr hdue), hserved, finish_eq]
  · intro n
    rfl
  · intro g
    rfl

end Sys2Proof.Proofs.Fabric
end

section
/-! DRAM (chapter 19), faults, the watchdog, the journal and interrupts (chapter 18). -/
namespace Sys2Proof.Proofs.FaultsAndInterrupts
open Sys2Proof Sys2Proof.Machine Sys2Proof.Safety

/-- A trained stack that is not calibrating serves the request it chooses. -/
theorem execDramRequest_serves {dt : Nat} {st : Fin 2} {cores : List (Nat × Bool)} {first : List Nat} {again : List (List Nat)} {i : Nat} {r : DramReq}
    {c : DramCh} {s v w : State} (hv : v = ((s.advance dt).coreReqs st cores).dramPromote st) (hc : c = sget v.dramCh {} st)
    (htrained : bit (v.reg .DRAM_STAT st 0) 0 = true) (hok : bit (v.reg .DRAM_STAT st 0) 1 = false) (hcal : c.calEnd ≤ v.now)
    (hchoose : c.choose = some i) (hreq : c.reqs[i]? = some r)
    (hw : w = { v with dramCh := sset v.dramCh st ({ c with reqs := c.reqs.eraseIdx i }.after r v.now) }) :
    execDramRequest dt st cores first again s =
      let x := (w.bump .DRAM_REQ (st * 4 + r.cls)).perfEv 12 1 st 0 r.cls 0 0
      finish (((if c.hit r then x.perfEv 13 1 st 0 r.cls 0 0 else x).dramEcc st r (first :: again)).dramCheck st r (first :: again)) := by
  subst hw hc
  have hgo : ¬ (!bit (v.reg .DRAM_STAT st 0) 0 || bit (v.reg .DRAM_STAT st 0) 1 || decide (v.now < (sget v.dramCh {} st).calEnd)) = true := by
    rw [htrained, hok, decide_eq_false (Nat.not_lt.mpr hcal)]
    decide
  unfold execDramRequest
  dsimp only
  rw [← hv, if_neg hgo, hchoose]
  dsimp only
  rw [hreq]

/-- Settles O36: the request that is served by whether its row is open, the others by their rows. -/
theorem dramServesAndRests : Obligations.DramServesAndRests := by
  unfold Obligations.DramServesAndRests
  intro dt s u hu
  subst hu
  refine ⟨?_, ?_, ?_, rfl⟩
  · intro st cores first again reads i r c v w x hreads hv hc htrained hok hcal hchoose hreq hw hx
    subst hreads hx
    have hexec := execDramRequest_serves (first := first) (again := again) hv hc htrained hok hcal hchoose hreq hw
    dsimp only at hexec
    refine ⟨fun hhit => ?_, fun hmiss => ?_⟩
    · show execDramRequest dt st cores first again s = _
      rw [hexec, if_pos hhit, finish_eq]
    · show execDramRequest dt st cores first again s = _
      rw [hexec, if_neg (ne_true_of_eq_false hmiss), finish_eq]
  · intro st c hc htrained hok hdue
    subst hc
    refine ⟨Config.free (s.advance dt).free % 1001, Nat.le_of_lt_succ (Nat.mod_lt _ (by decide)), ?_⟩
    show execDramCalibration dt st s = _
    have hgo : ¬ (!bit ((s.advance dt).reg .DRAM_STAT st 0) 0 || bit ((s.advance dt).reg .DRAM_STAT st 0) 1 ||
        decide ((s.advance dt).now < (sget (s.advance dt).dramCh {} st).calAt + 1000000000)) = true := by
      rw [htrained, hok, decide_eq_false (Nat.not_lt.mpr hdue)]
      decide
    simp only [execDramCalibration, if_neg hgo, State.fresh, finish_eq]
  · intro st row t c hc hrow hdue
    subst hc
    show execDramRowIdleClose dt st row s = _
    simp only [execDramRowIdleClose, hrow, if_neg (Nat.not_lt.mpr hdue), finish_eq]

/-- A write of 1 clears its bits one after the other; with one bit, that one. -/
theorem faultClear_single {u v : State} {w n b i : Nat} (hgone : (List.range 32).filter (bit (u.reg .FAULT_WORD 0 w &&& n)) = [b]) (hi : i = 32 * w + b)
    (hv : v = ((u.setReg .FAULT_WORD 0 w (u.reg .FAULT_WORD 0 w - (u.reg .FAULT_WORD 0 w &&& n))).irqSignal (64 + i) false).evtLine (32 + i) false) :
    u.faultClear w n = if v.flt.cond.contains i then v.raise i else { v with flt := { v.flt with watch := sdel v.flt.watch i } } := by
  subst hv hi
  simp only [State.faultClear, hgone, List.foldl_cons, List.foldl_nil]

/-- A write of 1 to bits that are clear clears nothing. -/
theorem faultClear_none {u : State} {w n : Nat} (hgone : u.reg .FAULT_WORD 0 w &&& n = 0) :
    u.faultClear w n = u.setReg .FAULT_WORD 0 w (u.reg .FAULT_WORD 0 w) := by
  have hnone : (List.range 32).filter (bit 0) = [] := by decide
  simp only [State.faultClear, hgone, hnone, List.foldl_nil, Nat.sub_zero]

/-- The two readings of a line's range. -/
theorem shadow_line_iff (i : Nat) : (decide (8 ≤ i) && decide (i < 12)) = decide (8 ≤ i ∧ i < 12) :=
  (Bool.decide_and _ _).symm

/-- The line that entering the safe state records with its cause. -/
def safeLine (u : State) : SafeCause → Nat
  | .escalation => u.escLine
  | .thermal => 39
  | _ => 0

/-- The device that is on enters the safe state with its cause and line. -/
theorem execSafeEntry_on {dt : Nat} {c : SafeCause} {s : State} (hon : (s.advance dt).pwr.on = true) :
    execSafeEntry dt c s = .next (State.settle ((s.advance dt).safeEnter c (safeLine (s.advance dt) c))) := by
  have hgo : ¬ (!(s.advance dt).pwr.on) = true := by rw [hon]; decide
  refine (if_neg hgo).trans ?_
  cases c <;> rfl

/-- Settles O37: each row of the fault unit by its guard. -/
theorem faultLinesLatchAndEscalate : Obligations.FaultLinesLatchAndEscalate := by
  unfold Obligations.FaultLinesLatchAndEscalate
  intro dt s u hu
  subst hu
  refine ⟨?_, ?_, ?_, ?_, ?_, ?_, ?_, ?_, ?_⟩
  · intro i stays at_ v w hown hv hw
    subst hw hv
    show execFaultLineLatch dt i stays at_ s = _
    simp only [execFaultLineLatch, if_neg (ne_true_of_eq_false hown), shadow_line_iff, decide_eq_true_eq, finish_eq]
  · intro w x hgone
    show execFaultWordClear dt w x s = _
    simp only [execFaultWordClear, faultClear_none hgone, finish_eq]
  · intro i b w x v hgone hi hv
    have hclear := faultClear_single hgone hi hv
    refine ⟨fun hcond => ?_, fun hcond => ?_⟩
    · show execFaultWordClear dt w x s = _
      rw [execFaultWordClear, hclear, if_pos hcond, finish_eq]
    · show execFaultWordClear dt w x s = _
      rw [execFaultWordClear, hclear, if_neg (ne_true_of_eq_false hcond), finish_eq]
  · intro hon
    show execCollectorMismatch dt s = _
    simp only [execCollectorMismatch, hon, Bool.not_true, Bool.false_eq_true, if_false, finish_eq]
  · intro i t v hwatch hdue hv
    refine ⟨fun hset hsafe hcopy => ?_, fun hclear => ?_⟩
    · show execWatchExpiry dt i s = _
      have hgo : ¬ (!bit v.faultWord i || v.flt.safe || !v.flt.copyOk) = true := by
        have hsafe' : v.flt.safe = false := by rw [hv]; exact hsafe
        have hcopy' : v.flt.copyOk = true := by rw [hv]; exact hcopy
        rw [hset, hsafe', hcopy']
        decide
      subst hv
      simp only [execWatchExpiry, hwatch, if_neg (Nat.not_lt.mpr hdue), finish_eq]
      exact if_neg hgo
    · show execWatchExpiry dt i s = _
      have hstop : (!bit v.faultWord i || v.flt.safe || !v.flt.copyOk) = true := by rw [hclear]; rfl
      subst hv
      simp only [execWatchExpiry, hwatch, if_neg (Nat.not_lt.mpr hdue), finish_eq]
      exact if_pos hstop
  · intro hstage hdue
    show execEscalationClear dt s = _
    have hgo : ¬ (decide ((s.advance dt).escStage = 0) ||
        decide ((s.advance dt).now < sget (s.advance dt).flt.lastAt 0 (s.advance dt).escLine + 60000000000)) = true := by simp [hstage, hdue]
    simp only [execEscalationClear, if_neg hgo, finish_eq]
  · exact fun hon => execSafeEntry_on hon
  · exact fun hon => execSafeEntry_on hon
  · intro c hesc hthermal hon
    refine (execSafeEntry_on hon).trans ?_
    cases c with
    | escalation => exact absurd rfl hesc
    | thermal => exact absurd rfl hthermal
    | _ => rfl

/-- Settles O38: the key value, the warning, and the expiry by the count of resets. -/
theorem watchdogWarnsAndResets : Obligations.WatchdogWarnsAndResets := by
  unfold Obligations.WatchdogWarnsAndResets
  intro dt s u hu
  subst hu
  refine ⟨?_, ?_, ?_, ?_⟩
  · intro v hv
    show execKick dt v s = _
    have hkey : v.toNat ≠ 0x4B49 := fun h => hv (BitVec.eq_of_toNat_eq h)
    have hstop : (decide (v.toNat ≠ 0x4B49) || (s.advance dt).flt.wdogAt.isNone) = true := by
      rw [decide_eq_true hkey, Bool.true_or]
    rw [execKick, State.kickWrite, if_pos hstop, finish_eq]
  · intro hrun
    show execKick dt 0x4B49#16 s = _
    have hgo : ¬ (decide ((0x4B49#16 : BitVec 16).toNat ≠ 0x4B49) || (s.advance dt).flt.wdogAt.isNone) = true := by
      rw [Option.isNone_eq_false_iff.mpr hrun]
      decide
    rw [execKick, State.kickWrite, if_neg hgo, finish_eq]
  · intro t hrun hwarned hdue
    show execWdogWarn dt s = _
    have hgo : ¬ ((s.advance dt).flt.warned || decide ((s.advance dt).now < t + (s.advance dt).wdogNs / 2)) = true := by simp [hwarned, hdue]
    simp only [execWdogWarn, hrun, if_neg hgo, finish_eq]
  · intro t v w hrun hdue hv hw
    have hexec : execWatchdog dt s = if min 3 (v.fld F.FLT_ESC.WDOG_RESETS 0 + 1) ≥ 3 then .next (State.settle (w.safeEnter .watchdog 0))
        else .next (State.settle (w.doReset false 6 false)) := by
      subst hw hv
      simp only [execWatchdog, hrun, if_neg (Nat.not_lt.mpr hdue), finish_eq]
    exact ⟨fun hfew => hexec.trans (if_neg (by omega)), fun hmany => hexec.trans (if_pos (by omega))⟩

/-- Settles O39: the journal by its queue, claim and complete by the sources of their target, the rest by their rows. -/
theorem journalAndInterruptsAct : Obligations.JournalAndInterruptsAct := by
  unfold Obligations.JournalAndInterruptsAct
  intro dt s u hu
  subst hu
  refine ⟨?_, ?_, ?_, ?_, ?_, ?_, ?_, ?_, fun t => rfl⟩
  · intro hfresh hdue
    show execJournalSignTimer dt s = _
    have hgo : ¬ (!(s.advance dt).journal.fresh || decide ((s.advance dt).now < (s.advance dt).journal.signAt + 60000000000)) = true := by
      simp [hfresh, hdue]
    simp only [execJournalSignTimer, if_neg hgo, finish_eq]
  · intro hq
    show execJournalEntryWrite dt s = _
    simp only [execJournalEntryWrite, State.jDrain, hq, finish_eq]
  · intro t c f p q v hq hv hdropped
    show execJournalEntryWrite dt s = _
    have hnone : ¬ (decide (v.journal.dropped > 0) && decide (q.length < 2048)) = true := by simp [hdropped]
    subst hv
    simp only [execJournalEntryWrite, State.jDrain, hq, if_neg hnone, finish_eq]
  · intro i level
    refine ⟨fun hused => ?_, fun hunused => ?_⟩
    · show execSourceEvent dt i level s = _
      simp only [execSourceEvent, if_pos hused, finish_eq]
    · show execSourceEvent dt i level s = _
      simp only [execSourceEvent, if_neg (ne_true_of_eq_false hunused), finish_eq]
  · intro t
    refine ⟨fun hnone => ?_, fun i v hbest hv => ?_⟩
    · show execIrqClaim dt t s = _
      simp only [execIrqClaim, State.irqClaim, hnone, finish_eq]
    · subst hv
      show execIrqClaim dt t s = _
      simp only [execIrqClaim, State.irqClaim, hbest, finish_eq]
  · intro t i l hl
    subst hl
    refine ⟨fun hactive => ?_, fun hnone => ?_⟩
    · show execIrqComplete dt t i s = _
      rw [execIrqComplete, State.irqComplete, if_pos hactive, finish_eq]
    · show execIrqComplete dt t i s = _
      rw [execIrqComplete, State.irqComplete, if_neg (ne_true_of_eq_false hnone), finish_eq]
  · intro g t hfirst hdue
    show execCoalesceRelease dt g s = _
    have htime : (if (s.advance dt).fld F.IRQ_GROUP.TIME_US g = 0 then 1 else (s.advance dt).fld F.IRQ_GROUP.TIME_US g) =
        max 1 ((s.advance dt).fld F.IRQ_GROUP.TIME_US g) := by
      split <;> omega
    simp only [execCoalesceRelease, hfirst, htime, if_neg (Nat.not_lt.mpr hdue), finish_eq]
  · intro i a t ht hstale hms hasleep hdue
    subst ht
    show execStaleDelivery dt i s = _
    have hgo : ¬ (decide ((s.advance dt).fld F.IRQ_TGT.STALE_MS ((s.advance dt).irqTarget0 i) = 0) ||
        !(s.advance dt).irq.asleep.contains ((s.advance dt).irqTarget0 i) ||
        decide ((s.advance dt).now < a + 1000000 * (s.advance dt).fld F.IRQ_TGT.STALE_MS ((s.advance dt).irqTarget0 i))) = true := by
      rw [decide_eq_false hms, hasleep, decide_eq_false (Nat.not_lt.mpr hdue)]
      decide
    simp only [execStaleDelivery, hstale, if_neg hgo, finish_eq]

end Sys2Proof.Proofs.FaultsAndInterrupts
end

section
/-! Supply, starts, resets and proofs (chapter 17). -/
namespace Sys2Proof.Proofs.SupplyAndStarts
open Sys2Proof Sys2Proof.Machine Sys2Proof.Safety

/-- HOLD entered: in the safe state only closure follows; else warning, and closure or the first stages. -/
theorem execHoldEntry_on {dt mv : Nat} {s v : State} (hon : (s.advance dt).pwr.on = true) (hstore : (s.advance dt).pwr.onStore = false)
    (hv : v = State.setStore { s.advance dt with pwr := { (s.advance dt).pwr with onStore := true, chargeAt := none } } mv) :
    execHoldEntry dt mv s =
      if v.flt.safe then finish (if mv < 44000 then v.closeDown mv else v)
      else finish (if mv < 44000 then (((v.setPower 3).warn).pulse 1).closeDown mv else State.runStages 4 (((v.setPower 3).warn).pulse 1)) := by
  have hgo : ¬ (!(s.advance dt).pwr.on || (s.advance dt).pwr.onStore) = true := by rw [hon, hstore]; decide
  subst hv
  exact if_neg hgo

/-- HOLD left: in the safe state a deferred reset follows; else a warm reset where the host interface is not ready, or the return to the measured stage. -/
theorem execHoldExit_on {dt : Nat} {s v : State} (hon : (s.advance dt).pwr.on = true) (hstore : (s.advance dt).pwr.onStore = true)
    (hv : v = State.warnRelease { s.advance dt with pwr := { (s.advance dt).pwr with
      onStore := false
      chargeAt := if (s.advance dt).flag F.PWR_STAT.VIN_LOW 0 then none else some (s.advance dt).now
      undoAt := if (s.advance dt).pwr.shedDone = 0 then none else some (s.advance dt).now } }) :
    execHoldExit dt s =
      if v.flt.safe then finish v.deferredReset
      else if !v.ready 0 then finish (v.warmReset 8 false)
      else finish (v.setPower v.measured).endMeasures.deferredReset.clockBack := by
  have hgo : ¬ (!(s.advance dt).pwr.on || !(s.advance dt).pwr.onStore) = true := by rw [hon, hstore]; decide
  subst hv
  exact if_neg hgo

/-- The store is at fault where its condition holds: charged too late, or its capacitance low. -/
theorem execStoreFault_on {dt mv : Nat} {low : Bool} {s v : State} (hon : (s.advance dt).pwr.on = true) (hv : v = (s.advance dt).setStore mv) :
    execStoreFault dt mv low s =
      if (if low then decide (v.pwr.cap ≠ 0 ∧ v.pwr.cap < 900000) else v.chargeLate mv) then
        finish ((v.setFld F.PWR_STAT.STORE_FAULT 0 1).warn.irqSignal 3 true)
      else finish v := by
  have hgo : ¬ (!(s.advance dt).pwr.on) = true := by rw [hon]; decide
  subst hv
  exact if_neg hgo

/-- When a store that began to charge at an instant is late. -/
theorem chargeLate_iff {v : State} {mv t : Nat} (hcharge : v.pwr.chargeAt = some t) :
    v.chargeLate mv = true ↔ t + 25000000000 ≤ v.now ∧ mv < 80000 := by
  rw [State.chargeLate, hcharge, Option.map_some, Option.getD_some, Bool.and_eq_true, decide_eq_true_eq, decide_eq_true_eq]

/-- Settles O40: each row of the supply by its guard. -/
theorem supplyEventsTakeTheirStates : Obligations.SupplyEventsTakeTheirStates := by
  unfold Obligations.SupplyEventsTakeTheirStates
  intro dt mv s u hu hon
  subst hu
  refine ⟨?_, ?_, ?_, ?_, ?_, ?_, ?_, ?_, ?_, ?_, ?_⟩
  · show execVinDipShort dt s = _
    rw [execVinDipShort, if_pos hon, finish_eq]
  · show execStoreArmed dt mv s = _
    rw [execStoreArmed, if_pos hon, finish_eq]
  · intro v hstore hv
    have hexec := execHoldEntry_on hon hstore hv
    refine ⟨fun hsafe hmv => ?_, fun hsafe hmv => ?_, fun hsafe hmv => ?_, fun hsafe hmv => ?_⟩
    · refine (hexec.trans (if_pos hsafe)).trans ?_
      rw [if_neg (Nat.not_lt.mpr hmv), finish_eq]
    · refine (hexec.trans (if_pos hsafe)).trans ?_
      rw [if_pos hmv, finish_eq]
    · refine (hexec.trans (if_neg (ne_true_of_eq_false hsafe))).trans ?_
      rw [if_pos hmv, finish_eq]
    · refine (hexec.trans (if_neg (ne_true_of_eq_false hsafe))).trans ?_
      rw [if_neg (Nat.not_lt.mpr hmv), finish_eq]
  · intro hpower
    exact if_neg (not_not_intro hpower)
  · intro v hstore hv
    have hexec := execHoldExit_on hon hstore hv
    refine ⟨fun hsafe => hexec.trans (if_pos hsafe), fun hsafe hready => ?_, fun hsafe hready => ?_⟩
    · refine (hexec.trans (if_neg (ne_true_of_eq_false hsafe))).trans ?_
      rw [hready]
      rfl
    · refine (hexec.trans (if_neg (ne_true_of_eq_false hsafe))).trans ?_
      rw [hready]
      rfl
  · intro t k v hundo hstore hdone hdue hv
    subst hv
    show execShedUndo dt s = _
    have hgo : ¬ ((s.advance dt).pwr.onStore || decide (k + 1 = 0) || decide ((s.advance dt).now < t + 1000000)) = true := by simp [hstore, hdue]
    simp only [execShedUndo, hundo, hdone, if_neg hgo, Nat.add_sub_cancel, finish_eq]
  · intro hhigh hstore hlo hhi
    have hgo : ¬ (!(s.advance dt).pwr.on || !(s.advance dt).pwr.high || (s.advance dt).pwr.onStore || decide (mv < 16500) || decide (mv ≥ 18000)) = true := by
      rw [hon, hhigh, hstore, decide_eq_false (Nat.not_lt.mpr hlo), decide_eq_false (Nat.not_le.mpr hhi)]
      decide
    exact if_neg hgo
  · intro hlow hstore hmv
    have hgo : ¬ (!(s.advance dt).flag F.PWR_STAT.VIN_LOW 0 || (s.advance dt).pwr.onStore || decide (mv < 18500)) = true := by
      rw [hlow, hstore, decide_eq_false (Nat.not_lt.mpr hmv)]
      decide
    exact if_neg hgo
  · intro v hv
    refine ⟨fun low hfault => (execStoreFault_on hon hv).trans (if_pos ?_), fun hgood => (execStoreFault_on hon hv).trans (if_neg ?_),
      fun hgood => (execStoreFault_on hon hv).trans (if_neg ?_), fun t hcharge => chargeLate_iff hcharge⟩
    · rcases hfault with ⟨rfl, hlate⟩ | ⟨rfl, hcap⟩
      · exact hlate
      · exact decide_eq_true hcap
    · exact ne_true_of_eq_false hgood
    · rw [if_pos rfl, decide_eq_true_eq]
      omega
  · intro hstore hmv
    have hgo : ¬ (!(s.advance dt).pwr.on || !(s.advance dt).pwr.onStore || decide (mv > 40000)) = true := by
      rw [hon, hstore, decide_eq_false (Nat.not_lt.mpr hmv)]
      decide
    exact if_neg hgo
  · intro die stage v hhot hv
    subst hv
    have hgo : ¬ (!(s.advance dt).pwr.on || (decide (die < 115 * 256) && decide (stage < 135 * 256))) = true := by
      rw [hon]
      simp only [Bool.not_true, Bool.false_or, Bool.and_eq_true, decide_eq_true_eq]
      omega
    exact if_neg hgo

/-- A start, a reset pin, or another row that needs the device on, as its guard allows. -/
theorem guard_on {b : Bool} (hon : b = true) : ¬ (!b) = true := by
  rw [hon]
  decide

/-- What the starter does with the store it read: erases an owner whose secret is gone, begins the journal's chain, measures, and tries the slots. -/
def starterGoesOn (x : State) : Out :=
  let y : State := if x.sec.udsKill && x.sec.lifecycle ≠ 3 then { x with sec := { ownerGone x.sec with lifecycle := 3 } } else x
  let v : State := { y with journal := { y.journal with chain := Config.shake256 (([0x5A, 0x4B, 0x34, 0x38, 0x31, 0x36, 0x20, 0x4A,
    0x4F, 0x55, 0x52, 0x4E, 0x41, 0x4C] : Bytes) ++ deviceId ++ toLE y.journal.seq 8) } }
  let (d, w) := v.freshBytes 64
  finish ((((((w.extend 0 0 d).extend5).setFld F.SEC_BOOT.TRY_B 0 0).setFld F.SEC_BOOT.A_RESULT 0 0).setFld F.SEC_BOOT.B_RESULT 0 0).trySlots
    (if ((w.extend 0 0 d).extend5).flag F.SEC_BOOT.TRY_B 0 then [true, false] else [false, true]))

/-- The starter runs once at the first stage, on what is left of the store when its bad entries are discarded. -/
theorem execStarterRun_runs {dt : Nat} {a b : Option Image} {bad : List StoreItem} {s x v w : State} {d : Bytes} (hon : (s.advance dt).pwr.on = true)
    (hstore : (s.advance dt).pwr.onStore = false) (hrun : (s.advance dt).sec.running = none) (hstage : (s.advance dt).fld F.HOST_READY.STAGE 0 = 0)
    (hx : x = bad.foldl State.storeBad { s.advance dt with sec := { (s.advance dt).sec with slotA := a, slotB := b } })
    (hkeep : x.sec.udsKill = false ∨ x.sec.lifecycle = 3)
    (hv : v = { x with journal := { x.journal with chain := Config.shake256 (([0x5A, 0x4B, 0x34, 0x38, 0x31, 0x36, 0x20, 0x4A,
      0x4F, 0x55, 0x52, 0x4E, 0x41, 0x4C] : Bytes) ++ deviceId ++ toLE x.journal.seq 8) } }) (hw : v.freshBytes 64 = (d, w)) :
    execStarterRun dt (a, b) bad s = finish ((((((w.extend 0 0 d).extend5).setFld F.SEC_BOOT.TRY_B 0 0).setFld
      F.SEC_BOOT.A_RESULT 0 0).setFld F.SEC_BOOT.B_RESULT 0 0).trySlots
      (if ((w.extend 0 0 d).extend5).flag F.SEC_BOOT.TRY_B 0 then [true, false] else [false, true])) := by
  have hgo : ¬ (!(s.advance dt).pwr.on || (s.advance dt).pwr.onStore || (s.advance dt).sec.running.isSome ||
      decide ((s.advance dt).fld F.HOST_READY.STAGE 0 ≠ 0)) = true := by
    rw [hon, hstore, hrun, hstage]
    decide
  have hlive : ¬ (x.sec.udsKill && decide (x.sec.lifecycle ≠ 3)) = true := by
    rcases hkeep with h | h <;> simp [h]
  have hruns : execStarterRun dt (a, b) bad s = starterGoesOn x := by
    subst hx
    exact if_neg hgo
  rw [hruns, starterGoesOn, if_neg hlive]
  dsimp only
  rw [← hv, hw]

section Proof
variable {dt : Nat} {s : State} {f : Fn}

/-- A proof that is done and was not waited for by a fault line posts READY. -/
theorem execProofDone_ready (hmay : (s.advance dt).mayProof f = true) (hready : (s.advance dt).ready f.bit = false) (hlines : (s.advance dt).proofLines f = [])
    (htries : sget (s.advance dt).tries 0 f.code < 2) :
    execProofDone dt f s = finish (State.fnReady { s.advance dt with proofAt := sset (s.advance dt).proofAt f.code (s.advance dt).now } f).clockBack := by
  have hgo : ¬ (!(s.advance dt).mayProof f || (false && true) || (decide (sget (s.advance dt).tries 0 f.code ≥ 2) && true)) = true := by
    rw [hmay, decide_eq_false (Nat.not_le.mpr htries)]
    decide
  simp only [execProofDone, hlines, List.isEmpty_nil, hready, if_neg hgo, List.foldl_nil, Bool.false_eq_true, if_false]

/-- A limit that is not missed yet does nothing; a missed one runs the proof again, and the second raises PROOF_FAIL. -/
theorem execProofTimeout_eq (hmay : (s.advance dt).mayProof f = true) (hready : (s.advance dt).ready f.bit = false)
    (hlines : (s.advance dt).proofLines f = []) (htries : sget (s.advance dt).tries 0 f.code < 2) {v : State}
    (hv : v = { s.advance dt with
      tries := sset (s.advance dt).tries f.code (sget (s.advance dt).tries 0 f.code + 1)
      proofAt := sset (s.advance dt).proofAt (16 + f.code) (s.advance dt).now }) :
    execProofTimeout dt f s = if (s.advance dt).proofLate f = false then finish (s.advance dt)
      else finish (if sget (s.advance dt).tries 0 f.code + 1 ≥ 2 then v.raise 19 else v) := by
  subst hv
  simp only [execProofTimeout, hmay, hlines, List.isEmpty_nil, hready, decide_eq_false (Nat.not_le.mpr htries), Bool.not_true, Bool.false_eq_true,
    if_false, Bool.or_self, Bool.false_or, Bool.not_eq_true', ge_iff_le]

end Proof

/-- Settles O41: each start and reset by its guard, the starter, the proofs and their limits, and the wake. -/
theorem startsResetsAndProofs : Obligations.StartsResetsAndProofs := by
  unfold Obligations.StartsResetsAndProofs
  intro dt s u hu
  subst hu
  refine ⟨?_, ?_, ?_, ?_, ?_, ?_, ?_, ?_, ?_⟩
  · intro mv high straps cfg v hoff hcool hmv hv
    subst hv
    have hgo : ¬ ((s.advance dt).pwr.on || (s.advance dt).pwr.thermal || decide (mv < (if high then 19500 else 36000))) = true := by
      rw [hoff, hcool, decide_eq_false (Nat.not_lt.mpr hmv)]
      decide
    exact if_neg hgo
  · intro hot mv v hoff hthermal hhot hmv hv
    subst hv
    have hgo : ¬ ((s.advance dt).pwr.on || !(s.advance dt).pwr.thermal || decide (hot > 90 * 256) || decide (mv < (s.advance dt).startMv)) = true := by
      rw [hoff, hthermal, decide_eq_false (not_lt.mpr hhot), decide_eq_false (Nat.not_lt.mpr hmv)]
      decide
    exact if_neg hgo
  · exact fun straps cfg hon => if_neg (guard_on hon)
  · exact fun straps hon => if_neg (guard_on hon)
  · intro tryB hon
    refine ⟨?_, ?_⟩
    · show execWarmResetRequest dt tryB s = _
      rw [execWarmResetRequest, if_pos hon, finish_eq]
    · show execColdResetRequest dt tryB s = _
      rw [execColdResetRequest, if_pos hon, finish_eq]
  · intro a b bad x v w d hon hstore hrun hstage hx hkeep hv hw
    exact execStarterRun_runs hon hstore hrun hstage hx hkeep hv hw
  · intro f hmay hready hlines htries
    have hexec := execProofTimeout_eq hmay hready hlines htries rfl
    refine ⟨execProofDone_ready hmay hready hlines htries, fun hearly => hexec.trans (if_pos hearly), fun hlate hfirst => ?_, fun hlate hsecond => ?_⟩
    · show execProofTimeout dt f s = _
      rw [hexec, hlate, hfirst]
      rfl
    · show execProofTimeout dt f s = _
      rw [hexec, hlate, hsecond]
      rfl
  · intro m
    exact ⟨fun hok => if_pos hok, fun hno => if_neg (ne_true_of_eq_false hno)⟩
  · intro pl c v w hgated hpower hwakes hv hw
    subst hw hv
    have hgo : ¬ (!(s.advance dt).pwr.gated.contains pl.val || decide ((s.advance dt).power ≥ 3) || !(s.advance dt).wakes pl c) = true := by
      rw [hgated, hwakes, decide_eq_false (Nat.not_le.mpr hpower)]
      decide
    refine (if_neg hgo).trans ?_
    simp only [Bool.or_eq_true, decide_eq_true_eq, finish_eq]

end Sys2Proof.Proofs.SupplyAndStarts
end

section
/-! Registers, doorbells and the host DMA (chapters 16 and 19), the console, the test port and the security rows of no mailbox (chapter 15). -/
namespace Sys2Proof.Proofs.RegistersAndPins
open Sys2Proof Sys2Proof.Machine Sys2Proof.Safety

/-- A register word of the tables is well formed by its index and word alone. -/
theorem wf_of_not_held {a : RegAddr} (hheld : a.held = none) : RegAddr.wf { reg := a.reg, idx := a.idx, word := a.word } = a.wf := by
  obtain ⟨r, i, w, h⟩ := a
  subst hheld
  rfl

section TransmitSlot
variable {dt : Nat} {k : Fin 8} {t x : TxSlot} {s : State}

/-- The slot of the ring whose turn it is: refused for a failed read or a bad count, else its frame is injected. -/
theorem execHdmaTxFrame_turn (hready : (s.advance dt).ready 13 = true) (hturn : (s.advance dt).txTurn = some k.val)
    (hx : x = ((s.advance dt).ring k).held.getD t) :
    execHdmaTxFrame dt k t s =
      if x.dmaErr then finish ((s.advance dt).txDone k 2)
      else if x.count < 60 || x.count > 16380 then finish ((s.advance dt).txDone k 1)
      else match (if x.changed then (s.advance dt).freshBytes x.count else (fit x.count x.bytes, s.advance dt)) with
        | (b, w) =>
          match w.inject 40 (x.pipeline.getD ((s.advance dt).fld F.HDMA_TX.PIPELINE k) % 4) b with
          | some v => finish (v.txDone k 0)
          | none => finish (w.setRing k { w.ring k with held := some x }) := by
  have hgo : ¬ (!(s.advance dt).ready 13 || decide ((s.advance dt).txTurn ≠ some k.val)) = true := by
    rw [hready, decide_eq_false (not_not_intro hturn)]
    decide
  subst hx
  exact if_neg hgo

/-- A good slot's frame enters P40, or is held back. -/
theorem execHdmaTxFrame_good {b : Bytes} {w : State} (hready : (s.advance dt).ready 13 = true) (hturn : (s.advance dt).txTurn = some k.val)
    (hx : x = ((s.advance dt).ring k).held.getD t) (hdma : x.dmaErr = false) (hmin : 60 ≤ x.count) (hmax : x.count ≤ 16380)
    (hb : (if x.changed then (s.advance dt).freshBytes x.count else (fit x.count x.bytes, s.advance dt)) = (b, w)) :
    execHdmaTxFrame dt k t s =
      match w.inject 40 (x.pipeline.getD ((s.advance dt).fld F.HDMA_TX.PIPELINE k) % 4) b with
      | some v => finish (v.txDone k 0)
      | none => finish (w.setRing k { w.ring k with held := some x }) := by
  have hgo : ¬ (decide (x.count < 60) || decide (x.count > 16380)) = true := by
    rw [decide_eq_false (Nat.not_lt.mpr hmin), decide_eq_false (Nat.not_lt.mpr hmax)]
    decide
  rw [execHdmaTxFrame_turn hready hturn hx, if_neg (ne_true_of_eq_false hdma), if_neg hgo, hb]

end TransmitSlot

/-- Settles O42: each register row and doorbell by its guard, the transmit slot by its DMA, its count and its port. -/
theorem registersAndDoorbellsAct : Obligations.RegistersAndDoorbellsAct := by
  unfold Obligations.RegistersAndDoorbellsAct
  intro dt s u hu
  subst hu
  refine ⟨?_, fun off v => rfl, ?_, fun b => rfl, fun n w v => rfl, ?_, ?_, rfl, ?_, ?_⟩
  · intro a v hwf hheld
    have hgo : ¬ (!RegAddr.wf { reg := a.reg, idx := a.idx, word := a.word }) = true := by
      rw [wf_of_not_held hheld, hwf]
      decide
    show execRegisterWrite dt (.firmware a.reg a.idx) a.word v s = _
    simp only [execRegisterWrite, if_neg hgo, finish_eq]
  · intro a v t hwf hheld hread
    have hgo : ¬ (!a.wf || a.held.isSome) = true := by
      rw [hwf, hheld]
      decide
    show execRcRead dt a s = _
    simp only [execRcRead, if_neg hgo, hread, finish_eq]
  · intro ch hen
    have hgo : ¬ (!(s.advance dt).mbxEn ch) = true := by
      rw [hen]
      decide
    refine ⟨fun pi hfit => ?_, fun pi hfar => ?_, fun ci hfit => ?_, fun ci hfar => ?_, if_pos hen⟩
    · exact (if_neg hgo).trans (if_neg (Nat.not_lt.mpr hfit))
    · exact (if_neg hgo).trans (if_pos hfar)
    · exact (if_neg hgo).trans (if_neg (Nat.not_lt.mpr hfit))
    · exact (if_neg hgo).trans (if_pos hfar)
  · intro t htxn hown hcommit hdue
    have hgo : ¬ (t.own || t.commit || decide ((s.advance dt).now < t.last + 10000000000)) = true := by
      rw [hown, hcommit, decide_eq_false (Nat.not_lt.mpr hdue)]
      decide
    show execTxnLapse dt s = _
    simp only [execTxnLapse, htxn, if_neg hgo, finish_eq]
  · intro k pi ch
    refine ⟨fun hen => ?_, fun hen => ?_⟩
    · show execHdmaTxDoorbell dt k pi s = _
      simp only [execHdmaTxDoorbell, hen, Bool.not_true, Bool.false_eq_true, if_false, finish_eq]
    · show execHdmaRxDoorbell dt k { pi := pi, changed := ch } s = _
      simp only [execHdmaRxDoorbell, hen, Bool.not_true, Bool.false_eq_true, if_false, finish_eq]
  · intro k t x hready hturn hx
    refine ⟨fun hdma => ?_, fun hdma hcount => ?_, fun hdma hmin hmax b w hb => ⟨fun v hinject => ?_, fun hinject => ?_⟩⟩
    · exact (execHdmaTxFrame_turn hready hturn hx).trans (if_pos hdma)
    · have hbad : (decide (x.count < 60) || decide (x.count > 16380)) = true := by simpa using hcount
      exact ((execHdmaTxFrame_turn hready hturn hx).trans (if_neg (ne_true_of_eq_false hdma))).trans (if_pos hbad)
    · show execHdmaTxFrame dt k t s = _
      rw [execHdmaTxFrame_good hready hturn hx hdma hmin hmax hb, hinject]
      rfl
    · show execHdmaTxFrame dt k t s = _
      rw [execHdmaTxFrame_good hready hturn hx hdma hmin hmax hb, hinject]
      rfl

/-- Writing one value at several places: each place then holds it. -/
theorem sfind_foldl_sset {α β : Type} (f : β → Nat) (x : α) (l : List β) (m : Sparse α) {j : Nat} (h : (∃ c ∈ l, f c = j) ∨ sfind m j = some x) :
    sfind (l.foldl (fun m c => sset m (f c) x) m) j = some x := by
  induction l generalizing m with
  | nil => exact h.resolve_left (fun ⟨c, hc, _⟩ => absurd hc List.not_mem_nil)
  | cons c l ih =>
    refine ih (sset m (f c) x) ?_
    by_cases hj : j = f c
    · exact .inr (hj ▸ sfind_sset_self m (f c) x)
    · rcases h with ⟨d, hd, hfd⟩ | hm
      · rcases List.mem_cons.mp hd with rfl | hd
        · exact absurd hfd.symm hj
        · exact .inl ⟨d, hd, hfd⟩
      · exact .inr ((sfind_sset_ne m (f c) j x hj).trans hm)

/-- The receive SCs an installation keeps: at most four. -/
def keptScs (scs : List Nat) : List Nat := ((scs.map (· % 18446744073709551616)).eraseDups).take 4

/-- A SAK installed under an association number, for transmission and for the receive SCs that are kept. -/
def saInstalled (v : State) (p an : Nat) (scs : List Nat) (k : Bytes) : State :=
  { v with
    txSa := sset v.txSa (4 * p + an) { key := k }
    rxSa := (keptScs scs).foldl (fun m c => sset m (saKey p c an) { key := k }) (v.rxSa.filter fun e =>
      e.1 / 73786976294838206464 != p || (keptScs scs).contains (e.1 / 4 % 18446744073709551616)) }

/-- Outside VENDOR, with keys ready, the SAK that MKA gives is installed. -/
theorem execSakInstallDone_installs {dt : Nat} {p : Fin 32} {an : Fin 4} {cak : Fin 64} {scs : List Nat} {mka : Option MkaPdu} {k : Bytes} {s v : State}
    (hdebug : (s.advance dt).sec.debug ≠ 1) (hready : (s.advance dt).ready 1 = true) (hsak : (s.advance dt).sakOf cak mka = some (k, v)) :
    execSakInstallDone dt p { an := an, cak := cak, scs := scs, mka := mka } s = .next (State.settle (saInstalled v p an scs k)) := by
  have hgo : ¬ (decide ((s.advance dt).sec.debug = 1) || !(s.advance dt).ready 1) = true := by
    rw [decide_eq_false hdebug, hready]
    decide
  simp only [execSakInstallDone, if_neg hgo, hsak, finish_eq]
  rfl

/-- Each receive SC that is kept has the SAK. -/
theorem saInstalled_rxSa {v : State} {p an : Nat} {scs : List Nat} {k : Bytes} {c : Nat} (hc : c ∈ keptScs scs) :
    sfind (saInstalled v p an scs k).rxSa (saKey p c an) = some { key := k } := by
  unfold saInstalled
  exact sfind_foldl_sset (fun c => saKey p c an) _ _ _ (.inl ⟨c, hc, rfl⟩)

section TestPort
variable {dt : Nat} {s : State}

/-- While the device is on, an access of the test port goes by its kind. -/
theorem jtag_on (hon : (s.advance dt).pwr.on = true) : ¬ (!(s.advance dt).pwr.on) = true := by
  rw [hon]
  decide

/-- The debug port reads a register outside SEC in every debug state but LOCKED. -/
theorem execJtagAccess_readReg {a : RegAddr} {v : Nat} {t : State} (hon : (s.advance dt).pwr.on = true) (hdebug : (s.advance dt).sec.debug ≠ 0)
    (ha : a.outsideSec = true)
    (hread : State.rawRead (if (s.advance dt).addrStopped a then (s.advance dt).undefined .stoppedClock else s.advance dt) a = (v, t)) :
    execJtagAccess dt (.readReg a) s = .next (State.settle { t with rd := [w32 v] }) := by
  have hgo : ¬ (decide ((s.advance dt).sec.debug = 0) ||
      !(a.outsideSec || (decide ((s.advance dt).sec.debug = 1) && a.wf && decide (a.reg = .SEC_STATE)))) = true := by
    rw [decide_eq_false hdebug, ha, Bool.true_or]
    decide
  simp only [execJtagAccess, if_neg (jtag_on hon), if_neg hgo, hread, finish_eq]

end TestPort

/-- Settles O43: the serial ports, the test port by its accesses and debug states, and the security rows of no mailbox. -/
theorem pinsAndSecurityEventsAct : Obligations.PinsAndSecurityEventsAct := by
  unfold Obligations.PinsAndSecurityEventsAct
  intro dt s u hu
  subst hu
  refine ⟨?_, ?_, ?_, ?_, ?_, rfl, rfl, ?_, ?_⟩
  · intro ptr n l v t hon hv hrun
    subst hv
    show execI2cRead dt ptr n s = _
    simp only [execI2cRead, if_neg (jtag_on hon), hrun, finish_eq]
  · intro m hm
    show execUartCommand dt .ready s = _
    simp only [execUartCommand, hm, Option.isNone_some, Bool.false_eq_true, if_false, finish_eq]
  · intro m hm
    refine ⟨?_, fun hdebug => ?_⟩
    · show execUartCommand dt .other s = _
      simp only [execUartCommand, hm, Option.isNone_some, Bool.false_eq_true, if_false, finish_eq]
    · show execUartCommand dt .zeinekTest s = _
      simp only [execUartCommand, hm, Option.isNone_some, Bool.false_eq_true, if_false, if_neg hdebug, finish_eq]
  · intro hon
    have hgo := jtag_on hon
    refine ⟨if_neg hgo, if_neg hgo, if_neg hgo, ?_, if_neg hgo, if_neg hgo, ?_, ?_, ?_, ?_, ?_, ?_⟩
    · intro sig own st t hunlock
      show execJtagAccess dt (.unlock sig own) s = _
      simp only [execJtagAccess, if_neg hgo, hunlock, finish_eq]
    · intro level c t hlevel hrng hc
      show execJtagAccess dt (.challenge level) s = _
      have hok : ¬ ((decide (level ≠ 1) && decide (level ≠ 2)) || (s.advance dt).sec.rngFail) = true := by
        rcases hlevel with rfl | rfl <;> simp [hrng]
      simp only [execJtagAccess, if_neg hgo, if_neg hok, hc, finish_eq]
    · intro hlocked
      refine ⟨fun a => ?_, fun a b => ?_⟩
      · show execJtagAccess dt (.readReg a) s = _
        simp only [execJtagAccess, if_neg hgo, decide_eq_true hlocked, Bool.true_or, if_true, finish_eq]
      · show execJtagAccess dt (.readMem a b) s = _
        simp only [execJtagAccess, if_neg hgo, if_pos hlocked, finish_eq]
    · intro hdebug
      refine ⟨fun a v => ?_, fun a b v => ?_⟩
      · show execJtagAccess dt (.writeReg a v) s = _
        simp only [execJtagAccess, if_neg hgo, decide_eq_true hdebug, Bool.true_or, if_true, finish_eq]
      · show execJtagAccess dt (.writeMem a b v) s = _
        simp only [execJtagAccess, if_neg hgo, if_pos hdebug, finish_eq]
    · exact fun a v t hdebug ha hread => execJtagAccess_readReg hon hdebug ha hread
    · intro a hdebug
      show execJtagAccess dt (.readMem a none) s = _
      simp only [execJtagAccess, if_neg hgo, if_neg hdebug, finish_eq]
    · intro a v hvendor ha
      show execJtagAccess dt (.writeReg a v) s = _
      have hok : ¬ (decide ((s.advance dt).sec.debug ≠ 1) || !a.outsideSec) = true := by
        rw [hvendor, ha]
        decide
      simp only [execJtagAccess, if_neg hgo, if_neg hok, finish_eq]
  · intro p an cak scs mka k v hdebug hready hsak
    exact ⟨saInstalled v p an scs k, execSakInstallDone_installs hdebug hready hsak, rfl, fun c hc => saInstalled_rxSa hc, rfl, rfl, rfl⟩
  · intro ch o hopen hdue
    show execSessionLapse dt ch s = _
    simp only [execSessionLapse, hopen, ge_iff_le, if_pos hdue, finish_eq]
  · intro ch x hx hdue
    show execSessionIdleTimeout dt ch s = _
    simp only [execSessionIdleTimeout, hx, ge_iff_le, if_pos hdue, finish_eq]

end Sys2Proof.Proofs.RegistersAndPins
end

section
/-! Mailbox commands: the other forms of the configuration commands, and the tables (chapters 05, 06, 16, 17). -/
namespace Sys2Proof.Proofs.TableCommands
open Sys2Proof Sys2Proof.Machine Sys2Proof.Safety

section Staged
variable {c : Cmd} {dt : Nat} {r : Req} {s : State} {body inner : State → Reply}

/-- A command whose own part stages and is done: within a transaction it completes, else it waits for the commit of its own. -/
theorem runCmd_staged {t : State} {result : Nat} {out : Bytes} (h : Accepts c r (s.advance dt))
    (htxn : r.txn ≠ 0 ∨ (begun c r (s.advance dt)).txn = none)
    (hbody : body (begun c r (s.advance dt)) = staging r (begun c r (s.advance dt)) true inner)
    (hinner : inner (stageFrom r (begun c r (s.advance dt))) = .done 0 t result out) :
    runCmd c dt r s body = .next (stageDone c r (s.advance dt) t result out) := by
  have hstaged := hbody.trans (staging_done r _ inner t result out htxn hinner)
  unfold stageDone
  by_cases hown : r.txn = 0
  · rw [if_pos hown] at hstaged ⊢
    exact runCmd_wait c dt r s body t _ h hstaged
  · rw [if_neg hown] at hstaged ⊢
    exact runCmd_done c dt r s body 0 result t out h hstaged

/-- A command whose staged part fails answers its status and changes nothing. -/
theorem runCmd_staged_fail {t : State} {st result : Nat} {out : Bytes} (h : Accepts c r (s.advance dt))
    (htxn : r.txn ≠ 0 ∨ (begun c r (s.advance dt)).txn = none) (hst : st ≠ 0)
    (hbody : body (begun c r (s.advance dt)) = staging r (begun c r (s.advance dt)) true inner)
    (hinner : inner (stageFrom r (begun c r (s.advance dt))) = .done st t result out) :
    runCmd c dt r s body = .next (answer c r (s.advance dt) (begun c r (s.advance dt)) st result out) :=
  runCmd_done c dt r s body st result _ out h (hbody.trans (staging_fail r _ inner st t result out htxn hst hinner))

end Staged

/-- A body that stages nothing runs where it is. -/
theorem staging_false (r : Req) (b : State) (body : State → Reply) :
    staging r b false body = match body b with
      | .done st t result out => if st = 0 then .done 0 t result out else .done st b result out
      | x => x :=
  if_pos (by rw [Bool.not_false, Bool.or_true])

/-- With no records a configuration command does what its own form adds. -/
theorem cfgBody_no_records {op : Nat} {expert : Bool} {r : Req} {b : State} {more : State → Reply} (h : r.cfgRecs op false = .ok []) :
    cfgBody op expert r b more = match more b with
      | .done st t result out => if st = 0 then .done 0 t result out else .done st b result out
      | x => x := by
  simp only [cfgBody, h, List.any_nil, staging_false] <;> rfl

/-- Without ARG bit 31 a configuration command applies its records. -/
theorem cfgRun_applies {c : Cmd} {dt : Nat} {r : Req} {s : State} {more : State → Reply} (hread : bit r.arg.toNat 31 = false) :
    cfgRun c dt r s more =
      runCmd { c with read := false } dt r s fun b => cfgBody c.op (b.levelOk { c with expert := true, role := some 2 } r) r b more := by
  unfold cfgRun
  rw [hread]
  rfl

/-- With ARG bit 31 it reads them back. -/
theorem cfgRun_reads {c : Cmd} {dt : Nat} {r : Req} {s : State} {more : State → Reply} (hread : bit r.arg.toNat 31 = true) :
    cfgRun c dt r s more =
      runCmd { c with read := true } dt r s fun b =>
        match r.cfgRecs c.op true with
        | .error off => cfgFail b Status.badParam off
        | .ok l => .done 0 b 0 (wordsBytes (l.flatMap (b.cfgRead (c.op == 0x8011)))) := by
  unfold cfgRun
  rw [hread]
  rfl

section FaultForms
variable {dt : Nat} {r : Req} {s b : State}

/-- FORCE_SAFE: with ARG bit 0 alone, FAULT_CONFIG enters the safe state. -/
theorem execForceSafe_accepts (h : Accepts { op := 0xF0, role := some 2 } r (s.advance dt)) (hb : b = begun { op := 0xF0, role := some 2 } r (s.advance dt))
    (hread : bit r.arg.toNat 31 = false) (hrecs : r.cfgRecs 0xF0 false = .ok []) (hforce : bit r.arg.toNat 0 = true) (hunfence : bit r.arg.toNat 1 = false) :
    execForceSafe dt r s = .next (answer { op := 0xF0, role := some 2 } r (s.advance dt) (b.safeEnter .force 0) 0 0 []) := by
  have hmore : faultMore r b = good (b.safeEnter .force 0) := by
    simp only [faultMore, hforce, hunfence, if_true, Bool.false_eq_true, if_false]
  subst hb
  rw [execForceSafe, cfgRun_applies hread]
  refine runCmd_done _ dt r s _ 0 0 _ [] h ?_
  dsimp only
  rw [cfgBody_no_records hrecs, hmore]
  rfl

/-- UNFENCE: with ARG bit 1 alone, FAULT_CONFIG makes a block reset of the line's unit and waits for its proof. -/
theorem execUnfence_accepts {t : State} {line : Nat} (h : Accepts { op := 0xF0, role := some 2 } r (s.advance dt))
    (hb : b = begun { op := 0xF0, role := some 2 } r (s.advance dt)) (hread : bit r.arg.toNat 31 = false) (hrecs : r.cfgRecs 0xF0 false = .ok [])
    (hline : line = unitOf (bits r.arg.toNat 8 6)) (hforce : bit r.arg.toNat 0 = false) (hunfence : bit r.arg.toNat 1 = true)
    (hfenced : b.flt.fenced.contains line = true) (hreset : b.blockReset line = some t) :
    execUnfence dt r s = .next (waiting r { t with flt := { t.flt with proof := sset t.flt.proof line (t.now + proofNs line) } } (.proof line)) := by
  subst hline
  have hmore : faultMore r b = .wait { t with flt := { t.flt with
      proof := sset t.flt.proof (unitOf (bits r.arg.toNat 8 6)) (t.now + proofNs (unitOf (bits r.arg.toNat 8 6))) } } (.proof (unitOf (bits r.arg.toNat 8 6))) := by
    simp only [faultMore, hforce, hunfence, if_true, Bool.false_eq_true, if_false, State.unfence, hfenced, Bool.not_true, hreset]
  subst hb
  rw [execUnfence, cfgRun_applies hread]
  refine runCmd_wait _ dt r s _ _ _ h ?_
  dsimp only
  rw [cfgBody_no_records hrecs, hmore]

end FaultForms

/-- SET_LATENCY_BUDGET without records stages the function's budget. -/
theorem execSetLatencyBudget_stages {dt : Nat} {r : Req} {s b : State} (h : Accepts { op := 0x20, role := some 1 } r (s.advance dt))
    (hb : b = begun { op := 0x20, role := some 1 } r (s.advance dt)) (hfn : bits r.arg.toNat 28 4 ≤ 2) (hrecs : r.cfgRecs 0x20 false = .ok [])
    (htxn : r.txn ≠ 0 ∨ b.txn = none) :
    execSetLatencyBudget dt r s = .next (stageDone { op := 0x20, role := some 1 } r (s.advance dt)
      ((stageFrom r b).stageFld F.PWR_BUDGET.BUDGET_US (bits r.arg.toNat 28 4) (bits r.arg.toNat 0 28)) 0 []) := by
  subst hb
  refine runCmd_staged (inner := ?_) h htxn (?hbody) ?hinner
  case hbody =>
    refine (if_neg (Nat.not_lt.mpr hfn)).trans ?_
    rw [hrecs]
  case hinner => rfl

/-- Settles O45: each form by its argument bits; the records read back, or the offset of the bad one. -/
theorem faultReadbackAndBudgetForms : Obligations.FaultReadbackAndBudgetForms := by
  unfold Obligations.FaultReadbackAndBudgetForms
  intro dt r s u hu
  subst hu
  refine ⟨?_, ?_, ?_⟩
  · intro c b h hread hrecs
    exact ⟨fun hforce hunfence => execForceSafe_accepts h rfl hread hrecs hforce hunfence,
      fun t line hline hforce hunfence hfenced hreset => execUnfence_accepts h rfl hread hrecs hline hforce hunfence hfenced hreset⟩
  · intro k l c q b h
    have hexec : exec (.configReadback dt k r) s = _ := cfgRun_reads (c := k.cmd) (dt := dt) (r := q) (s := s) (more := good) (readback_bit r.arg)
    refine ⟨fun hrecs => ?_, fun off hrecs => ?_⟩
    · rw [hexec]
      refine runCmd_done _ dt q s _ 0 0 _ _ h ?_
      rw [show q.cfgRecs k.cmd.op true = .ok l from hrecs]
    · rw [hexec]
      refine runCmd_done _ dt q s _ 2 off _ [] h ?_
      rw [show q.cfgRecs k.cmd.op true = .error off from hrecs]
      rfl
  · intro c b h
    refine ⟨fun hfn => ?_, fun hfn hrecs htxn => execSetLatencyBudget_stages h rfl hfn hrecs htxn⟩
    exact runCmd_done _ dt r s _ 2 0 _ [] h (if_pos hfn)

/-- A reply whose state, where it is done, something follows up. -/
def followUp (f : Nat → State → State) (y : Reply) : Reply :=
  match y with
  | .done st t result out => .done st (f st t) result out
  | x => x

/-- A command that follows up what it staged, where the follow-up leaves a success alone. -/
theorem runCmd_staged_followUp {c : Cmd} {dt : Nat} {r : Req} {s t : State} {body inner : State → Reply} {f : Nat → State → State} {result : Nat} {out : Bytes}
    (h : Accepts c r (s.advance dt)) (htxn : r.txn ≠ 0 ∨ (begun c r (s.advance dt)).txn = none)
    (hbody : body (begun c r (s.advance dt)) = followUp f (staging r (begun c r (s.advance dt)) true inner))
    (hinner : inner (stageFrom r (begun c r (s.advance dt))) = .done 0 t result out) (hf : f 0 t = t) :
    runCmd c dt r s body = .next (stageDone c r (s.advance dt) t result out) := by
  have hstaged := staging_done r _ inner t result out htxn hinner
  rw [hstaged] at hbody
  unfold stageDone
  by_cases hown : r.txn = 0
  · rw [if_pos hown] at hbody ⊢
    exact runCmd_wait c dt r s body t _ h hbody
  · rw [if_neg hown] at hbody ⊢
    refine runCmd_done c dt r s body 0 result t out h (hbody.trans ?_)
    rw [followUp, hf]

section ExactMatch
variable {dt : Nat} {r : Req} {s b x : State} {t d op p : Nat}

/-- The checks of an exact-match write that its table, key and result pass. -/
structure ExmWritable (b : State) (r : Req) (t d op : Nat) : Prop where
  length : 32 ≤ r.inLen
  table : t ≠ 0
  op : op ≠ 3
  reserved : bits (r.w 0) 13 19 = 0
  result : r.w 2 < 256
  kind : tableKind (b.next .EXM_LTBL_CTL t 0) ≠ 0
  width : b.keyW t d ≠ 0
  key : r.exmKey 3 < 2 ^ b.keyW t d

/-- What an entry written by a request holds: words 1 and 2. -/
abbrev exmResult (r : Req) : Nat := r.w 1 + 4294967296 * (r.w 2 % 256)

/-- The layout of the table is known. -/
theorem ExmWritable.layout (hw : ExmWritable b r t d op) : ¬ (decide (tableKind (b.next .EXM_LTBL_CTL t 0) = 0) || decide (b.keyW t d = 0)) = true := by
  simp [hw.kind, hw.width]

/-- EXM_WRITE stages its entry and answers the entry's position. -/
theorem execExmWrite_ok (h : Accepts { op := 0x51, role := some 1 } r (s.advance dt)) (hb : b = begun { op := 0x51, role := some 1 } r (s.advance dt))
    (htxn : r.txn ≠ 0 ∨ b.txn = none) (ht : t = r.w 0 % 256) (hop : op = bits (r.w 0) 8 2) (hd : d = b.descAt t b.curNext) (hw : ExmWritable b r t d op)
    (himm : bit (r.w 0) 10 = false)
    (hwrite : (stageFrom r b).exmWrite t d op false (bit (r.w 0) 11) (r.exmKey 3) (exmResult r) = .ok p x) :
    execExmWrite dt r s = .next (stageDone { op := 0x51, role := some 1 } r (s.advance dt) x (x.exmPos t d p) []) := by
  have hparam : ¬ (decide (r.inLen < 32) || decide (t = 0) || decide (op = 3) || bit (r.w 0) 10 || decide (bits (r.w 0) 13 19 ≠ 0) ||
      decide (r.w 2 ≥ 256)) = true := by
    simp [hw.length, hw.table, hw.op, himm, hw.reserved, hw.result]
  have hlayout := hw.layout
  have hkey := Nat.not_le.mpr hw.key
  subst hd hop ht hb
  refine runCmd_staged_followUp (f := ?_) (inner := ?_) h htxn ?hbody ?hinner ?hf
  case hbody =>
    refine (if_neg hparam).trans ((if_neg hlayout).trans ((if_neg hkey).trans ?_))
    rfl
  case hinner => rw [hwrite]
  case hf => exact if_neg (by simp)

/-- An exact-match write of an expert passes its parameter checks. -/
theorem ExmWritable.params (hw : ExmWritable b r t d op) :
    ¬ (decide (r.inLen < 32) || decide (t = 0) || decide (op = 3) || decide (bits (r.w 0) 13 19 ≠ 0) || decide (r.w 2 ≥ 256)) = true := by
  simp [hw.length, hw.table, hw.op, hw.reserved, hw.result]

/-- EXM_WRITE_X at once writes the generation in force and answers the entry's position. -/
theorem execExmWriteX_immediate (h : Accepts { op := 0x8010, role := some 2, expert := true } r (s.advance dt))
    (hb : b = begun { op := 0x8010, role := some 2, expert := true } r (s.advance dt)) (ht : t = r.w 0 % 256) (hop : op = bits (r.w 0) 8 2)
    (hd : d = bits (r.w 0) 12 1) (hw : ExmWritable b r t d op) (himm : bit (r.w 0) 10 = true)
    (hwrite : b.exmWrite t d op true (bit (r.w 0) 11) (r.exmKey 3) (exmResult r) = .ok p x) :
    execExmWriteX dt r s = .next (answer { op := 0x8010, role := some 2, expert := true } r (s.advance dt) x 0 (x.exmPos t d p) []) := by
  have hparam := hw.params
  have hlayout := hw.layout
  have hkey := Nat.not_le.mpr hw.key
  subst hd hop ht hb
  refine runCmd_done _ dt r s _ 0 _ x [] h ((if_neg hparam).trans ((if_neg hlayout).trans ((if_neg hkey).trans ?_)))
  rw [himm, Bool.not_true, staging_false, hwrite]
  rfl

/-- EXM_WRITE_X stages its entry like EXM_WRITE. -/
theorem execExmWriteX_staged (h : Accepts { op := 0x8010, role := some 2, expert := true } r (s.advance dt))
    (hb : b = begun { op := 0x8010, role := some 2, expert := true } r (s.advance dt)) (htxn : r.txn ≠ 0 ∨ b.txn = none) (ht : t = r.w 0 % 256)
    (hop : op = bits (r.w 0) 8 2) (hd : d = bits (r.w 0) 12 1) (hw : ExmWritable b r t d op) (himm : bit (r.w 0) 10 = false)
    (hwrite : (stageFrom r b).exmWrite t d op false (bit (r.w 0) 11) (r.exmKey 3) (exmResult r) = .ok p x) :
    execExmWriteX dt r s = .next (stageDone { op := 0x8010, role := some 2, expert := true } r (s.advance dt) x (x.exmPos t d p) []) := by
  have hparam := hw.params
  have hlayout := hw.layout
  have hkey := Nat.not_le.mpr hw.key
  subst hd hop ht hb
  refine runCmd_staged_followUp (f := ?_) (inner := ?_) h htxn ?hbody ?hinner ?hf
  case hbody =>
    refine (if_neg hparam).trans ((if_neg hlayout).trans ((if_neg hkey).trans ?_))
    rw [himm]
    rfl
  case hinner => rw [hwrite]
  case hf => exact if_neg (by decide)

end ExactMatch

section Searches
variable {dt : Nat} {r : Req} {s b : State}

/-- EXM_SEARCH past its checks looks the key up in the generation it asks for. -/
theorem execExmSearch_accepts {t d g st result : Nat} {out : Bytes} (h : Accepts { op := 0x52, role := some 0, read := true } r (s.advance dt))
    (hb : b = begun { op := 0x52, role := some 0, read := true } r (s.advance dt)) (ht : t = r.w 0 % 256)
    (hg : g = if bit (r.w 0) 8 then b.curNext else b.cur) (hd : d = b.descAt t g) (hlen : 24 ≤ r.inLen) (hw : r.w 0 < 512)
    (hfound : (if b.keyW t d = 0 then fail 0x101 b else
      match b.exmHits t d (r.exmKey 1) g with
      | [] => fail 0x101 b
      | (p, e) :: _ => .done 0 b (b.exmPos t d p) (wordsBytes e.toWords)) = .done st b result out) :
    execExmSearch dt r s = .next (answer { op := 0x52, role := some 0, read := true } r (s.advance dt) b st result out) := by
  have hparam : ¬ (decide (r.inLen < 24) || decide (r.w 0 ≥ 512)) = true := by simp [hlen, hw]
  subst hd hg ht hb
  exact runCmd_done _ dt r s _ st result _ out h ((if_neg hparam).trans hfound)

end Searches

section Flush
variable {dt : Nat} {r : Req} {s b : State}

/-- The walk that FLUSH_BY_PORT asks for. -/
abbrev flushOf (b : State) (r : Req) : Flush := {
  table := r.w 0 % 256
  gport := r.w 1
  staged := !bit (r.w 0) 8
  static_ := bit (r.w 0) 9
  ch := some r.ch
  tell := r.w 1 / 64 == b.member }

/-- An immediate FLUSH_BY_PORT waits for its walk. -/
theorem execFlushByPort_immediate (h : Accepts { op := 0x54, role := some 1 } r (s.advance dt)) (hb : b = begun { op := 0x54, role := some 1 } r (s.advance dt))
    (hlen : 8 ≤ r.inLen) (hw : r.w 0 < 1024) (hport : r.w 1 < 32768) (himm : bit (r.w 0) 8 = true) :
    execFlushByPort dt r s = .next (waiting r { b with flushQ := b.flushQ ++ [flushOf b r] } (.flush 0 1)) := by
  have hparam : ¬ (decide (r.inLen < 8) || decide (r.w 0 ≥ 1024) || decide (r.w 1 ≥ 32768)) = true := by simp [hlen, hw, hport]
  have hnow : (decide (r.txn ≠ 0) || !!bit (r.w 0) 8) = true := by rw [himm, Bool.not_true, Bool.not_false, Bool.or_true]
  subst hb
  exact runCmd_wait _ dt r s _ _ _ h ((if_neg hparam).trans (if_pos hnow))

/-- A staged FLUSH_BY_PORT joins its transaction, or one of its own, and waits for its walk. -/
theorem execFlushByPort_staged (h : Accepts { op := 0x54, role := some 1 } r (s.advance dt)) (hb : b = begun { op := 0x54, role := some 1 } r (s.advance dt))
    (hlen : 8 ≤ r.inLen) (hw : r.w 0 < 1024) (hport : r.w 1 < 32768) (hstaged : bit (r.w 0) 8 = false) (htxn : r.txn ≠ 0 ∨ b.txn = none) :
    execFlushByPort dt r s =
      .next (waiting r { stageFrom r b with flushQ := (stageFrom r b).flushQ ++ [flushOf b r] } (.flush 0 1)) := by
  have hparam : ¬ (decide (r.inLen < 8) || decide (r.w 0 ≥ 1024) || decide (r.w 1 ≥ 32768)) = true := by simp [hlen, hw, hport]
  subst hb
  by_cases hown : r.txn = 0
  · have hnot : ¬ (decide (r.txn ≠ 0) || !!bit (r.w 0) 8) = true := by simp [hown, hstaged]
    have hfree : ¬ (begun { op := 0x54, role := some 1 } r (s.advance dt)).txn.isSome = true := by
      rw [htxn.resolve_left (not_not_intro hown)]
      decide
    rw [stageFrom, if_pos hown]
    exact runCmd_wait _ dt r s _ _ _ h ((if_neg hparam).trans ((if_neg hnot).trans (if_neg hfree)))
  · have hin : (decide (r.txn ≠ 0) || !!bit (r.w 0) 8) = true := by rw [decide_eq_true hown, Bool.true_or]
    rw [stageFrom, if_neg hown]
    exact runCmd_wait _ dt r s _ _ _ h ((if_neg hparam).trans (if_pos hin))

end Flush

/-- A TCAM write, of either command, stages its row and answers the row's index. -/
theorem runCmd_tcam {c : Cmd} {dt i : Nat} {r : Req} {s t : State} {expert : Bool} (h : Accepts c r (s.advance dt))
    (htxn : r.txn ≠ 0 ∨ (begun c r (s.advance dt)).txn = none) (hrow : r.rowOk = true)
    (hwrite : (stageFrom r (begun c r (s.advance dt))).tcamWrite (bits (r.w 0) 0 2) (maskPls (bits (r.w 0) 4 4)) (bits (r.w 0) 8 13) expert
      (rowOf r.payload 1 (stageFrom r (begun c r (s.advance dt))).curNext) = .ok (i, t)) :
    runCmd c dt r s (tcamBody expert r) = .next (stageDone c r (s.advance dt) t i []) := by
  have hgo : ¬ (!r.rowOk) = true := by
    rw [hrow]
    decide
  refine runCmd_staged (inner := ?_) h htxn ?hbody ?hinner
  case hbody =>
    refine (if_neg hgo).trans ?_
    rfl
  case hinner => rw [hwrite]

section LoadRecipe
variable {dt seg m : Nat} {r : Req} {s b t : State} {data : List Word}

/-- A segment of a recipe object that comes in its turn: the arguments LOAD_RECIPE accepts. -/
structure LoadInTurn (b : State) (r : Req) (seg m : Nat) : Prop where
  segment : seg = r.arg.toNat / 65536
  mask : m = r.arg.toNat % 16
  pipelines : m ≠ 0
  reserved : bits r.arg.toNat 5 11 = 0
  next : seg = 0 ∨ seg = (b.load.map (·.next)).getD 0
  length : bit r.arg.toNat 4 = true ∨ r.inLen = 4096
  nonempty : r.inLen ≠ 0

/-- The object as far as a segment completes it. -/
def loadedData (b : State) (r : Req) (seg : Nat) : List Word := (if seg = 0 then [] else (b.load.map (·.data)).getD []) ++ r.payload

/-- The object held, with a segment more. -/
def withSegment (b : State) (r : Req) (seg m : Nat) : State := { b with load := some { plMask := m, next := seg + 1, data := loadedData b r seg } }

/-- What LOAD_RECIPE does with a segment in its turn: the last one is checked and waits for the engine's banks. -/
def loadReply (b : State) (r : Req) (seg m : Nat) : Reply :=
  if !bit r.arg.toNat 4 then good (withSegment b r seg m)
  else if !objOk (loadedData b r seg) || r.inLen % 4 ≠ 0 then fail 0x200 { b with load := none }
  else if !b.batchCompatible (b.versionsWith m (objOf (loadedData b r seg))) then fail 0x900 { b with load := none }
  else if r.txn = 0 && b.txn.isSome then fail Status.txnBusy { b with load := none }
  else .wait (if r.txn = 0 then { withSegment b r seg m with txn := some { id := 0, ch := r.ch, sid := r.sid, last := b.now, own := true } }
    else withSegment b r seg m) (.bank m)

/-- A segment in its turn passes the checks of the arguments. -/
theorem LoadInTurn.args (hturn : LoadInTurn b r seg m) :
    ¬ (decide (bits r.arg.toNat 5 11 ≠ 0) || decide (m = 0) || (decide (seg ≠ 0) && decide (seg ≠ (b.load.map (·.next)).getD 0)) ||
      (!bit r.arg.toNat 4 && decide (r.inLen ≠ 4096)) || decide (r.inLen = 0)) = true := by
  simp only [Bool.or_eq_true, Bool.and_eq_true, decide_eq_true_eq, Bool.not_eq_true', not_or]
  refine ⟨⟨⟨⟨not_not_intro hturn.reserved, hturn.pipelines⟩, fun ⟨h0, h1⟩ => hturn.next.elim h0 h1⟩, fun ⟨h0, h1⟩ => ?_⟩, hturn.nonempty⟩
  exact hturn.length.elim (fun hlast => absurd (h0.symm.trans hlast) (by decide)) h1

/-- LOAD_RECIPE that completes at once. -/
theorem execLoadRecipe_done {st : Nat} (h : Accepts { op := 0x40, role := some 1 } r (s.advance dt))
    (hb : b = begun { op := 0x40, role := some 1 } r (s.advance dt)) (hturn : LoadInTurn b r seg m) (hreply : loadReply b r seg m = .done st t 0 []) :
    execLoadRecipe dt r s = .next (answer { op := 0x40, role := some 1 } r (s.advance dt) t st 0 []) := by
  have hargs := hturn.args
  obtain ⟨hseg, hm⟩ := hturn
  subst hm hseg hb
  exact runCmd_done _ dt r s _ st 0 t [] h ((if_neg hargs).trans hreply)

/-- LOAD_RECIPE that waits. -/
theorem execLoadRecipe_wait {w : Wait} (h : Accepts { op := 0x40, role := some 1 } r (s.advance dt))
    (hb : b = begun { op := 0x40, role := some 1 } r (s.advance dt)) (hturn : LoadInTurn b r seg m) (hreply : loadReply b r seg m = .wait t w) :
    execLoadRecipe dt r s = .next (waiting r t w) := by
  have hargs := hturn.args
  obtain ⟨hseg, hm⟩ := hturn
  subst hm hseg hb
  exact runCmd_wait _ dt r s _ t w h ((if_neg hargs).trans hreply)

/-- The last segment of a good object waits for the engine's banks. -/
theorem loadReply_last (hlast : bit r.arg.toNat 4 = true) (hlen : r.inLen % 4 = 0) (hok : objOk (loadedData b r seg) = true)
    (hcompat : b.batchCompatible (b.versionsWith m (objOf (loadedData b r seg))) = true) (htxn : r.txn ≠ 0 ∨ b.txn = none) :
    loadReply b r seg m = .wait (if r.txn = 0 then
      { withSegment b r seg m with txn := some { id := 0, ch := r.ch, sid := r.sid, last := b.now, own := true } } else withSegment b r seg m) (.bank m) := by
  have hmore : ¬ (!bit r.arg.toNat 4) = true := by simp [hlast]
  have hgood : ¬ (!objOk (loadedData b r seg) || decide (r.inLen % 4 ≠ 0)) = true := by simp [hok, hlen]
  have hfits : ¬ (!b.batchCompatible (b.versionsWith m (objOf (loadedData b r seg)))) = true := by simp [hcompat]
  have hfree : ¬ (decide (r.txn = 0) && b.txn.isSome) = true := by rcases htxn with h | h <;> simp [h]
  rw [loadReply, if_neg hmore, if_neg hgood, if_neg hfits, if_neg hfree]

end LoadRecipe

/-- Settles O47: each command past its checks, by what its staging, its search or its table gives. -/
theorem tableCommandsAnswer : Obligations.TableCommandsAnswer := by
  unfold Obligations.TableCommandsAnswer
  intro dt r s u hu
  subst hu
  refine ⟨?_, ?_, ?_, ?_, ?_, ?_, ?_, ?_, ?_, ?_, ?_⟩
  · intro c b h t d op p x htxn ht hop hd hlen ht0 hop3 himm hres hresult hkind hwidth hkey hwrite
    exact execExmWrite_ok h rfl htxn ht hop hd ⟨hlen, ht0, hop3, hres, hresult, hkind, hwidth, hkey⟩ himm hwrite
  · intro c b h t d op p x ht hop hd hlen ht0 hop3 hres hresult hkind hwidth hkey
    have hw : ExmWritable b r t d op := ⟨hlen, ht0, hop3, hres, hresult, hkind, hwidth, hkey⟩
    exact ⟨fun himm hwrite => execExmWriteX_immediate h rfl ht hop hd hw himm hwrite,
      fun himm htxn hwrite => execExmWriteX_staged h rfl htxn ht hop hd hw himm hwrite⟩
  · intro c b h t d g ht hg hd hlen hw
    refine ⟨fun hnone => execExmSearch_accepts h rfl ht hg hd hlen hw ?_, fun p e l hwidth hhits => execExmSearch_accepts h rfl ht hg hd hlen hw ?_⟩
    · by_cases hwidth : b.keyW t d = 0
      · exact if_pos hwidth
      · rw [if_neg hwidth, hnone.resolve_left hwidth]
        rfl
    · rw [if_neg hwidth, hhits]
  · intro c b h hlen hmin hmax hlo hhi
    have hparam : ¬ (decide (r.inLen < 12) || decide (r.w 2 = 0) || decide (r.w 2 > 128) || decide (bits (r.w 0) 29 3 ≠ 0) ||
        decide (bits (r.w 1) 16 15 ≠ 0)) = true := by
      have hpos : ¬ r.w 2 = 0 := by omega
      simp [hlen, hpos, hmax, hlo, hhi]
    refine ⟨fun hgo => ?_, fun hnotStart hmoved => ?_⟩
    · have hsame : ¬ (!bit (r.w 1) 31 && decide (bits (r.w 1) 0 16 ≠ b.fld F.EXM_LTBL_STAT.SWITCH_COUNT (bits (r.w 0) 21 8))) = true := by
        rcases hgo with h | h <;> simp [h]
      exact ⟨_, runCmd_done _ dt r s _ 0 0 _ _ h ((if_neg hparam).trans (if_neg hsame))⟩
    · have hmoved' : (!bit (r.w 1) 31 && decide (bits (r.w 1) 0 16 ≠ b.fld F.EXM_LTBL_STAT.SWITCH_COUNT (bits (r.w 0) 21 8))) = true := by
        simp [hnotStart, hmoved]
      exact runCmd_done _ dt r s _ 0x105 0 _ [] h ((if_neg hparam).trans (if_pos hmoved'))
  · intro c b h f hlen hw hport hf
    subst hf
    exact ⟨fun himm => execFlushByPort_immediate h rfl hlen hw hport himm, fun hstaged htxn => execFlushByPort_staged h rfl hlen hw hport hstaged htxn⟩
  · intro c b h len v6 htxn hv6 hlen24 hinLen hw hop hlen hpfx
    have hparam : ¬ (decide (r.inLen < 24) || decide (r.w 0 ≥ 134217728) || decide (bits (r.w 0) 25 2 = 3) || decide (bits (r.w 0) 16 8 > famBits (bit (r.w 0) 24)) ||
        decide (r.lpmAddr % 2 ^ (famBits (bit (r.w 0) 24) - bits (r.w 0) 16 8) ≠ 0)) = true := by
      subst hlen24 hv6
      simp [hinLen, hw, hop, hlen, hpfx]
    subst hlen24 hv6
    refine ⟨fun x hwrite => ?_, fun st hst hwrite => ?_⟩
    · refine runCmd_staged (inner := ?_) h htxn ?hbody ?hinner
      case hbody =>
        refine (if_neg hparam).trans ?_
        rfl
      case hinner =>
        rw [hwrite]
        rfl
    · refine runCmd_staged_fail (inner := ?_) (t := stageFrom r b) h htxn hst ?hbody' ?hinner'
      case hbody' =>
        refine (if_neg hparam).trans ?_
        rfl
      case hinner' =>
        rw [hwrite]
        rfl
  · intro c b h hlen hw hres x hx
    have hparam : ¬ (decide (r.inLen < 20) || decide (r.w 0 ≥ 67108864) || decide (bits (r.w 0) 16 8 ≠ 0)) = true := by simp [hlen, hw, hres]
    refine ⟨fun e he => runCmd_done _ dt r s _ 0 0 _ _ h ((if_neg hparam).trans ?_), fun hnone => runCmd_done _ dt r s _ 0x101 0 _ [] h ((if_neg hparam).trans ?_)⟩
    · rw [← hx, he]
    · rw [← hx, hnone]
      rfl
  · exact fun h i t hrow htxn hwrite => runCmd_tcam h htxn hrow hwrite
  · exact fun h i t hrow htxn hwrite => runCmd_tcam h htxn hrow hwrite
  · intro c b h hlen hlo hhi x hx
    have hparam : ¬ (decide (r.inLen < 4) || decide (bits (r.w 0) 2 6 ≠ 0) || decide (bits (r.w 0) 22 10 ≠ 0)) = true := by simp [hlen, hlo, hhi]
    refine ⟨fun e he => runCmd_done _ dt r s _ 0 0 _ _ h ((if_neg hparam).trans ?_), fun hnone => runCmd_done _ dt r s _ 0x101 0 _ [] h ((if_neg hparam).trans ?_)⟩
    · rw [← hx, he]
    · rw [← hx, hnone]
      rfl
  · intro c b h seg m data t hseg hm hm0 hres hnext hdata ht
    subst ht hdata
    refine ⟨fun hmore hlen => ?_, fun hlast hne hlen hok hcompat htxn => ?_, fun hlast hne hbad => ?_⟩
    · have hturn : LoadInTurn b r seg m := ⟨hseg, hm, hm0, hres, hnext, .inr hlen, by omega⟩
      refine execLoadRecipe_done h rfl hturn ?_
      rw [loadReply, hmore]
      rfl
    · have hturn : LoadInTurn b r seg m := ⟨hseg, hm, hm0, hres, hnext, .inl hlast, hne⟩
      exact execLoadRecipe_wait h rfl hturn (loadReply_last hlast hlen hok hcompat htxn)
    · have hturn : LoadInTurn b r seg m := ⟨hseg, hm, hm0, hres, hnext, .inl hlast, hne⟩
      refine execLoadRecipe_done h rfl hturn ?_
      have hbad' : objOk (loadedData b r seg) = false := hbad
      rw [loadReply, hlast, hbad']
      rfl

end Sys2Proof.Proofs.TableCommands
end

section
/-! The security commands (chapter 15). -/
namespace Sys2Proof.Proofs.SecurityCommands
open Sys2Proof Sys2Proof.Machine Sys2Proof.Safety

section Sessions
variable {dt : Nat} {r : Req} {s b : State}

/-- What SESSION_BEGIN asks of its request and of the device: an enrolled operator, and neither HOLD nor RETIRED. -/
structure SessionMayBegin (b : State) (r : Req) : Prop where
  power : b.power ≠ 3
  lifecycle : b.sec.lifecycle ≠ 3
  operator : r.w 0 ≤ 15
  length : 92 ≤ r.inLen
  enrolled : (sfind b.sec.operators (r.w 0)).isSome = true

/-- Neither HOLD nor RETIRED stands in the way. -/
theorem SessionMayBegin.state (hmay : SessionMayBegin b r) : ¬ (decide (b.power = 3) || decide (b.sec.lifecycle = 3)) = true := by
  simp [hmay.power, hmay.lifecycle]

/-- The parameters pass. -/
theorem SessionMayBegin.params (hmay : SessionMayBegin b r) :
    ¬ (decide (r.w 0 > 15) || decide (r.inLen < 92) || (sfind b.sec.operators (r.w 0)).isNone) = true := by
  have henrolled : (sfind b.sec.operators (r.w 0)).isNone = false := by
    rw [Option.isNone_eq_false_iff]
    exact hmay.enrolled
  simp [hmay.operator, hmay.length, henrolled]

/-- A session that may begin is opened with the device's nonce and key. -/
theorem execSessionBegin_opens {nd x : Bytes} {v sid : Nat} {b1 b2 b3 : State} {t1 : Bytes} {o : Opening}
    (h : Accepts { op := 0x100, role := none, fn := some 1 } r (s.advance dt)) (hb : b = begun { op := 0x100, role := none, fn := some 1 } r (s.advance dt))
    (hmay : SessionMayBegin b r) (hlock : sget b.sec.lockout 0 (r.w 0) ≤ b.now) (hrng : b.sec.rngFail = false)
    (hnd : b.freshBytes 32 = (nd, b1)) (hx : b1.freshBytes 56 = (x, b2)) (hv : b2.fresh = (v, b3)) (hsid : sid = newSid b3 v)
    (ht1 : t1 = sessionText r.ch (r.w 0) (r.item 15 32) (r.item 1 56) nd (Config.x448Public x) sid)
    (ho : o = { sid := sid, op := r.w 0, t1 := t1, sd := Config.signDik t1, xd := x, xh := r.item 1 56, at_ := b3.now }) :
    execSessionBegin dt r s = .next (answer { op := 0x100, role := none, fn := some 1 } r (s.advance dt)
      { b3 with sec := { b3.sec with sessions := sdel b3.sec.sessions r.ch, opening := sset b3.sec.opening r.ch o } } 0 0
      (nd ++ Config.x448Public x ++ toLE sid 4 ++ padTo 116 (Config.signDik t1))) := by
  have hstate := hmay.state
  have hparams := hmay.params
  subst ho ht1 hsid hb
  refine runCmd_done _ dt r s _ 0 0 _ _ h ((if_neg hstate).trans ((if_neg hparams).trans ((if_neg (Nat.not_lt.mpr hlock)).trans
    ((if_neg (ne_true_of_eq_false hrng)).trans ?_))))
  rw [hnd]
  dsimp only
  rw [hx]
  dsimp only
  rw [hv]

/-- An opening that can be finished: its identifier is the request's, its 10 s last, and its operator is enrolled. -/
structure FinishesOpening (b : State) (r : Req) (o : Opening) (k : Operator) : Prop where
  opening : sfind b.sec.opening r.ch = some o
  sid : o.sid = r.w 0
  time : b.now < o.at_ + 10000000000
  operator : sfind b.sec.operators o.op = some k

/-- SESSION_FINISH of an opening goes by the operator's signature. -/
theorem execSessionFinish_opening {o : Opening} {k : Operator} {st : Nat} {t : State}
    (h : Accepts { op := 0x101, role := none, fn := some 1 } r (s.advance dt)) (hb : b = begun { op := 0x101, role := none, fn := some 1 } r (s.advance dt))
    (ho : FinishesOpening b r o k)
    (hsig : (if Config.ed448Verify k.key (o.t1 ++ o.sd) (r.item 1 114) then good { b with sec := { b.sec with
        opening := sdel b.sec.opening r.ch
        sessions := sset b.sec.sessions r.ch { sid := o.sid, op := o.op, key := Config.kmac256 (Config.x448 o.xd o.xh) o.t1 32 2, last := b.now } } }
      else fail Status.secAuthFail (b.sessionFailed o.op)) = .done st t 0 []) :
    execSessionFinish dt r s = .next (answer { op := 0x101, role := none, fn := some 1 } r (s.advance dt) t st 0 []) := by
  have hgo : ¬ (decide (o.sid ≠ r.w 0) || decide (b.now ≥ o.at_ + 10000000000)) = true := by simp [ho.sid, ho.time]
  have hopen := ho.opening
  have hop := ho.operator
  subst hb
  refine runCmd_done _ dt r s _ st 0 t [] h ?_
  rw [hopen]
  refine (if_neg hgo).trans ?_
  rw [hop]
  exact hsig

end Sessions

section Operators
variable {dt : Nat} {r : Req} {s b : State}

/-- OPERATOR_ENROL takes the first free index. -/
theorem execOperatorEnrol_free {i : Nat} (h : Accepts { op := 0x106, role := some 2, fn := some 1 } r (s.advance dt))
    (hb : b = begun { op := 0x106, role := some 2, fn := some 1 } r (s.advance dt))
    (hfree : ((List.range 16).find? fun i => (sfind b.sec.operators i).isNone) = some i) (hrole : r.w 0 ≤ 2) (hlen : 64 ≤ r.inLen) :
    execOperatorEnrol dt r s = .next (answer { op := 0x106, role := some 2, fn := some 1 } r (s.advance dt) (State.extend5 { b with sec := { b.sec with
      operators := sset b.sec.operators i { key := r.item 1 57, role := r.w 0 } } }) 0 i []) := by
  have hparam : ¬ (decide (r.w 0 > 2) || decide (r.inLen < 64)) = true := by simp [hrole, hlen]
  subst hb
  refine runCmd_done _ dt r s _ 0 i _ [] h ?_
  rw [hfree]
  exact if_neg hparam

/-- OPERATOR_REMOVE of an enrolled operator: not the last ADMIN. -/
theorem execOperatorRemove_enrolled {k : Operator} {st : Nat} {t : State} (h : Accepts { op := 0x107, role := some 2, fn := some 1 } r (s.advance dt))
    (hb : b = begun { op := 0x107, role := some 2, fn := some 1 } r (s.advance dt)) (hk : sfind b.sec.operators (r.w 0) = some k)
    (hlast : (if decide (k.role = 2) && decide ((b.sec.operators.filter fun e => e.2.role == 2).length ≤ 1) then fail 0xA03 b
      else good (State.extend5 { b with sec := { b.sec with
        operators := sdel b.sec.operators (r.w 0)
        sessions := b.sec.sessions.filter fun e => e.2.op != r.w 0
        opening := b.sec.opening.filter fun e => e.2.op != r.w 0 } })) = .done st t 0 []) :
    execOperatorRemove dt r s = .next (answer { op := 0x107, role := some 2, fn := some 1 } r (s.advance dt) t st 0 []) := by
  subst hb
  refine runCmd_done _ dt r s _ st 0 t [] h ?_
  rw [hk]
  exact hlast

/-- PROVISION of a blank device sets its owner and its first ADMIN. -/
theorem execProvision_blank (h : Accepts { op := 0x108, role := some 2, fn := some 1 } r (s.advance dt))
    (hb : b = begun { op := 0x108, role := some 2, fn := some 1 } r (s.advance dt)) (hfuse : b.fuseOk = true) (hblank : b.sec.lifecycle = 0)
    (hlen : 120 ≤ r.inLen) :
    execProvision dt r s = .next (answer { op := 0x108, role := some 2, fn := some 1 } r (s.advance dt)
      (State.extend5 { b with sec := closeSessions { b.sec with
        ownerRoot := r.item 0 57
        policy := 900
        lifecycle := 1
        operators := sset [] 0 (Operator.mk (r.item 15 57) 2) } }) 0 0 []) := by
  have hstate : ¬ (decide (b.sec.lifecycle > 1) || !b.fuseOk) = true := by simp [hblank, hfuse]
  have hlong : ¬ r.inLen < (if b.sec.lifecycle = 0 then 120 else 60) := by rw [if_pos hblank]; omega
  subst hb
  refine runCmd_done _ dt r s _ 0 0 _ [] h ((if_neg hstate).trans ((if_neg hlong).trans ?_))
  dsimp only
  rw [if_pos hblank]
  rfl

/-- TRANSFER_OWNER in FIELD goes by the owner's signature. -/
theorem execTransferOwner_field {st : Nat} {t : State} (h : Accepts { op := 0x109, role := some 2, fn := some 1 } r (s.advance dt))
    (hb : b = begun { op := 0x109, role := some 2, fn := some 1 } r (s.advance dt)) (hfield : b.sec.lifecycle = 2) (hfuse : b.fuseOk = true)
    (hlen : 236 ≤ r.inLen)
    (hsig : (if !Config.ed448Verify b.sec.ownerRoot (payBytes r.payload 0 120) (r.item 30 114) then fail Status.secAuthFail b
      else good (State.extend5 { b with sec := closeSessions { ownerGone b.sec with
        ownerRoot := r.item 0 57
        operators := sset [] 0 (Operator.mk (r.item 15 57) 2)
        ownerEpoch := (b.sec.ownerEpoch + 1) % 65536 } })) = .done st t 0 []) :
    execTransferOwner dt r s = .next (answer { op := 0x109, role := some 2, fn := some 1 } r (s.advance dt) t st 0 []) := by
  have hstate : ¬ (decide (b.sec.lifecycle ≠ 2) || !b.fuseOk) = true := by simp [hfield, hfuse]
  subst hb
  exact runCmd_done _ dt r s _ st 0 t [] h ((if_neg hstate).trans ((if_neg (Nat.not_lt.mpr hlen)).trans hsig))

/-- SEC_LIFECYCLE to FIELD or RETIRED, where the lifecycle allows it. -/
theorem execSecLifecycle_allowed {nxt : Nat} {t : State} (h : Accepts { op := 0x10A, role := some 2, fn := some 1 } r (s.advance dt))
    (hb : b = begun { op := 0x10A, role := some 2, fn := some 1 } r (s.advance dt)) (hfuse : b.fuseOk = true) (hnxt : r.w 0 = nxt) (hnxt' : nxt = 2 ∨ nxt = 3)
    (hlive : b.sec.lifecycle ≠ 3) (hfield : nxt = 2 → b.sec.lifecycle = 1)
    (ht : (if nxt = 2 then good (State.extend5 { b with sec := closeSessions { b.sec with lifecycle := 2 } })
      else good (State.extend5 { b with sec := closeSessions { ownerGone b.sec with lifecycle := 3, udsKill := true } })) = .done 0 t 0 []) :
    execSecLifecycle dt r s = .next (answer { op := 0x10A, role := some 2, fn := some 1 } r (s.advance dt) t 0 0 []) := by
  have hparam : ¬ (decide (r.w 0 ≠ 2) && decide (r.w 0 ≠ 3)) = true := by
    rw [hnxt]
    rcases hnxt' with rfl | rfl <;> decide
  have hstate : ¬ (!b.fuseOk || decide (b.sec.lifecycle = 3) || (decide (r.w 0 = 2) && decide (b.sec.lifecycle ≠ 1))) = true := by
    rw [hnxt, hfuse, decide_eq_false hlive]
    simpa using hfield
  subst hnxt hb
  exact runCmd_done _ dt r s _ 0 0 t [] h ((if_neg hparam).trans ((if_neg hstate).trans ht))

end Operators

section Firmware
variable {dt : Nat} {r : Req} {s b : State}

/-- FW_UPDATE answers what the update of slot B gives. -/
theorem execFwUpdate_accepts {st : Nat} {t : State} (h : Accepts { op := 0x10D, role := some 2, fn := some 1 } r (s.advance dt))
    (hb : b = begun { op := 0x10D, role := some 2, fn := some 1 } r (s.advance dt)) (hup : b.updateB r = (st, t)) :
    execFwUpdate dt r s = .next (answer { op := 0x10D, role := some 2, fn := some 1 } r (s.advance dt) t st 0 []) := by
  subst hb
  refine runCmd_done _ dt r s _ st 0 t [] h ?_
  rw [hup]

/-- FW_UPDATE with TRIAL does the same, and a warm reset follows a success. -/
theorem execFwTrial_accepts {st : Nat} {t : State} (h : Accepts { op := 0x10D, role := some 2, fn := some 1 } r (s.advance dt))
    (hb : b = begun { op := 0x10D, role := some 2, fn := some 1 } r (s.advance dt)) (hup : b.updateB r = (st, t)) :
    execFwTrial dt r s = .next (State.settle
      (if st = 0 then (t.complete r ((fetched r (s.advance dt)).cplKey { op := 0x10D, role := some 2, fn := some 1 } r) st 0 []).warmReset 3 true
        else t.complete r ((fetched r (s.advance dt)).cplKey { op := 0x10D, role := some 2, fn := some 1 } r) st 0 [])) := by
  subst hb
  refine (runCmdThen_accepts _ dt r s _ _ h).trans ?_
  rw [hup]

/-- FW_COMMIT of a trial boot: the image of slot B becomes slot A's, and the floor and the revocations follow. -/
theorem execFwCommit_verified {v : State} {i : Image} (h : Accepts { op := 0x10E, role := some 2, fn := some 1 } r (s.advance dt))
    (hb : b = begun { op := 0x10E, role := some 2, fn := some 1 } r (s.advance dt)) (hboot : b.fld F.SEC_BOOT.BOOTED 0 = 1) (hfuse : b.fuseOk = true)
    (hslot : b.sec.slotB = some i) (hv : v = { b with sec := { b.sec with slotA := some i } }) (hok : verifySlot v.sec (some i) = 1) :
    execFwCommit dt r s = .next (answer { op := 0x10E, role := some 2, fn := some 1 } r (s.advance dt) { v with sec := { v.sec with
      svnFloor := max v.sec.svnFloor ((v.sec.running.map (·.svn)).getD i.svn)
      revoked := v.sec.revoked ||| (i.revoke % 2 ^ i.keyIndex) } } 0 0 []) := by
  have hstate : ¬ (decide (b.fld F.SEC_BOOT.BOOTED 0 ≠ 1) || !b.fuseOk) = true := by simp [hboot, hfuse]
  subst hv hb
  refine runCmd_done _ dt r s _ 0 0 _ [] h ((if_neg hstate).trans ?_)
  rw [hslot]
  exact if_neg (not_not_intro hok)

end Firmware

/-- Settles O48: each command past its checks, by its own part's cases. -/
theorem securityCommandsAct : Obligations.SecurityCommandsAct := by
  unfold Obligations.SecurityCommandsAct
  intro dt r s u hu
  subst hu
  refine ⟨?_, ?_, ?_, ?_, ?_, ?_, ?_, ?_, ?_, ?_, ?_, ?_, ?_, ?_, ?_, ?_, ?_, ?_, ?_⟩
  · intro c b h
    refine ⟨fun hno => ?_, fun hpower hlife hop hlen henrolled hlocked => ?_,
      fun nd x v b1 b2 b3 sid t1 o hpower hlife hop hlen henrolled hlock hrng hnd hx hv hsid ht1 ho =>
        execSessionBegin_opens h rfl ⟨hpower, hlife, hop, hlen, henrolled⟩ hlock hrng hnd hx hv hsid ht1 ho⟩
    · have hno' : (decide (b.power = 3) || decide (b.sec.lifecycle = 3)) = true := by simpa using hno
      exact runCmd_done _ dt r s _ 0xA09 0 _ [] h (if_pos hno')
    · have hmay : SessionMayBegin b r := ⟨hpower, hlife, hop, hlen, henrolled⟩
      exact runCmd_done _ dt r s _ 0xA08 0 _ [] h ((if_neg hmay.state).trans ((if_neg hmay.params).trans (if_pos hlocked)))
  · intro c b h o k hopen hsid htime hop
    have ho : FinishesOpening b r o k := ⟨hopen, hsid, htime, hop⟩
    exact ⟨fun hok => execSessionFinish_opening h rfl ho (if_pos hok),
      fun hbad => execSessionFinish_opening h rfl ho (if_neg (ne_true_of_eq_false hbad))⟩
  · intro c b h hsome
    have hgo : ¬ (b.session r.ch).isNone = true := by
      rw [Option.isNone_eq_false_iff.mpr hsome]
      decide
    exact runCmd_done _ dt r s _ 0 0 _ [] h (if_neg hgo)
  · intro c b h hlife hlen hmask q hq
    have hparam : ¬ (decide (r.inLen < 36) || decide (r.w 8 ≥ 65536)) = true := by simp [hlen, hmask]
    subst hq
    exact runCmd_done _ dt r s _ 0 0 _ _ h ((if_neg hlife).trans (if_neg hparam))
  · intro c b h hlife
    exact runCmd_done _ dt r s _ 0 0 _ _ h (if_neg hlife)
  · intro c b h hlo hhi hlen
    have hparam : ¬ (decide (r.w 0 < 8) || decide (r.w 0 > 15) || decide (r.inLen < 72)) = true := by simp [hlo, hhi, hlen]
    exact runCmd_done _ dt r s _ 0 0 _ [] h (if_neg hparam)
  · exact fun h i hfree hrole hlen => execOperatorEnrol_free h rfl hfree hrole hlen
  · intro c b h k hk
    refine ⟨fun hadmin hlast => execOperatorRemove_enrolled h rfl hk (if_pos ?_), fun hother => execOperatorRemove_enrolled h rfl hk (if_neg ?_)⟩
    · rw [decide_eq_true hadmin, decide_eq_true hlast]
      decide
    · rw [decide_eq_false hother, Bool.false_and]
      decide
  · intro c b h hfuse
    refine ⟨fun hblank hlen => execProvision_blank h rfl hfuse hblank hlen, fun hlate => ?_⟩
    have hstop : (decide (b.sec.lifecycle > 1) || !b.fuseOk) = true := by rw [decide_eq_true hlate, Bool.true_or]
    exact runCmd_done _ dt r s _ 0xA09 0 _ [] h (if_pos hstop)
  · intro c b h hfield hfuse hlen
    refine ⟨fun hbad => execTransferOwner_field h rfl hfield hfuse hlen (if_pos ?_), fun hok => execTransferOwner_field h rfl hfield hfuse hlen (if_neg ?_)⟩
    · rw [hbad]
      decide
    · rw [hok]
      decide
  · intro c b h hfuse
    refine ⟨fun hnxt hlife => execSecLifecycle_allowed h rfl hfuse hnxt (.inl rfl) (fun h3 => ?_) (fun _ => hlife) (if_pos rfl),
      fun hnxt hlife => execSecLifecycle_allowed h rfl hfuse hnxt (.inr rfl) hlife (fun h2 => absurd h2 (by decide)) (if_neg (by decide))⟩
    exact absurd (hlife.symm.trans h3) (by decide)
  · intro c b h hlevel hrng ch t hch
    have hparam : ¬ (decide (r.w 0 ≠ 1) && decide (r.w 0 ≠ 2)) = true := by rcases hlevel with h | h <;> simp [h]
    refine runCmd_done _ dt r s _ 0 0 t ch h ((if_neg hparam).trans ((if_neg (ne_true_of_eq_false hrng)).trans ?_))
    rw [hch]
  · intro c b h st t hunlock
    show execSecDebugUnlock dt r s = _
    refine runCmd_done _ dt r s _ st 0 t [] h ?_
    rw [hunlock]
  · intro c b h st t hup
    have htrial := execFwTrial_accepts h rfl hup
    refine ⟨execFwUpdate_accepts h rfl hup, fun hbad => ?_, fun hok => ?_⟩
    · rw [if_neg hbad] at htrial
      exact htrial
    · rw [if_pos hok, hok] at htrial
      exact htrial
  · exact fun h v i hboot hfuse hslot hv hok => execFwCommit_verified h rfl hboot hfuse hslot hv hok
  · intro c b h hdebug hslot hlen
    have hparam : ¬ (decide (r.w 0 > 63) || decide (r.inLen < 68)) = true := by simp [hslot, hlen]
    exact runCmd_done _ dt r s _ 0 0 _ [] h ((if_neg hdebug).trans (if_neg hparam))
  · intro c b h hdebug hid halg halg' hlen
    have hparam : ¬ (decide (r.w 0 > 255) || decide (r.w 1 = 0) || decide (r.w 1 > 5) || decide (r.inLen < 56)) = true := by
      have hpos : ¬ r.w 1 = 0 := by omega
      simp [hid, hpos, halg', hlen]
    exact runCmd_done _ dt r s _ 0 0 _ [] h ((if_neg hdebug).trans (if_neg hparam))
  · intro c b h hlen hpolicy
    have hparam : ¬ (decide (r.inLen < 4) || decide (r.w 0 ≥ 262144)) = true := by simp [hlen, hpolicy]
    exact runCmd_done _ dt r s _ 0 0 _ [] h (if_neg hparam)
  · intro c b h
    exact runCmd_done c dt r s policyRead 0 _ b _ h rfl

end Sys2Proof.Proofs.SecurityCommands
end

section
/-! Expert accesses: registers, memory and buffers (chapters 08 and 16). -/
namespace Sys2Proof.Proofs.ExpertAccesses
open Sys2Proof Sys2Proof.Machine Sys2Proof.Safety

/-! ## Registers -/

section Registers
variable {dt : Nat} {r : Req} {s b t : State} {a x : RegAddr} {l : List RegAddr}

/-- REG_READ of 1 to 1,024 words passes its parameter check. -/
theorem regRead_params (hmin : 1 ≤ r.w 0) (hmax : r.w 0 ≤ 1024) (hlen : 4 ≤ r.inLen) :
    ¬ (decide (r.w 0 < 1) || decide (r.w 0 > 1024) || decide (r.inLen < 4)) = true := by
  rw [decide_eq_false (Nat.not_lt.mpr hmin), decide_eq_false (Nat.not_lt.mpr hmax), decide_eq_false (Nat.not_lt.mpr hlen)]
  decide

/-- REG_WRITE of 1 to 1,024 words passes its parameter check. -/
theorem regWrite_params {n : Nat} (hmin : 1 ≤ n) (hmax : n ≤ 1024) : ¬ (decide (n < 1) || decide (n > 1024)) = true := by
  rw [decide_eq_false (Nat.not_lt.mpr hmin), decide_eq_false (Nat.not_lt.mpr hmax)]
  decide

/-- A run that is open to the host. -/
theorem open_run (hopen : l.all RegAddr.isOpen = true) : ¬ (!l.all RegAddr.isOpen) = true := by
  rw [hopen]
  decide

/-- The command of REG_READ. -/
abbrev cmdRegRead : Cmd := { op := 0x8000, role := some 2, read := true, expert := true }

/-- The command of REG_WRITE; a write of the reset request is one. -/
abbrev cmdRegWrite (a : RegAddr) (r : Req) : Cmd := { op := 0x8001, role := some 2, expert := true, reset := a.isReset r.payload.length }

/-- REG_READ of an open run reads it in order. -/
theorem execRegRead_reads {v : List Word} (h : Accepts cmdRegRead r (s.advance dt)) (hb : b = begun cmdRegRead r (s.advance dt))
    (hl : l = RegAddr.run (r.w 0) a) (hmin : 1 ≤ r.w 0) (hmax : r.w 0 ≤ 1024) (hlen : 4 ≤ r.inLen) (hopen : l.all RegAddr.isOpen = true)
    (hrun : l.find? b.addrStopped = none) (hread : b.readRun l = (v, t)) :
    execRegRead dt a r s = .next (answer cmdRegRead r (s.advance dt) t 0 0 (wordsBytes v)) := by
  subst hl hb
  refine runCmd_done cmdRegRead dt r s _ 0 0 t _ h ((if_neg (regRead_params hmin hmax hlen)).trans ((if_neg (open_run hopen)).trans ?_))
  rw [hrun]
  dsimp only
  rw [hread]

/-- REG_READ into a domain whose clock is stopped hangs. -/
theorem execRegRead_hangs (h : Accepts cmdRegRead r (s.advance dt)) (hb : b = begun cmdRegRead r (s.advance dt))
    (hl : l = RegAddr.run (r.w 0) a) (hmin : 1 ≤ r.w 0) (hmax : r.w 0 ≤ 1024) (hlen : 4 ≤ r.inLen) (hopen : l.all RegAddr.isOpen = true)
    (hstop : l.find? b.addrStopped = some x) :
    execRegRead dt a r s = .next (waiting r (b.undefined .stoppedClock) (.clock x)) := by
  subst hl hb
  refine runCmd_wait cmdRegRead dt r s _ _ _ h ((if_neg (regRead_params hmin hmax hlen)).trans ((if_neg (open_run hopen)).trans ?_))
  rw [hstop]
  rfl

/-- The registers of a run that take effect with a commit. -/
abbrev runStages (l : List RegAddr) : Bool := l.any fun a => a.held.isNone && (a.reg.masks a.word).cmt != 0

/-- REG_WRITE of an open run whose clocks run writes it in order, staging where it has CMT fields. -/
theorem execRegWrite_writes (hb : b = begun (cmdRegWrite a r) r (s.advance dt)) (hl : l = RegAddr.run r.payload.length a) (hmin : 1 ≤ r.payload.length)
    (hmax : r.payload.length ≤ 1024) (hopen : l.all RegAddr.isOpen = true) (hrun : l.find? b.addrStopped = none) :
    ∃ body, execRegWrite dt a r s = runCmd (cmdRegWrite a r) dt r s body ∧
      body b = staging r b (runStages l) fun u => good (u.writeRun (l.zip r.payload)) := by
  subst hl hb
  refine ⟨_, rfl, (if_neg (regWrite_params hmin hmax)).trans ((if_neg (open_run hopen)).trans ?_)⟩
  rw [hrun]

/-- REG_WRITE of words without CMT fields is done at once. -/
theorem execRegWrite_immediate (h : Accepts (cmdRegWrite a r) r (s.advance dt)) (hb : b = begun (cmdRegWrite a r) r (s.advance dt))
    (hl : l = RegAddr.run r.payload.length a) (hmin : 1 ≤ r.payload.length) (hmax : r.payload.length ≤ 1024) (hopen : l.all RegAddr.isOpen = true)
    (hrun : l.find? b.addrStopped = none) (hplain : runStages l = false) :
    execRegWrite dt a r s = .next (answer (cmdRegWrite a r) r (s.advance dt) (b.writeRun (l.zip r.payload)) 0 0 []) := by
  obtain ⟨body, hexec, hbody⟩ := execRegWrite_writes (a := a) hb hl hmin hmax hopen hrun
  rw [hplain] at hbody
  subst hb
  rw [hexec]
  refine runCmd_done _ dt r s body 0 0 _ [] h (hbody.trans ?_)
  exact (if_pos (by rw [Bool.not_false, Bool.or_true])).trans rfl

/-- REG_WRITE of words with CMT fields stages them. -/
theorem execRegWrite_staged (h : Accepts (cmdRegWrite a r) r (s.advance dt)) (hb : b = begun (cmdRegWrite a r) r (s.advance dt))
    (hl : l = RegAddr.run r.payload.length a) (hmin : 1 ≤ r.payload.length) (hmax : r.payload.length ≤ 1024) (hopen : l.all RegAddr.isOpen = true)
    (hrun : l.find? b.addrStopped = none) (hcmt : runStages l = true) (htxn : r.txn ≠ 0 ∨ b.txn = none) :
    execRegWrite dt a r s = .next (stageDone (cmdRegWrite a r) r (s.advance dt) ((stageFrom r b).writeRun (l.zip r.payload)) 0 []) := by
  obtain ⟨body, hexec, hbody⟩ := execRegWrite_writes (a := a) hb hl hmin hmax hopen hrun
  rw [hcmt] at hbody
  subst hb
  have hstaged := hbody.trans (staging_done r _ _ _ 0 [] htxn rfl)
  rw [hexec, stageDone]
  by_cases hown : r.txn = 0
  · rw [if_pos hown] at hstaged ⊢
    exact runCmd_wait _ dt r s body _ _ h hstaged
  · rw [if_neg hown] at hstaged ⊢
    exact runCmd_done _ dt r s body 0 0 _ [] h hstaged

/-- REG_WRITE into a domain whose clock is stopped hangs. -/
theorem execRegWrite_hangs (h : Accepts (cmdRegWrite a r) r (s.advance dt)) (hb : b = begun (cmdRegWrite a r) r (s.advance dt))
    (hl : l = RegAddr.run r.payload.length a) (hmin : 1 ≤ r.payload.length) (hmax : r.payload.length ≤ 1024) (hopen : l.all RegAddr.isOpen = true)
    (hstop : l.find? b.addrStopped = some x) :
    execRegWrite dt a r s = .next (waiting r (b.undefined .stoppedClock) (.clock x)) := by
  subst hl hb
  refine runCmd_wait _ dt r s _ _ _ h ((if_neg (regWrite_params hmin hmax)).trans ((if_neg (open_run hopen)).trans ?_))
  rw [hstop]
  rfl

end Registers

/-! ## Memory -/

section Memory
variable {dt a n : Nat} {r : Req} {s b : State} {x : Option RegAddr}

/-- The command of MEM_READ. -/
abbrev cmdMemRead : Cmd := { op := 0x8002, role := some 2, read := true, expert := true }

/-- The command of MEM_WRITE. -/
abbrev cmdMemWrite : Cmd := { op := 0x8003, role := some 2, expert := true }

/-- What MEM_READ does within its bounds: refused, hung, answered from the SRAM or a unit, or asked of the DRAM. -/
def memReadReply (b : State) (a n : Nat) (x : Option RegAddr) (ch : Nat) : Reply :=
  match b.memDenied a n, b.memStopped a n x, x with
  | some st, _, _ => fail st b
  | none, some y, _ => hang b y
  | none, none, none =>
    if a ≥ dramSize then .done 0 b 0 (memReadBytes b.sram (a - dramSize) n)
    else .wait (b.dramAsk 3 false a n (some ch)) (.mem (blocksOf a n).length false (b.dramBytes a n))
  | none, none, some y =>
    if a < dramSize then .wait (b.dramAsk 3 false a n (some ch)) (.mem (blocksOf a n).length false (b.dramBytes a n)) else
    let (v, t) := b.readRun (RegAddr.run (n / 4) y)
    .done 0 t 0 (wordsBytes v)

/-- What MEM_WRITE does within its bounds. -/
def memWriteReply (b : State) (a n : Nat) (x : Option RegAddr) (p : Bytes) (l : List Word) : Reply :=
  match b.memDenied a n, b.memStopped a n x, x with
  | some st, _, _ => fail st b
  | none, some y, _ => hang b y
  | none, none, none => if a ≥ dramSize then good { b with sram := memWriteBytes b.sram (a - dramSize) p } else good (b.dramWrite 3 a p)
  | none, none, some y =>
    if a < dramSize then good (b.dramWrite 3 a p)
    else good (b.writeRun ((RegAddr.run (n / 4) y).zip l))

section ReadReply
variable {ch st : Nat} {y : RegAddr} {v : List Word} {t : State}

theorem memReadReply_denied (hdenied : b.memDenied a n = some st) : memReadReply b a n x ch = .done st b 0 [] := by
  unfold memReadReply
  rw [hdenied]
  rfl

theorem memReadReply_stopped (hdenied : b.memDenied a n = none) (hstop : b.memStopped a n x = some y) :
    memReadReply b a n x ch = .wait (b.undefined .stoppedClock) (.clock y) := by
  unfold memReadReply
  rw [hdenied, hstop]
  rfl

theorem memReadReply_sram (hdenied : b.memDenied a n = none) (hrun : b.memStopped a n x = none) (hx : x = none) (hsram : dramSize ≤ a) :
    memReadReply b a n x ch = .done 0 b 0 (memReadBytes b.sram (a - dramSize) n) := by
  unfold memReadReply
  rw [hdenied, hrun, hx]
  exact if_pos hsram

theorem memReadReply_dram (hdenied : b.memDenied a n = none) (hrun : b.memStopped a n x = none) (hdram : a < dramSize) :
    memReadReply b a n x ch = .wait (b.dramAsk 3 false a n (some ch)) (.mem (blocksOf a n).length false (b.dramBytes a n)) := by
  unfold memReadReply
  rw [hdenied, hrun]
  cases x with
  | none => exact if_neg (Nat.not_le.mpr hdram)
  | some y => exact if_pos hdram

theorem memReadReply_unit (hdenied : b.memDenied a n = none) (hrun : b.memStopped a n x = none) (hx : x = some y) (hsram : dramSize ≤ a)
    (hread : b.readRun (RegAddr.run (n / 4) y) = (v, t)) : memReadReply b a n x ch = .done 0 t 0 (wordsBytes v) := by
  unfold memReadReply
  rw [hdenied, hrun, hx]
  refine (if_neg (Nat.not_lt.mpr hsram)).trans ?_
  rw [hread]

end ReadReply

/-- Good arguments of a memory access pass the check. -/
theorem mem_params {k : Nat} (hlen : k ≤ r.inLen) (hargs : memArgs a n = true) : ¬ (decide (r.inLen < k) || !memArgs a n) = true := by
  rw [decide_eq_false (Nat.not_lt.mpr hlen), hargs]
  decide

/-- The arguments of MEM_READ: address and length, and what lies there. -/
structure MemReadArgs (r : Req) (a n : Nat) (x : Option RegAddr) : Prop where
  addr : a = r.w 0 + 4294967296 * r.w 1
  count : n = r.w 2
  unit : x = r.unit
  length : 12 ≤ r.inLen
  args : memArgs a n = true

/-- The arguments of MEM_WRITE: address, length and bytes, and what lies there. -/
structure MemWriteArgs (r : Req) (a n : Nat) (x : Option RegAddr) (p : Bytes) : Prop where
  addr : a = r.w 0 + 4294967296 * r.w 1
  count : n = r.w 2
  unit : x = r.unit
  bytes : p = payBytes r.payload 3 n
  length : 12 + n ≤ r.inLen
  args : memArgs a n = true

/-- MEM_READ that completes at once. -/
theorem execMemRead_done {st result : Nat} {t : State} {out : Bytes} (h : Accepts cmdMemRead r (s.advance dt)) (hb : b = begun cmdMemRead r (s.advance dt))
    (hr : MemReadArgs r a n x) (hreply : memReadReply b a n x r.ch = .done st t result out) :
    execMemRead dt r s = .next (answer cmdMemRead r (s.advance dt) t st result out) := by
  obtain ⟨ha, hn, hx, hlen, hargs⟩ := hr
  have hparam := mem_params hlen hargs
  subst hx hn ha hb
  exact runCmd_done cmdMemRead dt r s _ st result t out h ((if_neg hparam).trans hreply)

/-- MEM_READ that waits. -/
theorem execMemRead_wait {t : State} {w : Wait} (h : Accepts cmdMemRead r (s.advance dt)) (hb : b = begun cmdMemRead r (s.advance dt))
    (hr : MemReadArgs r a n x) (hreply : memReadReply b a n x r.ch = .wait t w) : execMemRead dt r s = .next (waiting r t w) := by
  obtain ⟨ha, hn, hx, hlen, hargs⟩ := hr
  have hparam := mem_params hlen hargs
  subst hx hn ha hb
  exact runCmd_wait cmdMemRead dt r s _ t w h ((if_neg hparam).trans hreply)

/-- MEM_WRITE that completes at once. -/
theorem execMemWrite_done {p : Bytes} {st result : Nat} {t : State} {out : Bytes} (h : Accepts cmdMemWrite r (s.advance dt))
    (hb : b = begun cmdMemWrite r (s.advance dt)) (hr : MemWriteArgs r a n x p)
    (hreply : memWriteReply b a n x p (r.payload.drop 3) = .done st t result out) :
    execMemWrite dt r s = .next (answer cmdMemWrite r (s.advance dt) t st result out) := by
  obtain ⟨ha, hn, hx, hp, hlen, hargs⟩ := hr
  subst hn hp
  have hparam := mem_params hlen hargs
  subst hx ha hb
  exact runCmd_done cmdMemWrite dt r s _ st result t out h ((if_neg hparam).trans hreply)

/-- MEM_WRITE that waits. -/
theorem execMemWrite_wait {p : Bytes} {t : State} {w : Wait} (h : Accepts cmdMemWrite r (s.advance dt))
    (hb : b = begun cmdMemWrite r (s.advance dt)) (hr : MemWriteArgs r a n x p)
    (hreply : memWriteReply b a n x p (r.payload.drop 3) = .wait t w) : execMemWrite dt r s = .next (waiting r t w) := by
  obtain ⟨ha, hn, hx, hp, hlen, hargs⟩ := hr
  subst hn hp
  have hparam := mem_params hlen hargs
  subst hx ha hb
  exact runCmd_wait cmdMemWrite dt r s _ t w h ((if_neg hparam).trans hreply)

/-- A DRAM access with good arguments ends within the DRAM. -/
theorem memArgs_dram (hargs : memArgs a n = true) (ha : a < dramSize) : a + n ≤ dramSize := by
  simp only [memArgs, Bool.and_eq_true, Bool.not_eq_true', Bool.and_eq_false_iff, decide_eq_false_iff_not] at hargs
  obtain ⟨⟨-, hend⟩, -⟩ := hargs
  exact Nat.not_lt.mp (hend.resolve_left (not_not_intro ha))

/-- The bytes of a payload are at most as many as asked for. -/
theorem payBytes_length_le (l : List Word) (lo n : Nat) : (payBytes l lo n).length ≤ n := List.length_take_le _ _

/-- A DRAM write that does not wrap stores its bytes at its address and leaves the SRAM alone. -/
theorem dramWrite_memories {p : Bytes} (hend : a + p.length ≤ dramSize) (ha : a < dramSize) :
    (b.dramWrite 3 a p).dram = memWriteBytes b.dram a p ∧ (b.dramWrite 3 a p).sram = b.sram := by
  have hin : a % dramSize = a := Nat.mod_eq_of_lt ha
  have htake : p.take (dramSize - a) = p := List.take_of_length_le (by omega)
  have hdrop : p.drop (dramSize - a) = [] := List.drop_of_length_le (by omega)
  refine ⟨?_, rfl⟩
  show memWriteBytes (memWriteBytes b.dram (a % dramSize) (p.take (dramSize - a % dramSize))) 0 (p.drop (dramSize - a % dramSize)) = _
  rw [hin, htake, hdrop]
  rfl

/-- What a memory write must leave: its bytes stored, every other byte as it was. -/
def Stores (m m' : List Host.Cell) (a : Nat) (p : Bytes) : Prop :=
  (∀ x, x < a ∨ a + p.length ≤ x → memRead m' x = memRead m x) ∧ ∀ i, i < p.length → memRead m' (a + i) = p.getD i 0

/-- Writing bytes stores them. -/
theorem stores_memWriteBytes (m : List Host.Cell) (a : Nat) (p : Bytes) : Stores m (memWriteBytes m a p) a p :=
  ⟨fun x hx => memRead_memWriteBytes_ne p m a x hx, fun i hi => memRead_memWriteBytes_in p m a i hi⟩

/-- The state after a write into memory itself. -/
def memWritten (b : State) (a : Nat) (p : Bytes) : State :=
  if a ≥ dramSize then { b with sram := memWriteBytes b.sram (a - dramSize) p } else b.dramWrite 3 a p

/-- An SRAM address: the SRAM alone is written. -/
theorem memWritten_sram {p : Bytes} (ha : dramSize ≤ a) : memWritten b a p = { b with sram := memWriteBytes b.sram (a - dramSize) p } := if_pos ha

/-- A DRAM address: the DRAM alone is written. -/
theorem memWritten_dram {p : Bytes} (ha : a < dramSize) : memWritten b a p = b.dramWrite 3 a p := if_neg (Nat.not_le.mpr ha)

/-- A write into memory keeps the canonical form. -/
theorem memOk_memWritten {p : Bytes} (hend : a < dramSize → a + p.length ≤ dramSize) (hok : MemOk b) : MemOk (memWritten b a p) := by
  obtain ⟨hdram, hsram⟩ := hok
  by_cases ha : a < dramSize
  · obtain ⟨hd, hs⟩ := dramWrite_memories (b := b) (hend ha) ha
    rw [memWritten_dram ha, MemOk, hd, hs]
    exact ⟨memWriteBytes_wf _ _ _ hdram, hsram⟩
  · rw [memWritten_sram (Nat.not_lt.mp ha)]
    exact ⟨hdram, memWriteBytes_wf _ _ _ hsram⟩

/-- A write that meets no unit goes to memory. -/
theorem memWriteReply_memory {p : Bytes} {l : List Word} (hdenied : b.memDenied a n = none) (hrun : b.memStopped a n x = none)
    (hplace : x = none ∨ a < dramSize) : memWriteReply b a n x p l = good (memWritten b a p) := by
  unfold memWriteReply
  rw [hdenied, hrun]
  cases x with
  | none =>
    by_cases ha : a < dramSize
    · rw [memWritten_dram ha]
      exact if_neg (Nat.not_le.mpr ha)
    · rw [memWritten_sram (Nat.not_lt.mp ha)]
      exact if_pos (Nat.not_lt.mp ha)
  | some y =>
    have ha : a < dramSize := hplace.resolve_left (by simp)
    rw [memWritten_dram ha]
    exact if_pos ha

theorem memWriteReply_stopped {p : Bytes} {l : List Word} {y : RegAddr} (hdenied : b.memDenied a n = none) (hstop : b.memStopped a n x = some y) :
    memWriteReply b a n x p l = .wait (b.undefined .stoppedClock) (.clock y) := by
  unfold memWriteReply
  rw [hdenied, hstop]
  rfl

theorem memWriteReply_unit {p : Bytes} {l : List Word} {y : RegAddr} (hdenied : b.memDenied a n = none) (hrun : b.memStopped a n x = none) (hx : x = some y)
    (hsram : dramSize ≤ a) : memWriteReply b a n x p l = good (b.writeRun ((RegAddr.run (n / 4) y).zip l)) := by
  unfold memWriteReply
  rw [hdenied, hrun, hx]
  exact if_neg (Nat.not_lt.mpr hsram)

end Memory

/-! ## Buffers -/

section Buffers
variable {dt : Nat} {r : Req} {s b : State}

/-- The command of BUF_FREE. -/
abbrev cmdBufFree : Cmd := { op := 0x8031, role := some 2, expert := true }

/-- A buffer that exists passes the check of BUF_FREE. -/
theorem bufFree_params {id : Nat} (hid : id < 1048576) (hpool : id % 262144 < b.poolCount (id / 262144)) :
    ¬ (decide (id ≥ 1048576) || decide (id % 262144 ≥ b.poolCount (id / 262144))) = true := by
  rw [decide_eq_false (Nat.not_le.mpr hid), decide_eq_false (Nat.not_le.mpr hpool)]
  decide

/-- BUF_FREE frees the buffer; a foreign one is undefined behaviour where its owner is not checked. -/
theorem execBufFree_frees {id : Nat} {t : State} (h : Accepts cmdBufFree r (s.advance dt)) (hb : b = begun cmdBufFree r (s.advance dt))
    (hid : id = r.arg.toNat) (hlt : id < 1048576) (hpool : id % 262144 < b.poolCount (id / 262144))
    (ht : (match sfind b.bufs id with
      | some (o, _) => good (State.freeBuf (if o ≠ 5 && !b.flag F.BUF_CTL.OWNER_CHECK 0 then b.undefined .foreignFree else b) id 5)
      | none => good (b.freeBuf id 5)) = good t) :
    execBufFree dt r s = .next (answer cmdBufFree r (s.advance dt) t 0 0 []) := by
  have hparam := bufFree_params hlt hpool
  subst hid hb
  exact runCmd_done cmdBufFree dt r s _ 0 0 t [] h ((if_neg hparam).trans ht)

end Buffers

/-- Settles O49: each access past its parameter checks, by whether it is open, stopped, and where it goes. -/
theorem expertAccessesAct : Obligations.ExpertAccessesAct := by
  unfold Obligations.ExpertAccessesAct
  intro dt r s u hu
  subst hu
  refine ⟨?_, ?_, ?_, ?_, ?_, ?_, ?_⟩
  · intro c b h a l hl hmin hmax hlen
    refine ⟨fun hclosed => ?_, fun v t hopen hrun hread => execRegRead_reads h rfl hl hmin hmax hlen hopen hrun hread,
      fun x hopen hstop => execRegRead_hangs h rfl hl hmin hmax hlen hopen hstop⟩
    subst hl
    have hdenied : (!(RegAddr.run (r.w 0) a).all RegAddr.isOpen) = true := by rw [hclosed]; decide
    exact runCmd_done _ dt r s _ 5 0 _ [] h ((if_neg (regRead_params hmin hmax hlen)).trans (if_pos hdenied))
  · intro a c b h l hl hmin hmax hopen
    exact ⟨fun hrun hplain => execRegWrite_immediate h rfl hl hmin hmax hopen hrun hplain,
      fun hrun hcmt htxn => execRegWrite_staged h rfl hl hmin hmax hopen hrun hcmt htxn,
      fun x hstop => execRegWrite_hangs h rfl hl hmin hmax hopen hstop⟩
  · intro c b h a n x ha hn hx hlen hargs
    have hr : MemReadArgs r a n x := ⟨ha, hn, hx, hlen, hargs⟩
    exact ⟨fun st hdenied => execMemRead_done h rfl hr (memReadReply_denied hdenied),
      fun hdenied hrun hnone hsram => execMemRead_done h rfl hr (memReadReply_sram hdenied hrun hnone hsram),
      fun hdenied hrun hdram => execMemRead_wait h rfl hr (memReadReply_dram hdenied hrun hdram),
      fun y v t hdenied hrun hy hsram hread => execMemRead_done h rfl hr (memReadReply_unit hdenied hrun hy hsram hread),
      fun y hdenied hstop => execMemRead_wait h rfl hr (memReadReply_stopped hdenied hstop)⟩
  · intro c b h a n p x ha hn hx hp hlen hargs hdenied
    have hr : MemWriteArgs r a n x p := ⟨ha, hn, hx, hp, hlen, hargs⟩
    have hend : a < dramSize → a + p.length ≤ dramSize := by
      intro hdram
      have hfits := memArgs_dram hargs hdram
      have hbytes : p.length ≤ n := hp ▸ payBytes_length_le _ _ _
      omega
    refine ⟨fun hrun hplace => ⟨memWritten b a p, execMemWrite_done h rfl hr (memWriteReply_memory hdenied hrun hplace), memOk_memWritten hend, ?_, ?_⟩,
      fun y hrun hy hsram => execMemWrite_done h rfl hr (memWriteReply_unit hdenied hrun hy hsram),
      fun y hstop => execMemWrite_wait h rfl hr (memWriteReply_stopped hdenied hstop)⟩
    · intro hsram
      rw [memWritten_sram hsram]
      exact ⟨rfl, stores_memWriteBytes b.sram (a - dramSize) p⟩
    · intro hdram
      obtain ⟨hd, hs⟩ := dramWrite_memories (b := b) (hend hdram) hdram
      rw [memWritten_dram hdram, hd, hs]
      exact ⟨rfl, stores_memWriteBytes b.dram a p⟩
  · intro c b h hpool
    refine ⟨fun hnone => runCmd_done _ dt r s _ 0x402 0 _ [] h ((if_neg (Nat.not_le.mpr hpool)).trans ?_),
      fun q id t hsome => runCmd_done _ dt r s _ 0 id t [] h ((if_neg (Nat.not_le.mpr hpool)).trans ?_)⟩
    · rw [show (begun c r (s.advance dt)).allocFor 45 5 r.arg.toNat = none from hnone]
      rfl
    · rw [show (begun c r (s.advance dt)).allocFor 45 5 r.arg.toNat = some (q, id, t) from hsome]
  · intro c b h id hid hlt hpool
    refine ⟨fun hown => execBufFree_frees h rfl hid hlt hpool ?_, fun o n hcheck hbuf ho => execBufFree_frees h rfl hid hlt hpool ?_⟩
    · cases hbuf : sfind b.bufs id with
      | none => rfl
      | some e =>
        have hcheck := hown.resolve_right (by rw [hbuf]; simp)
        have hkept : ¬ (decide (e.1 ≠ 5) && !b.flag F.BUF_CTL.OWNER_CHECK 0) = true := by simp [hcheck]
        exact congrArg (fun y => good (State.freeBuf y id 5)) (if_neg hkept)
    · have hforeign : (decide (o ≠ 5) && !b.flag F.BUF_CTL.OWNER_CHECK 0) = true := by simp [hcheck, ho]
      rw [hbuf]
      exact congrArg (fun y => good (State.freeBuf y id 5)) (if_pos hforeign)
  · intro c b h
    exact ⟨fun hquar => runCmd_done _ dt r s _ 0 0 _ [] h (if_pos hquar),
      fun hnot => runCmd_done _ dt r s _ 2 0 _ [] h (if_neg (ne_true_of_eq_false hnot))⟩

end Sys2Proof.Proofs.ExpertAccesses
end

section
/-! Every command answers a settled next state (R12): mailbox commands and recipe operations through the lemma of their family, the
rows whose way branches through the chapter they belong to, the rest by their definition. -/
namespace Sys2Proof.Proofs.SettledStates
open Sys2Proof Sys2Proof.Machine Sys2Proof.Safety

/-- An answer that is a settled next state. -/
def Settles (o : Out) : Prop := ∃ t : State, o = .next t.settle

theorem settles_finish (s : State) : Settles (finish s) := ⟨s, rfl⟩

theorem settles_ite {b : Prop} [Decidable b] {x y : Out} (hx : Settles x) (hy : Settles y) : Settles (if b then x else y) := by
  split
  · exact hx
  · exact hy

/-! ## Mailbox commands and recipe operations -/

/-- A mailbox command settles, whichever check completes it and whatever its own part does. -/
theorem settles_of_mailboxRow {i : Instr} {c : Cmd} {dt : Nat} {r : Req} (h : mailboxRow i = some (c, dt, r)) (s : State) :
    Settles (exec i s) := by
  obtain ⟨body, after, hexec⟩ := mailboxRow_exec i c dt r s h
  rw [hexec]
  exact runCmdThen_next c dt r s body after

/-- A recipe operation settles, whatever it does. -/
theorem settles_of_recipeOf {i : Instr} {oper dt : Nat} {pl : Fin 4} {k : Fin 8} (h : recipeOf i = some (oper, dt, pl, k)) (s : State) :
    Settles (exec i s) := by
  obtain ⟨-, run, hexec⟩ := recipeOf_exec i oper dt pl k s h
  rw [hexec]
  exact recipeRow_next oper dt pl k s run

/-! ## Rows that branch, chapter by chapter

Each row is a tree of conditions whose leaves are all `finish`: a leaf settles, and a node is split. The leaf is tried first, so that
no condition inside the state a leaf finishes with is split. -/

/-- The chapters with rows that branch. -/
inductive Chapter
  | ports
  | lookup
  | time
  | measure
  | queues
  | batch
  | faults
  | events
  | power
  | host

/-- The chapter of a row that branches. -/
def branching : Instr → Option Chapter
  | .parseWindowWaitEnd .. | .engineDispatch .. | .p43Inject .. | .bufOverrun .. | .sgmiiSpeedChange .. | .pfcReceived ..
  | .pfcPauseExpiry .. | .lpiEntry .. | .peerLpiSignal .. => some .ports
  | .txnLapse .. | .mbxReqDb .. | .mbxCplDb .. | .mbxChannelDisable .. | .learnWindow .. | .ageingTick .. | .throttleRise ..
  | .throttleFall .. => some .lookup
  | .rcvyResetTimeout .. | .supervisionTx .. | .bypDrvOn .. | .cmpResolve .. | .timeSourceLost .. | .traceableExpiry ..
  | .ref25Lost .. | .timeTxtsRead .. | .ppsInEdge .. | .irigInFrame .. | .ppsOutEdge .. | .gpioInputEdge .. | .gridEstimate ..
  | .gridHoldoverEntry .. | .gridHoldoverExpiry .. => some .time
  | .recClose .. | .svSampleRecord .. | .streamLoss .. | .phxTick .. | .harmWindowEnd .. | .pmuReport .. | .pmuClientTimeout ..
  | .gooseRetransmit .. | .gooseFrameBuild .. | .gpioPulseEnd .. => some .measure
  | .sessionLapse .. | .sessionIdleTimeout .. | .generationCommit .. | .recipeBankWrite .. | .rwVersionWait .. | .authVerdict ..
  | .shaperWake .. | .schedDecision .. | .copyTxDone .. => some .queues
  | .nibenBlockRx .. | .nibenReplayTimeout .. | .linkTrainingLock .. | .helloMsg .. | .linkStateMsg .. | .memberUnreachable ..
  | .frameMsg .. | .creditIssue .. | .configMsg .. | .batchStageTimeout .. | .digestReportDeadline .. | .batchCommitAtT ..
  | .heldResend .. | .timeCompareTx .. | .timeMsg .. => some .batch
  | .dramRequest .. | .dramCalibration .. | .dramRowIdleClose .. | .faultLineLatch .. | .collectorMismatch .. | .watchExpiry ..
  | .escalationClear .. | .wdogWarn .. | .watchdog .. | .journalSignTimer .. | .sourceEvent .. | .coalesceRelease ..
  | .staleDelivery .. => some .faults
  | .evtPass .. | .evtTimerExpiry .. | .subLoss .. | .fswCommit .. | .timePointFire .. => some .events
  | .registerWrite .. | .rcRead .. | .closure .. | .thermalShutdown .. | .holdEntry .. | .shedStage .. | .holdExit ..
  | .shedUndo .. | .vinLow .. | .vinLowEnd .. | .storeFault .. | .pwrMeasureApply .. | .pipelineWake .. | .phxBankWake ..
  | .powerOn .. | .thermalRestart .. | .porstN .. | .wrstN .. | .starterRun .. => some .power
  | .proofDone .. | .proofTimeout .. | .hdmaTxDoorbell .. | .hdmaRxDoorbell .. | .hdmaTxFrame .. | .i2cRead .. | .uartCommand ..
  | .jtagAccess .. | .sakInstallDone .. => some .host
  | _ => none

/-- A row of the ports and parses (chapters 02 and 03) settles. -/
theorem settles_of_ports {c : Instr} (h : branching c = some .ports) (s : State) : Settles (exec c s) := by
  cases c <;> cases h
  all_goals
    simp only [exec, execParseWindowWaitEnd, execEngineDispatch, execP43Inject, execBufOverrun, execSgmiiSpeedChange, execPfcReceived,
      execPfcPauseExpiry, execLpiEntry, execPeerLpiSignal]
    repeat' first | with_reducible exact settles_finish _ | split

/-- A row of the channels, the exact-match store or the TCAM (chapters 05, 06 and 16) settles. -/
theorem settles_of_lookup {c : Instr} (h : branching c = some .lookup) (s : State) : Settles (exec c s) := by
  cases c <;> cases h
  all_goals
    simp only [exec, execTxnLapse, execMbxReqDb, execMbxCplDb, execMbxChannelDisable, execLearnWindow, execAgeingTick, execThrottleRise,
      execThrottleFall]
    repeat' first | with_reducible exact settles_finish _ | split

/-- A row of redundancy or time (chapters 10 and 11) settles. -/
theorem settles_of_time {c : Instr} (h : branching c = some .time) (s : State) : Settles (exec c s) := by
  cases c <;> cases h
  all_goals
    simp only [exec, execRcvyResetTimeout, execSupervisionTx, execBypDrvOn, execCmpResolve, execTimeSourceLost, execTraceableExpiry, execRef25Lost,
      execTimeTxtsRead, execPpsInEdge, execIrigInFrame, execPpsOutEdge, execGpioInputEdge, execGridEstimate, execGridHoldoverEntry,
      execGridHoldoverExpiry]
    repeat' first | with_reducible exact settles_finish _ | split

/-- A row of measurement, reports or GOOSE (chapters 12 and 13) settles. -/
theorem settles_of_measure {c : Instr} (h : branching c = some .measure) (s : State) : Settles (exec c s) := by
  cases c <;> cases h
  all_goals
    simp only [exec, execRecClose, execSvSampleRecord, execStreamLoss, execPhxTick, execHarmWindowEnd, execPmuReport, execPmuClientTimeout,
      execGooseRetransmit, execGooseFrameBuild, execGpioPulseEnd]
    repeat' first | with_reducible exact settles_finish _ | split

/-- A row of sessions, generations or queues (chapters 05, 08, 09 and 15) settles. -/
theorem settles_of_queues {c : Instr} (h : branching c = some .queues) (s : State) : Settles (exec c s) := by
  cases c <;> cases h
  all_goals
    simp only [exec, execSessionLapse, execSessionIdleTimeout, execGenerationCommit, execRecipeBankWrite, execRwVersionWait, execAuthVerdict,
      execShaperWake, execSchedDecision, execCopyTxDone]
    repeat' first | with_reducible exact settles_finish _ | split

/-- A row of the fabric (chapter 14) settles. -/
theorem settles_of_batch {c : Instr} (h : branching c = some .batch) (s : State) : Settles (exec c s) := by
  cases c <;> cases h
  all_goals
    simp only [exec, execNibenBlockRx, execNibenReplayTimeout, execLinkTrainingLock, execHelloMsg, execLinkStateMsg, execMemberUnreachable,
      execFrameMsg, execCreditIssue, execConfigMsg, execBatchStageTimeout, execDigestReportDeadline, execBatchCommitAtT,
      execHeldResend, execTimeCompareTx, execTimeMsg]
    repeat' first | with_reducible exact settles_finish _ | split

/-- A row of DRAM, faults or interrupts (chapters 18 and 19) settles. -/
theorem settles_of_faults {c : Instr} (h : branching c = some .faults) (s : State) : Settles (exec c s) := by
  cases c <;> cases h
  all_goals
    simp only [exec, execDramRequest, execDramCalibration, execDramRowIdleClose, execFaultLineLatch, execCollectorMismatch, execWatchExpiry,
      execEscalationClear, execWdogWarn, execWatchdog, execJournalSignTimer, execSourceEvent, execCoalesceRelease, execStaleDelivery]
    repeat' first | with_reducible exact settles_finish _ | split

/-- A row of the event engine (chapter 13) settles. -/
theorem settles_of_events {c : Instr} (h : branching c = some .events) (s : State) : Settles (exec c s) := by
  cases c <;> cases h
  all_goals
    simp only [exec, execEvtPass, execEvtTimerExpiry, execSubLoss, execFswCommit, execTimePointFire]
    repeat' first | with_reducible exact settles_finish _ | split

/-- A row of register access or the supply (chapter 17) settles. -/
theorem settles_of_power {c : Instr} (h : branching c = some .power) (s : State) : Settles (exec c s) := by
  cases c <;> cases h
  all_goals
    simp only [exec, execRegisterWrite, execRcRead, execClosure, execThermalShutdown, execHoldEntry, execShedStage, execHoldExit, execShedUndo,
      execVinLow, execVinLowEnd, execStoreFault, execPwrMeasureApply, execPipelineWake, execPhxBankWake, execPowerOn,
      execThermalRestart, execPorstN, execWrstN, execStarterRun]
    repeat' first | with_reducible exact settles_finish _ | split

/-- A row of proofs, rings or the debug pins (chapters 15 to 17) settles. -/
theorem settles_of_host {c : Instr} (h : branching c = some .host) (s : State) : Settles (exec c s) := by
  cases c <;> cases h
  all_goals
    simp only [exec, execProofDone, execProofTimeout, execHdmaTxDoorbell, execHdmaRxDoorbell, execHdmaTxFrame, execI2cRead, execUartCommand,
      execJtagAccess, execSakInstallDone]
    repeat' first | with_reducible exact settles_finish _ | split

theorem settles_of_safeEntry (dt : Nat) (c : SafeCause) (s : State) : Settles (exec (.safeEntry dt c) s) :=
  settles_ite (settles_finish _) (settles_finish _)

theorem settles_of_frameTail (dt f : Nat) (more : Bytes) (s : State) : Settles (exec (.frameTail dt f more) s) := by
  unfold exec execFrameTail
  dsimp only
  cases sfind (s.advance dt).frames f with
  | none =>
    dsimp only
    split <;> exact settles_finish _
  | some x =>
    refine settles_ite (settles_finish _) (settles_ite (settles_finish _) (settles_ite (settles_finish _) (settles_ite (settles_finish _)
      (settles_ite (settles_finish _) ?_))))
    generalize (if x.icv.isSome then _ else _ : Option Ctr × State) = checked
    obtain ⟨c | c, t⟩ := checked
    · exact settles_finish _
    · dsimp only
      split <;> exact settles_finish _

/-! ## Every row -/

/-- Every command answers a settled next state. -/
theorem exec_settles (c : Instr) (s : State) : Settles (exec c s) := by
  cases c
  case
    mbxNop | getInfo | txnBegin | batchTxnBegin | txnCommit | txnAbort | setLatencyBudget | pwrStatus | portConfig | portCounters |
    counterRead | loadRecipe | exmTableConfig | exmWrite | exmSearch | tableNext | flushByPort | lpmWrite | lpmSearch | tcamWrite |
    tcamRead | polConfig | qciConfig | rwWrite | macsecConfig | admConfig | mcGroupWrite | capRingConfig | bufUnquarantine |
    schedConfig | gclWrite | qtelConfig | predPairConfig | predRcvyConfig | timeConfig | timeStatusCmd | phxStreamConfig |
    phxHarmConfig | pmuConfig | pmuServer | recConfig | recTrigger | recRelease | recRead | evtConfig | evtResetLatch | evtLogRead |
    fabConfig | fabStatus | faultConfig | forceSafe | unfence | journalRead | sessionBegin | sessionFinish | sessionClose |
    secQuote | secCert | secExtend | operatorEnrol | operatorRemove | provision | transferOwner | secLifecycle | secDebugChallenge |
    secDebugUnlock | fwUpdate | fwTrial | fwCommit | macsecCakInstall | gkeyConfig | secPolicy | secPolicyRead | configReadback |
    regRead | regWrite | memRead | memWrite | exmWriteX | exmTableConfigX | tcamWriteX | bufAlloc | bufFree =>
    exact settles_of_mailboxRow rfl s
  case
    recipeNop | ldf | ldv | movi | aluAdd | aluSub | aluAnd | aluOr | aluXor | aluShl | aluShr | extract | cmp | tst | br | brx |
    call | ret | adv | push | decber | chklen | lds | keyWrite | metaWrite | sideRec | svx | pat | endParse =>
    exact settles_of_recipeOf rfl s
  case
    parseWindowWaitEnd | engineDispatch | p43Inject | bufOverrun | sgmiiSpeedChange | pfcReceived | pfcPauseExpiry | lpiEntry |
    peerLpiSignal =>
    exact settles_of_ports rfl s
  case
    txnLapse | mbxReqDb | mbxCplDb | mbxChannelDisable | learnWindow | ageingTick | throttleRise | throttleFall =>
    exact settles_of_lookup rfl s
  case
    rcvyResetTimeout | supervisionTx | bypDrvOn | cmpResolve | timeSourceLost | traceableExpiry | ref25Lost | timeTxtsRead |
    ppsInEdge | irigInFrame | ppsOutEdge | gpioInputEdge | gridEstimate | gridHoldoverEntry | gridHoldoverExpiry =>
    exact settles_of_time rfl s
  case
    recClose | svSampleRecord | streamLoss | phxTick | harmWindowEnd | pmuReport | pmuClientTimeout | gooseRetransmit |
    gooseFrameBuild | gpioPulseEnd =>
    exact settles_of_measure rfl s
  case
    sessionLapse | sessionIdleTimeout | generationCommit | recipeBankWrite | rwVersionWait | authVerdict | shaperWake |
    schedDecision | copyTxDone =>
    exact settles_of_queues rfl s
  case
    nibenBlockRx | nibenReplayTimeout | linkTrainingLock | helloMsg | linkStateMsg | memberUnreachable | frameMsg | creditIssue |
    configMsg | batchStageTimeout | digestReportDeadline | batchCommitAtT | heldResend | timeCompareTx | timeMsg =>
    exact settles_of_batch rfl s
  case
    dramRequest | dramCalibration | dramRowIdleClose | faultLineLatch | collectorMismatch | watchExpiry | escalationClear |
    wdogWarn | watchdog | journalSignTimer | sourceEvent | coalesceRelease | staleDelivery =>
    exact settles_of_faults rfl s
  case
    evtPass | evtTimerExpiry | subLoss | fswCommit | timePointFire =>
    exact settles_of_events rfl s
  case
    registerWrite | rcRead | closure | thermalShutdown | holdEntry | shedStage | holdExit | shedUndo | vinLow | vinLowEnd |
    storeFault | pwrMeasureApply | pipelineWake | phxBankWake | powerOn | thermalRestart | porstN | wrstN | starterRun =>
    exact settles_of_power rfl s
  case
    proofDone | proofTimeout | hdmaTxDoorbell | hdmaRxDoorbell | hdmaTxFrame | i2cRead | uartCommand | jtagAccess | sakInstallDone =>
    exact settles_of_host rfl s
  case frameTail => exact settles_of_frameTail _ _ _ s
  case safeEntry => exact settles_of_safeEntry _ _ s
  all_goals exact settles_finish _

/-- Settles O55: every command's answer is `finish` of some state, and `settle` leaves no line waiting to be latched. -/
theorem commandsAnswerSettledStates : Obligations.CommandsAnswerSettledStates := by
  unfold Obligations.CommandsAnswerSettledStates
  intro c s
  obtain ⟨t, ht⟩ := exec_settles c s
  exact ⟨t, ht, settle_latched t⟩

end Sys2Proof.Proofs.SettledStates
end
